-- ==== Sys2Proof/Word.lean ====
section
/-! DEFINITION. The plainest words of the model: bytes, 64-bit words, and sparse tables. A table is a list of (key, value)
pairs; what a key that is not listed holds is given at each read. -/

namespace Sys2Proof

/-- A byte. -/
abbrev Byte := BitVec 8

/-- A 64-bit register (Table 3.1, R9). -/
abbrev Word := BitVec 64

/-- A sparse table keyed by number. -/
abbrev Tab (α : Type) := List (Nat × α)

end Sys2Proof
end

