-- ==== Sys2Proof/Syntax.lean ====
section
/-! DEFINITION. The commands of the block: one constructor of `Instr` for each row of spec/opcode_table.json,
with the operands a sender (or the block's own event) brings. Runner numbers `w` are global (global core number
times 16 plus runner, Table 3.12), core numbers `k` are global (R17), `d` and `e` are compute and edge dies, `l` is
an optical link (global fibre times 32, plus the peer's physical slot on a Z fibre, R331), `x` is one end of a Sweyr link
(link number times 2 plus end, R392), `g` is a slot's guard field (R77). -/

namespace Sys2Proof

/-- A temperature in °C that a die learns of (R425, R483): its hottest sensor's, or that of an LPDDR6 package of a compute die. -/
structure Reading where
  temp : Int
  package : Bool
  deriving DecidableEq, Repr

/-- What every descriptor row carries of the header of Table 14.5: its queue, its tag and its irq bit. -/
structure Hdr where
  q : Nat
  tag : BitVec 32
  irq : Bool
  deriving DecidableEq, Repr

/-- The operands of slot form VR (Table 3.9). `const` is the 32-bit constant of a fmt 2 bundle, which replaces vb. -/
structure VR where
  vd : Nat
  va : Nat
  vb : Nat
  mask : Nat
  maskEn : Bool
  type : Nat
  func : Nat
  const : Option (BitVec 32)
  deriving DecidableEq, Repr

/-- Bits of a stored code word that nature inverts (R292 to R298), and that the next read of its unit finds: the device address of the unit, or
the model's own number of a word without one (assumption 114), and the mask over the bits of its symbols, 8 to a symbol (LPDDR6), or its code bits (SRAM, wells). Mask 0 inverts none. -/
structure Upset where
  addr : Nat
  mask : Nat
  deriving DecidableEq, Repr

/-- The dynamic pools of Table 1.8 that have a stall timeout. -/
inductive Pool where
  | relay (e : Nat)
  | heat
  | runner (k : Nat)
  | lap
  deriving DecidableEq, Repr

/-- A negotiation flit (Table 11.12). -/
structure Nego where
  fec : Nat
  features : Nat
  rx : BitVec 72
  credit : Nat
  round : Nat
  deriving DecidableEq, Repr

/-- An identity block (Table 11.14). -/
structure IdBlock where
  serial : BitVec 64
  port : Nat
  fibre : Nat
  coord : Nat
  phys : Nat
  level : Nat
  job : Nat
  assigned : Bool
  planCrc : Nat
  deriving DecidableEq, Repr

/-- A time message (Table 15.3); a time is nanoseconds and 2^-16 parts of one. -/
structure TimeMsg where
  hops : Nat
  pacer : Nat
  sent : Nat
  sentNs : Nat
  sentFrac : Nat
  seen : Nat
  seenNs : Nat
  seenFrac : Nat
  state : Nat
  deriving DecidableEq, Repr

/-- A relay packet (Table 8.7) with the words of its data flits. -/
structure RelayPkt where
  tag : Nat
  lap : Nat
  layout : Nat
  kind : Nat
  op : Nat
  scale : Int
  sender : Nat
  type : Nat
  crc : Nat
  first : Nat
  overflow : Nat
  residues : List Nat
  blocks : List Nat
  words : List (BitVec 32)
  deriving DecidableEq, Repr

/-- A write packet (Table 11.7). -/
structure WritePkt where
  dest : Nat
  data : List (BitVec 8)
  post : Bool
  postAddr : Nat
  postVal : BitVec 64
  deriving DecidableEq, Repr

/-- How an optical packet arrived: the job byte of its flits, the sequence number of its first flit, and the mask of the receive nibs that brought its flits (R313, R322, R323). -/
structure Arrival where
  job : Nat
  seq : Nat
  nibs : Nat
  deriving DecidableEq, Repr

/-- The link that a C3 flit arrives on, and whether a C3 buffer is free for it (R321). -/
structure C3Link where
  link : Nat
  room : Bool
  deriving DecidableEq, Repr

/-- The physical slot in a channel-open flit, and whether the peer's channel begins anew after a reset of its edge die (R329, R345). -/
structure PeerSlot where
  phys : Nat
  anew : Bool
  deriving DecidableEq, Repr

/-- A receive nib, and the bytes of the bit stream that its receiver has decoded (R311). -/
structure HeardNib where
  nib : Nat
  stream : List (BitVec 8)
  deriving DecidableEq, Repr

/-- The 256 bytes that a receive nib of a link delivers as a flit: the uncorrectable codewords that end in it, and whether it touches one (R311). -/
structure HeardFlit where
  link : Nat
  nib : Nat
  words : Nat
  touched : Bool
  image : List (BitVec 8)
  deriving DecidableEq, Repr

/-- A Sweyr message: the fields of its head flit (Table 13.6), its payload, and which of its flits carry the poison bit (Table 13.3), the head being flit 0. `master` is
laid out as bytes 16 to 19 of a blotter record (Table 18.1). -/
structure SwlMsg where
  statusOnly : Bool
  src : Nat
  dst : Nat
  tag : Nat
  addr : Nat
  len : Nat
  atomic : Nat
  status : Nat
  residue : Nat
  overflow : Bool
  operand : BitVec 64
  compare : BitVec 64
  master : Nat
  packet : BitVec 64
  data : List (BitVec 8)
  poison : List Nat
  deriving DecidableEq, Repr

/-- Flits of a message that arrive one after another on a link (R370, R373): the message, the sequence number of the first of them, which flit of the message that is, how many
arrive, and the ack that their headers carry, if valid. -/
structure SwlIn where
  msg : SwlMsg
  seq : Nat
  first : Nat
  count : Nat
  ack : Option Nat
  deriving DecidableEq, Repr

/-- 128 bytes that arrive as a flit on a Sweyr link end. -/
structure SwlHeard where
  x : Nat
  image : List (BitVec 8)
  deriving DecidableEq, Repr

/-- An arbiter (R385): output port `p` of router `r` of compute die `d`, or the transmit side of a Sweyr link end. -/
inductive Arb where
  | mesh (d r p : Nat)
  | swl (x : Nat)
  deriving DecidableEq, Repr

/-- The commands. Each constructor's text is its row's summary, with the rule that governs it. -/
inductive Instr where
  /-- REGISTER_WRITE (R10): A BAR0 write to a register that has no row of its own sets, clears or ignores each field as its access code gives. -/
  | registerWrite (off size : Nat) (val : BitVec 64)
  /-- RC_FIELD_READ (R11): A read of an RC field returns its value and clears it to the cold value, and counts an event of the same cycle after the read. -/
  | rcFieldRead (off size : Nat)
  /-- DEV_SETUP_LOCK_SET (R10): A write of 1 to DEV_SETUP_LOCK.lock locks every RWL field until cold or module warm reset. -/
  | devSetupLockSet (val : BitVec 32)
  /-- STALL_TIMEOUT_WRITE (R41): A write to DEV_STALL_TIMEOUT sets the timeouts for requests that begin to wait after it. -/
  | stallTimeoutWrite (val : BitVec 64)
  /-- STALL_TIMEOUT_EXPIRY (R36): A waiting request reaches the stall timeout of its pool, which makes one 0xF2 record while the request keeps its place. -/
  | stallTimeoutExpiry (pool : Pool) (req : Nat)
  /-- MODE_CHANGE (R31): A write to PWR_MODE requests a new power mode, which runners run through without loss. -/
  | modeChange (val : BitVec 32)
  /-- MODE_CHANGE_COMPLETE (R31): A mode change completes on every compute die, and a change requested meanwhile then takes effect. -/
  | modeChangeComplete
  /-- MEM_INTERLEAVE_WRITE (R49): A write to CMP_MEM_INTERLEAVE is accepted or, with a reserved value, ignored with record 0x0413. -/
  | memInterleaveWrite (d : Nat) (val : BitVec 32)
  /-- INTERLEAVE_TAKES_EFFECT (R50): Once the die's in-flight LPDDR6 accesses have been performed, the new interleave mapping applies to later accesses. -/
  | interleaveTakesEffect (d : Nat)
  /-- HOST_MEM_READ (R399): A host CXL.mem read through BAR4 is performed at the owning memory, or returns poisoned all ones outside the populated or HDM range. -/
  | hostMemRead (addr len : Nat)
  /-- HOST_MEM_WRITE (R399): A host CXL.mem write through BAR4 is performed at the owning memory, or dropped outside the populated or HDM range. -/
  | hostMemWrite (addr : Nat) (data : List (BitVec 8))
  /-- HOST_SNOOP (R395): The module answers a host snoop on a ring-cache line. -/
  | hostSnoop (addr : Nat) (invalidate : Bool)
  /-- WINDOW_GRANT (R53): The WINDOW_GRANT descriptor installs one address window, or is rejected whole. -/
  | windowGrant (h : Hdr) (id rights holder queue base len : Nat)
  /-- WINDOW_REVOKE (R54): The WINDOW_REVOKE descriptor stops admitting accesses under a window and waits for those already admitted. -/
  | windowRevoke (h : Hdr) (id : Nat)
  /-- WINDOW_REVOKE_COMPLETE (R54): Once every access admitted under the window has been performed, the revoke completes and frees the window id. -/
  | windowRevokeComplete (id : Nat)
  /-- ACCESS_PERFORMED (R57): An admitted load, store or atomic is performed at its owning memory and fixes its effect. -/
  | accessPerformed (id : Nat) (upset : Upset)
  /-- NOP (R77): The NOP opcode of a slot performs nothing. -/
  | nop (w g : Nat)
  /-- ADD (R81): ADD writes rs1 + rs2 modulo 2^64 to rd. -/
  | add (w g rd rs1 rs2 : Nat)
  /-- SUB (R81): SUB writes rs1 - rs2 modulo 2^64 to rd. -/
  | sub (w g rd rs1 rs2 : Nat)
  /-- MUL (R81): MUL writes the low 64 bits of rs1 × rs2 to rd. -/
  | mul (w g rd rs1 rs2 : Nat)
  /-- MULH (R81): MULH writes the high 64 bits of the signed product to rd. -/
  | mulh (w g rd rs1 rs2 : Nat)
  /-- MULHU (R81): MULHU writes the high 64 bits of the unsigned product to rd. -/
  | mulhu (w g rd rs1 rs2 : Nat)
  /-- DIV (R81): DIV writes the signed quotient, with the edge results of R81. -/
  | div (w g rd rs1 rs2 : Nat)
  /-- DIVU (R81): DIVU writes the unsigned quotient, all ones on division by 0. -/
  | divu (w g rd rs1 rs2 : Nat)
  /-- REM (R81): REM writes the signed remainder, the dividend on division by 0. -/
  | rem (w g rd rs1 rs2 : Nat)
  /-- REMU (R81): REMU writes the unsigned remainder, the dividend on division by 0. -/
  | remu (w g rd rs1 rs2 : Nat)
  /-- AND (R81): AND writes the bitwise AND of rs1 and rs2. -/
  | and (w g rd rs1 rs2 : Nat)
  /-- OR (R81): OR writes the bitwise OR of rs1 and rs2. -/
  | or (w g rd rs1 rs2 : Nat)
  /-- XOR (R81): XOR writes the bitwise exclusive OR of rs1 and rs2. -/
  | xor (w g rd rs1 rs2 : Nat)
  /-- SHL (R81): SHL shifts rs1 left by rs2[5:0]. -/
  | shl (w g rd rs1 rs2 : Nat)
  /-- SHR (R81): SHR shifts rs1 right logically by rs2[5:0]. -/
  | shr (w g rd rs1 rs2 : Nat)
  /-- SRA (R81): SRA shifts rs1 right arithmetically by rs2[5:0]. -/
  | sra (w g rd rs1 rs2 : Nat)
  /-- MIN (R81): MIN writes the signed lesser of rs1 and rs2. -/
  | min (w g rd rs1 rs2 : Nat)
  /-- MAX (R81): MAX writes the signed greater of rs1 and rs2. -/
  | max (w g rd rs1 rs2 : Nat)
  /-- MINU (R81): MINU writes the unsigned lesser of rs1 and rs2. -/
  | minu (w g rd rs1 rs2 : Nat)
  /-- MAXU (R81): MAXU writes the unsigned greater of rs1 and rs2. -/
  | maxu (w g rd rs1 rs2 : Nat)
  /-- CLZ (R81): CLZ counts the leading zeros of rs1, 64 for 0. -/
  | clz (w g rd rs1 : Nat)
  /-- CTZ (R81): CTZ counts the trailing zeros of rs1, 64 for 0. -/
  | ctz (w g rd rs1 : Nat)
  /-- POPC (R81): POPC counts the set bits of rs1. -/
  | popc (w g rd rs1 : Nat)
  /-- ADDI (R80): ADDI adds the sign-extended immediate to rs1. -/
  | addi (w g rd rs1 : Nat) (imm : BitVec 56)
  /-- ANDI (R80): ANDI ANDs rs1 with the sign-extended immediate. -/
  | andi (w g rd rs1 : Nat) (imm : BitVec 56)
  /-- ORI (R80): ORI ORs rs1 with the sign-extended immediate. -/
  | ori (w g rd rs1 : Nat) (imm : BitVec 56)
  /-- XORI (R80): XORI exclusive-ORs rs1 with the sign-extended immediate. -/
  | xori (w g rd rs1 : Nat) (imm : BitVec 56)
  /-- SHLI (R80): SHLI shifts rs1 left by imm[5:0]. -/
  | shli (w g rd rs1 : Nat) (imm : BitVec 56)
  /-- SHRI (R80): SHRI shifts rs1 right logically by imm[5:0]. -/
  | shri (w g rd rs1 : Nat) (imm : BitVec 56)
  /-- SRAI (R80): SRAI shifts rs1 right arithmetically by imm[5:0]. -/
  | srai (w g rd rs1 : Nat) (imm : BitVec 56)
  /-- LI (R80): LI loads the sign-extended immediate, 16 or 56 bits, into rd. -/
  | li (w g rd : Nat) (imm : BitVec 56)
  /-- CMPEQ (R81): CMPEQ writes rs1 = rs2 to a predicate. -/
  | cmpeq (w g pd rs1 rs2 : Nat)
  /-- CMPNE (R81): CMPNE writes rs1 ≠ rs2 to a predicate. -/
  | cmpne (w g pd rs1 rs2 : Nat)
  /-- CMPLT (R81): CMPLT writes signed rs1 < rs2 to a predicate. -/
  | cmplt (w g pd rs1 rs2 : Nat)
  /-- CMPLTU (R81): CMPLTU writes unsigned rs1 < rs2 to a predicate. -/
  | cmpltu (w g pd rs1 rs2 : Nat)
  /-- CMPLE (R81): CMPLE writes signed rs1 ≤ rs2 to a predicate. -/
  | cmple (w g pd rs1 rs2 : Nat)
  /-- CMPLEU (R81): CMPLEU writes unsigned rs1 ≤ rs2 to a predicate. -/
  | cmpleu (w g pd rs1 rs2 : Nat)
  /-- PAND (R77): PAND writes the AND of two predicates. -/
  | pand (w g pd p1 p2 : Nat)
  /-- POR (R77): POR writes the OR of two predicates. -/
  | por (w g pd p1 p2 : Nat)
  /-- PXOR (R77): PXOR writes the exclusive OR of two predicates. -/
  | pxor (w g pd p1 p2 : Nat)
  /-- PANDN (R77): PANDN writes the AND of one predicate with the complement of another. -/
  | pandn (w g pd p1 p2 : Nat)
  /-- FADD (R82): FADD writes the binary32 sum rs1 + rs2 under RNE. -/
  | fadd (w g rd rs1 rs2 : Nat)
  /-- FSUB (R82): FSUB writes the binary32 difference rs1 - rs2. -/
  | fsub (w g rd rs1 rs2 : Nat)
  /-- FMUL (R82): FMUL writes the binary32 product. -/
  | fmul (w g rd rs1 rs2 : Nat)
  /-- FFMA (R82): FFMA writes rs1 × rs2 + rs3 with a single rounding. -/
  | ffma (w g rd rs1 rs2 rs3 : Nat)
  /-- FDIV (R82): FDIV writes the binary32 quotient. -/
  | fdiv (w g rd rs1 rs2 : Nat)
  /-- FSQRT (R82): FSQRT writes the binary32 square root of rs1. -/
  | fsqrt (w g rd rs1 : Nat)
  /-- FMIN (R82): FMIN writes the lesser value, canonical NaN for any NaN, -0 below +0. -/
  | fmin (w g rd rs1 rs2 : Nat)
  /-- FMAX (R82): FMAX writes the greater value, canonical NaN for any NaN. -/
  | fmax (w g rd rs1 rs2 : Nat)
  /-- FCMPEQ (R82): FCMPEQ writes 1 when rs1 equals rs2, 0 with a NaN. -/
  | fcmpeq (w g rd rs1 rs2 : Nat)
  /-- FCMPLT (R82): FCMPLT writes 1 when rs1 < rs2. -/
  | fcmplt (w g rd rs1 rs2 : Nat)
  /-- FCMPLE (R82): FCMPLE writes 1 when rs1 ≤ rs2. -/
  | fcmple (w g rd rs1 rs2 : Nat)
  /-- FCVTIF (R82): FCVTIF converts int64 rs1 to binary32. -/
  | fcvtif (w g rd rs1 : Nat)
  /-- FCVTFI (R82): FCVTFI converts binary32 rs1 to int64, toward zero and saturating. -/
  | fcvtfi (w g rd rs1 : Nat)
  /-- MOVA (R79): MOVA copies a scalar register into an address register. -/
  | mova (w g rd rs1 : Nat)
  /-- MOVS (R79): MOVS copies an address register into a scalar register. -/
  | movs (w g rd rs1 : Nat)
  /-- ADDA (R79): ADDA writes a[rs1] + s[rs2] to an address register. -/
  | adda (w g rd rs1 rs2 : Nat)
  /-- LD8 (R86): LD8 loads a sign-extended byte. -/
  | ld8 (w g rd base : Nat) (postInc : Bool) (off : BitVec 17)
  /-- LD8U (R86): LD8U loads a zero-extended byte. -/
  | ld8u (w g rd base : Nat) (postInc : Bool) (off : BitVec 17)
  /-- LD16 (R86): LD16 loads a sign-extended halfword. -/
  | ld16 (w g rd base : Nat) (postInc : Bool) (off : BitVec 17)
  /-- LD16U (R86): LD16U loads a zero-extended halfword. -/
  | ld16u (w g rd base : Nat) (postInc : Bool) (off : BitVec 17)
  /-- LD32 (R86): LD32 loads a sign-extended word. -/
  | ld32 (w g rd base : Nat) (postInc : Bool) (off : BitVec 17)
  /-- LD32U (R86): LD32U loads a zero-extended word. -/
  | ld32u (w g rd base : Nat) (postInc : Bool) (off : BitVec 17)
  /-- LD64 (R86): LD64 loads a 64-bit value. -/
  | ld64 (w g rd base : Nat) (postInc : Bool) (off : BitVec 17)
  /-- ST8 (R86): ST8 stores a byte. -/
  | st8 (w g rs base : Nat) (postInc : Bool) (off : BitVec 17)
  /-- ST16 (R86): ST16 stores a halfword. -/
  | st16 (w g rs base : Nat) (postInc : Bool) (off : BitVec 17)
  /-- ST32 (R86): ST32 stores a word. -/
  | st32 (w g rs base : Nat) (postInc : Bool) (off : BitVec 17)
  /-- ST64 (R86): ST64 stores a 64-bit value. -/
  | st64 (w g rs base : Nat) (postInc : Bool) (off : BitVec 17)
  /-- AADD32 (R87): AADD32 issues a 32-bit atomic add and returns the sign-extended old value. -/
  | aadd32 (w g rd base rs : Nat) (off : BitVec 12)
  /-- AADD64 (R87): AADD64 issues a 64-bit atomic add. -/
  | aadd64 (w g rd base rs : Nat) (off : BitVec 12)
  /-- AMIN32 (R87): AMIN32 issues a signed 32-bit atomic minimum. -/
  | amin32 (w g rd base rs : Nat) (off : BitVec 12)
  /-- AMIN64 (R87): AMIN64 issues a signed 64-bit atomic minimum. -/
  | amin64 (w g rd base rs : Nat) (off : BitVec 12)
  /-- AMINU32 (R87): AMINU32 issues an unsigned 32-bit atomic minimum. -/
  | aminu32 (w g rd base rs : Nat) (off : BitVec 12)
  /-- AMINU64 (R87): AMINU64 issues an unsigned 64-bit atomic minimum. -/
  | aminu64 (w g rd base rs : Nat) (off : BitVec 12)
  /-- AMAX32 (R87): AMAX32 issues a signed 32-bit atomic maximum. -/
  | amax32 (w g rd base rs : Nat) (off : BitVec 12)
  /-- AMAX64 (R87): AMAX64 issues a signed 64-bit atomic maximum. -/
  | amax64 (w g rd base rs : Nat) (off : BitVec 12)
  /-- AMAXU32 (R87): AMAXU32 issues an unsigned 32-bit atomic maximum. -/
  | amaxu32 (w g rd base rs : Nat) (off : BitVec 12)
  /-- AMAXU64 (R87): AMAXU64 issues an unsigned 64-bit atomic maximum. -/
  | amaxu64 (w g rd base rs : Nat) (off : BitVec 12)
  /-- ASWAP32 (R87): ASWAP32 issues a 32-bit atomic swap. -/
  | aswap32 (w g rd base rs : Nat) (off : BitVec 12)
  /-- ASWAP64 (R87): ASWAP64 issues a 64-bit atomic swap. -/
  | aswap64 (w g rd base rs : Nat) (off : BitVec 12)
  /-- ACAS32 (R87): ACAS32 issues a 32-bit compare-and-swap with the compare value from rd. -/
  | acas32 (w g rd base rs : Nat) (off : BitVec 12)
  /-- ACAS64 (R87): ACAS64 issues a 64-bit compare-and-swap. -/
  | acas64 (w g rd base rs : Nat) (off : BitVec 12)
  /-- AFADD32 (R63): AFADD32 issues an atomic binary32 add. -/
  | afadd32 (w g rd base rs : Nat) (off : BitVec 12)
  /-- FENCE (R59): FENCE holds later accesses of the runner in its scope and pairs until earlier ones are performed. -/
  | fence (w g scope pairs : Nat)
  /-- HURDLE (R89): HURDLE fences, then counts the runner's arrival at a core, cluster or die hurdle and waits for release. -/
  | hurdle (w g scope hid rc : Nat)
  /-- BWAIT (R90): BWAIT waits until the baton's relay completes and writes its status word. -/
  | bwait (w g rd rb : Nat)
  /-- BTEST (R90): BTEST writes 1 if the baton's relay has completed, without waiting. -/
  | btest (w g rd rb : Nat)
  /-- HPOST (R96): HPOST requests a heat table entry for a pair of a stage-direction without an input queue. -/
  | hpost (w g r : Nat)
  /-- HNEXT (R96): HNEXT waits until the die's scheduler assigns a pair to the runner. -/
  | hnext (w g r : Nat)
  /-- HDONE (R96): HDONE reports the work of an assigned heat entry as done in this die. -/
  | hdone (w g r : Nat)
  /-- BR (R83): BR branches to PC + offset. -/
  | br (w g : Nat) (off : BitVec 22)
  /-- CALL (R83): CALL branches to PC + offset and writes PC + 1 to s63. -/
  | call (w g : Nat) (off : BitVec 22)
  /-- BRX (R83): BRX branches to the bundle index in a scalar register. -/
  | brx (w g r : Nat)
  /-- RET (R83): RET branches to s63[16:0]. -/
  | ret (w g : Nat)
  /-- EXIT (R84): EXIT ends the runner, which becomes Free once its accesses have been performed. -/
  | exit (w g : Nat)
  /-- BREAK (R84): BREAK halts the runner with cause 13 while debug is unlocked, and is a NOP otherwise. -/
  | breakInstr (w g : Nat)
  /-- RDSR (R85): RDSR reads a special register into rd. -/
  | rdsr (w g rd idx : Nat)
  /-- WRSR (R85): WRSR writes CENSUS_SLOT or CENSUS_LAP. -/
  | wrsr (w g rs idx : Nat)
  /-- VADD (R144): VADD adds elementwise, saturating for tally. -/
  | vadd (w g : Nat) (o : VR)
  /-- VSUB (R144): VSUB subtracts elementwise. -/
  | vsub (w g : Nat) (o : VR)
  /-- VMUL (R144): VMUL multiplies elementwise. -/
  | vmul (w g : Nat) (o : VR)
  /-- VFMA (R144): VFMA writes va × vb + vd with one rounding. -/
  | vfma (w g : Nat) (o : VR)
  /-- VMIN (R146): VMIN writes the elementwise minimum. -/
  | vmin (w g : Nat) (o : VR)
  /-- VMAX (R146): VMAX writes the elementwise maximum. -/
  | vmax (w g : Nat) (o : VR)
  /-- VABS (R146): VABS writes the absolute value. -/
  | vabs (w g : Nat) (o : VR)
  /-- VNEG (R146): VNEG writes the negation. -/
  | vneg (w g : Nat) (o : VR)
  /-- VDIV (R146): VDIV writes the correctly rounded quotient. -/
  | vdiv (w g : Nat) (o : VR)
  /-- VSQRT (R146): VSQRT writes the correctly rounded square root. -/
  | vsqrt (w g : Nat) (o : VR)
  /-- VRCP (R146): VRCP writes the reciprocal within 1 ulp. -/
  | vrcp (w g : Nat) (o : VR)
  /-- VRSQRT (R146): VRSQRT writes the reciprocal square root within 1 ulp. -/
  | vrsqrt (w g : Nat) (o : VR)
  /-- VAND (R148): VAND ANDs integer elements. -/
  | vand (w g : Nat) (o : VR)
  /-- VOR (R148): VOR ORs integer elements. -/
  | vor (w g : Nat) (o : VR)
  /-- VXOR (R148): VXOR exclusive-ORs integer elements. -/
  | vxor (w g : Nat) (o : VR)
  /-- VSHL (R148): VSHL shifts integer elements left. -/
  | vshl (w g : Nat) (o : VR)
  /-- VSHR (R148): VSHR shifts integer elements right logically. -/
  | vshr (w g : Nat) (o : VR)
  /-- VSRA (R148): VSRA shifts integer elements right arithmetically. -/
  | vsra (w g : Nat) (o : VR)
  /-- VCMPEQ (R149): VCMPEQ writes equality to a mask. -/
  | vcmpeq (w g : Nat) (o : VR)
  /-- VCMPNE (R149): VCMPNE writes inequality to a mask. -/
  | vcmpne (w g : Nat) (o : VR)
  /-- VCMPLT (R149): VCMPLT writes less-than to a mask. -/
  | vcmplt (w g : Nat) (o : VR)
  /-- VCMPLE (R149): VCMPLE writes less-or-equal to a mask. -/
  | vcmple (w g : Nat) (o : VR)
  /-- VSEL (R138): VSEL selects va or vb under a mask. -/
  | vsel (w g : Nat) (o : VR)
  /-- VCLASS (R149): VCLASS sets mask bits for elements in the selected classes. -/
  | vclass (w g : Nat) (o : VR)
  /-- VEXP (R147): VEXP computes e^x. -/
  | vexp (w g : Nat) (o : VR)
  /-- VEXP2 (R147): VEXP2 computes 2^x. -/
  | vexp2 (w g : Nat) (o : VR)
  /-- VLOG (R147): VLOG computes the natural logarithm. -/
  | vlog (w g : Nat) (o : VR)
  /-- VLOG2 (R147): VLOG2 computes the base-2 logarithm. -/
  | vlog2 (w g : Nat) (o : VR)
  /-- VSIN (R147): VSIN computes the sine. -/
  | vsin (w g : Nat) (o : VR)
  /-- VCOS (R147): VCOS computes the cosine. -/
  | vcos (w g : Nat) (o : VR)
  /-- VTANH (R147): VTANH computes the hyperbolic tangent. -/
  | vtanh (w g : Nat) (o : VR)
  /-- VSIGM (R147): VSIGM computes the logistic sigmoid. -/
  | vsigm (w g : Nat) (o : VR)
  /-- VERF (R147): VERF computes the error function. -/
  | verf (w g : Nat) (o : VR)
  /-- VCVT (R150): VCVT converts between the type pairs of Table 5.6. -/
  | vcvt (w g : Nat) (o : VR)
  /-- VPERM (R151): VPERM permutes elements within rows by vb indices. -/
  | vperm (w g : Nat) (o : VR)
  /-- VSHUF (R151): VSHUF shuffles rows within columns by vb indices. -/
  | vshuf (w g : Nat) (o : VR)
  /-- VTRANS (R151): VTRANS transposes a 32 × 32 register. -/
  | vtrans (w g : Nat) (o : VR)
  /-- VPACK (R152): VPACK packs FP6 slots densely. -/
  | vpack (w g : Nat) (o : VR)
  /-- VUNPACK (R152): VUNPACK unpacks dense FP6 into slots. -/
  | vunpack (w g : Nat) (o : VR)
  /-- VMXPACK (R153): VMXPACK converts FP32 blocks to a narrow MX type with E8M0 scales. -/
  | vmxpack (w g : Nat) (o : VR)
  /-- VMXUNPACK (R154): VMXUNPACK expands narrow MX elements with their scales to FP32. -/
  | vmxunpack (w g : Nat) (o : VR)
  /-- VSOFTMAX (R158): VSOFTMAX computes a masked row softmax and its log-sum-exp. -/
  | vsoftmax (w g : Nat) (o : VR)
  /-- VRED (R155): VRED reduces rows, columns or the whole register on the reduction unit. -/
  | vred (w g : Nat) (o : VR)
  /-- MAND (R138): MAND ANDs two mask registers. -/
  | mand (w g : Nat) (o : VR)
  /-- MOR (R138): MOR ORs two mask registers. -/
  | mor (w g : Nat) (o : VR)
  /-- MXOR (R138): MXOR exclusive-ORs two mask registers. -/
  | mxor (w g : Nat) (o : VR)
  /-- MNOT (R138): MNOT complements a mask register. -/
  | mnot (w g : Nat) (o : VR)
  /-- GENSAVE (R91): GENSAVE writes every lane's generator state to a vector register. -/
  | gensave (w g : Nat) (o : VR)
  /-- GENLOAD (R162): GENLOAD sets every lane's generator state from a vector register. -/
  | genload (w g : Nat) (o : VR)
  /-- GENDRAW (R161): GENDRAW writes one generator draw per container. -/
  | gendraw (w g : Nat) (o : VR)
  /-- GENDROP (R161): GENDROP sets a mask bit where a draw falls below the threshold. -/
  | gendrop (w g : Nat) (o : VR)
  /-- VSPLAT (R149): VSPLAT writes the low bits of a scalar to every element. -/
  | vsplat (w g vd rs ty : Nat)
  /-- MMAC (R107): MMAC queues a run of K-steps of block products into a tile's partials. -/
  | mmac (w g aa ab kreg ta tb tile : Nat) (clear : Bool)
  /-- KSTEP (R111): The array performs one K-step, adding each cell's block term into its partial. -/
  | kstep (k : Nat)
  /-- MSETP (R117): MSETP forces promotion of both tiles and sets the promotion interval. -/
  | msetp (w g interval : Nat)
  /-- MSCALE (R119): MSCALE forces promotion of a tile and sets its per-tensor scales. -/
  | mscale (w g sa sb tile : Nat)
  /-- MDRAIN (R126): MDRAIN takes its draws and queues a drain of a tile to a destination. -/
  | mdrain (w g a scale ty rnd tile : Nat) (census : Bool)
  /-- DRAIN_EXECUTE (R132): Once earlier array operations retire, a drain forces a final promotion and converts and writes the tile. -/
  | drainExecute (k : Nat)
  /-- MZERO (R120): MZERO discards partials and writes +0 to every tile element. -/
  | mzero (w g tile : Nat)
  /-- MWAIT (R132): MWAIT waits until the array has retired every operation and drain write of the runner. -/
  | mwait (w g : Nat)
  /-- DMCOPY (R93): DMCOPY queues a copy on the core's data mover and returns a tag. -/
  | dmcopy (w g a asrc len tag : Nat) (census : Bool)
  /-- DM2D (R93): DM2D reads a transfer record and queues a strided two-dimensional copy. -/
  | dm2d (w g a tag : Nat) (census : Bool)
  /-- DMFILL (R93): DMFILL queues a pattern fill. -/
  | dmfill (w g a pat len tag : Nat)
  /-- DMWAIT (R93): DMWAIT waits until the tagged transfer and every earlier one is performed. -/
  | dmwait (w g tag : Nat)
  /-- DM_TRANSFER_PERFORMED (R93): A data-mover transfer completes, releasing waits on its tag. -/
  | dmTransferPerformed (id : Nat)
  /-- VLD (R92): VLD loads the 32 rows of a vector register. -/
  | vld (w g vd a stride : Nat) (postInc : Bool)
  /-- VST (R92): VST stores the 32 rows of a vector register. -/
  | vst (w g vs a stride : Nat) (postInc census : Bool)
  /-- TLD (R123): TLD loads a tile's FP32 or int32 words in order with the array. -/
  | tld (w g a tile : Nat)
  /-- TST (R123): TST stores a tile's words in order with the array. -/
  | tst (w g a tile : Nat) (census : Bool)
  /-- RPOST (R95): RPOST posts a relay to an edge die's engine and returns a baton. -/
  | rpost (w g a ed rd : Nat)
  /-- CORE_HALT (R69): A halt bit of CMP_CORE_k_CTL halts a runner at its next bundle boundary. -/
  | coreHalt (k : Nat) (val : BitVec 64)
  /-- CORE_RESUME (R68): A resume bit of CMP_CORE_k_CTL returns a Halted runner to Ready or Waiting. -/
  | coreResume (k : Nat) (val : BitVec 64)
  /-- CORE_STEP (R103): A step bit of CMP_CORE_k_CTL lets a Halted runner issue one bundle. -/
  | coreStep (k : Nat) (val : BitVec 64)
  /-- STEP_DONE (R103): When a stepped bundle issues, the runner halts again and step_done sets. -/
  | stepDone (w : Nat)
  /-- CORE_KILL (R71): A kill bit of CMP_CORE_k_CTL ends a runner. -/
  | coreKill (k : Nat) (val : BitVec 64)
  /-- RUNNER_FREED (R71): Once every access and transfer of an exiting or killed runner is performed, it becomes Free. -/
  | runnerFreed (w : Nat)
  /-- DBG_DATA_WRITE (R104): A write to CMP_CORE_k_DBG_DATA sets the selected register of a Halted or Frozen runner. -/
  | dbgDataWrite (k : Nat) (val : BitVec 64)
  /-- ODRAIN_GO (R133): A go to CMP_CORE_k_ODRAIN_CTL requests an out-of-band drain of a halted core. -/
  | odrainGo (k : Nat) (val : BitVec 64)
  /-- ODRAIN_DONE (R133): An out-of-band drain finishes writing, status becomes done and held resumes act. -/
  | odrainDone (k : Nat)
  /-- LOAD_PROGRAM (R97): The LOAD_PROGRAM descriptor checks an image and copies it into the program store of each named die. -/
  | loadProgram (h : Hdr) (image dies : Nat)
  /-- LAUNCH (R99): The LAUNCH descriptor checks a launch and queues a share of n runners on each named core. -/
  | launch (h : Hdr) (dies n : Nat) (notify : Bool) (entry cores : Nat) (arg : BitVec 64)
  /-- LAUNCH_SHARE_START (R100): When a core has n Free runners, the share starts on the lowest-numbered ones with their initial state. -/
  | launchShareStart (k : Nat)
  /-- HALT_RUNNERS (R502): The HALT_RUNNERS descriptor halts, resumes or kills named runners. -/
  | haltRunners (h : Hdr) (dies runners action cores : Nat)
  /-- HEAT_ASSIGN (R273): When a runner waits in HNEXT and an entry is ready in its die, the scheduler assigns a pair. -/
  | heatAssign (d : Nat)
  /-- HEAT_AUTO_POST (R271): When a queue's head passes the last posted segment, the scheduler posts the next segment's pair. -/
  | heatAutoPost (sd : Nat)
  /-- FAR_QUEUE_SEGMENT_CARRY (R278): A segment published in a far queue's send half is carried to the receive half. -/
  | farQueueSegmentCarry (base : Nat)
  /-- FAR_QUEUE_HEAD_ADVANCE (R278): Once a carried segment has landed whole, the receive half's head advances. -/
  | farQueueHeadAdvance (base : Nat)
  /-- FAR_QUEUE_TAIL_COPY (R278): The receive half's tail is copied back into the send half. -/
  | farQueueTailCopy (base : Nat)
  /-- STAGE_CFG_WRITE (R285): A write to a stage register is accepted only while no entry is posted or waiting. -/
  | stageCfgWrite (d stage reg : Nat) (val : BitVec 64)
  /-- SNAPSHOT_TAKE (R163): At the next bundle boundary after a lap open reaches the die, each core snapshots its generators and switches LAP. -/
  | snapshotTake (k : Nat)
  /-- SNAPSHOT_WRITE_COMPLETE (R163): All 64 core blocks of a snapshot are written and snap_valid sets. -/
  | snapshotWriteComplete (d : Nat)
  /-- GENERATOR_RESTORE (R164): At the next bundle boundary after an abort, each core restores its lanes from the snapshot or reseeds. -/
  | generatorRestore (k : Nat)
  /-- VEC_RESEED (R165): A reseed write to CMP_VEC_GEN_CTL reseeds every lane of the die. -/
  | vecReseed (d : Nat) (val : BitVec 32)
  /-- VEC_SNAP_WRITE (R166): A write to CMP_VEC_SNAP is accepted or ignored with 0x0301. -/
  | vecSnapWrite (d : Nat) (val : BitVec 64)
  /-- CENSUS_INSTALL_GO (R187): A go to LAP_CENSUS_INSTALL_CTL reads slot records and installs or removes census slots. -/
  | censusInstallGo (val : BitVec 64)
  /-- CENSUS_INSTALL_COMPLETE (R188): After every count already issued to its slots has been added, the install takes effect. -/
  | censusInstallComplete
  /-- CENSUS_READ (R192): The CENSUS_READ descriptor writes 640-byte records of summed bins, optionally clearing them. -/
  | censusRead (h : Hdr) (first count lap dest : Nat) (clear : Bool)
  /-- SCALE_TABLE_BASE_WRITE (R194): A write to LAP_SCALE_TABLE_BASE is accepted or ignored with 0x0306. -/
  | scaleTableBaseWrite (val : BitVec 64)
  /-- LAP_NEXT_WRITE (R198): A write to LAP_NEXT while Idle sets it and writes the scale tables for the next two laps. -/
  | lapNextWrite (val : BitVec 32)
  /-- LAP_REGION_CFG_WRITE (R200): A write to LAP_REGION_r_CFG registers or removes a region, or is ignored with 0x0609. -/
  | lapRegionCfgWrite (r : Nat) (val : BitVec 64)
  /-- LAP_REGION_BASE_WRITE (R201): A write to a region base is accepted only while Idle and the region is not valid. -/
  | lapRegionBaseWrite (r copy : Nat) (val : BitVec 64)
  /-- LAP_BASE_WRITE (R227): A write to LAP_RECORD_BASE or LAP_CLIP_BASE is accepted only while Idle and well placed. -/
  | lapBaseWrite (which : Nat) (val : BitVec 64)
  /-- UNSEAL (R208): A write of unseal to LAP_CTL clears the seal. -/
  | unseal (val : BitVec 32)
  /-- LAP_OPEN (R210): The LAP_OPEN descriptor checks a lap number and waits as a lap in flight. -/
  | lapOpen (h : Hdr) (lap : Nat)
  /-- LAP_OPEN_PROCEED (R211): An accepted open leaves its wait, writes the table, clears census and clip, sends the open and writes the record. -/
  | lapOpenProceed
  /-- LAP_BECOMES_WRITING (R205): Once its carry copies complete, a lap becomes Writing and ready_lap is written. -/
  | lapBecomesWriting
  /-- LAP_VOTE (R215): The LAP_VOTE descriptor waits until lap n is Writing. -/
  | lapVote (h : Hdr) (lap : Nat) (vote : Bool)
  /-- VOTE_CAST (R216): Once the lap's reporting writes and relays are done, the flags are sampled and the local vote is cast with the census exchange. -/
  | voteCast
  /-- LAP_ABORT (R220): The LAP_ABORT descriptor casts no for an open lap whose vote is not cast. -/
  | lapAbort (h : Hdr) (lap : Nat)
  /-- RELAY (R229): The RELAY descriptor posts a relay of kinds 0–5 to an engine. -/
  | relay (h : Hdr) (ext ed : Nat)
  /-- MIRROR (R257): The MIRROR descriptor posts a mirror relay of roles 0–2. -/
  | mirror (h : Hdr) (ext ed : Nat)
  /-- RESTORE (R260): The RESTORE descriptor posts a restore relay that writes copy 0 of the module's regions. -/
  | restore (h : Hdr) (ext ed : Nat)
  /-- RELAY_START (R234): A relay takes an engine slot, is checked, fixes its scale and layout binding, and sends ready batons. -/
  | relayStart (e : Nat)
  /-- RELAY_SEND (R237): On holding a participant's ready baton, the module converts, thins and sends its data to it. -/
  | relaySend (e slot part : Nat)
  /-- RELAY_PACKET_RECEIVE (R256): An arriving relay packet is matched by tag and lap, held, accepted or discarded with ingress frozen. -/
  | relayPacketReceive (l label : Nat) (a : Arrival) (p : RelayPkt)
  /-- CONTRIBUTION_LANDED (R241): A tally contribution is added at an adder or landing with saturation and the residue check. -/
  | contributionLanded (e slot : Nat)
  /-- RELAY_COMPLETE (R236): When every contribution has landed and every done baton returned, completion actions run and the relay completes. -/
  | relayComplete (e slot : Nat)
  /-- RELAY_TIMEOUT (R250): A relay reaches its timeout and records 0x0503, 0x0504 and COL_e_MISSING once. -/
  | relayTimeout (e slot : Nat)
  /-- RELAY_CANCEL (R251): A go to COL_e_CANCEL_CTL cancels the named relay or waiting post on this engine. -/
  | relayCancel (e : Nat) (val : BitVec 32)
  /-- LAYOUT_INSTALL (R254): The LAYOUT_INSTALL descriptor sets a pending layout id and waits for the old one to drain. -/
  | layoutInstall (h : Hdr) (id : Nat)
  /-- LAYOUT_INSTALL_COMPLETE (R254): When every lap and relay bound to the old id has ended, the new id becomes current. -/
  | layoutInstallComplete
  /-- COPY (R408): The COPY descriptor copies a range, refusing overlapping ranges. -/
  | copy (h : Hdr) (dst src len : Nat)
  /-- FILL (R408): The FILL descriptor writes an 8-byte pattern over a range. -/
  | fill (h : Hdr) (dst : Nat) (pat : BitVec 64) (len : Nat)
  /-- NOP_DESCRIPTOR (R405): The NOP descriptor completes at start. -/
  | nopDescriptor (h : Hdr)
  /-- FENCE_DESCRIPTOR (R405): The FENCE descriptor starts after every earlier descriptor of the queue has completed. -/
  | fenceDescriptor (h : Hdr)
  /-- LANE_PLAN_INSTALL (R327): The LANE_PLAN_INSTALL descriptor checks a lane plan and holds changing channels. -/
  | lanePlanInstall (h : Hdr) (addr : Nat)
  /-- LANE_PLAN_APPLY (R328): After draining and retuning, the new plan's tables take effect and changed channels reopen. -/
  | lanePlanApply (tuned : Bool)
  /-- COORD_ADOPT (R344): The COORD_ADOPT descriptor gives the module a coordinate and returns links to Identify. -/
  | coordAdopt (h : Hdr) (x y slot : Nat)
  /-- CABLING_PLAN_INSTALL (R338): The CABLING_PLAN_INSTALL descriptor replaces the cabling plan. -/
  | cablingPlanInstall (h : Hdr) (addr : Nat)
  /-- PACER_SET (R431): The PACER_SET descriptor elects or names the job's pacer. -/
  | pacerSet (h : Hdr) (mode coord : Nat)
  /-- LIGHT_DETECTED (R332): Light on a receive nib moves a Dark link to Lock. -/
  | lightDetected (l : Nat)
  /-- LINK_LIGHT_LOST (R332): Loss of every nib returns a link to Dark. -/
  | linkLightLost (l : Nat)
  /-- BRINGUP_TIMEOUT (R332): A link stuck in Lock, Align or Negotiate past its limit returns to Dark. -/
  | bringupTimeout (l : Nat)
  /-- BRINGUP_RETRY_TIMER (R332): A Dark link tries bring-up again after 100 ms, or every 1 s after repeated failures. -/
  | bringupRetryTimer (l : Nat)
  /-- NEGOTIATION (R333): A negotiation flit is received, and after the third round the outcome is computed. -/
  | negotiation (l : Nat) (n : Nego)
  /-- FEC_CHANGE (R333): At the superframe boundary after the third round, both sides switch to short FEC. -/
  | fecChange (l : Nat)
  /-- IDENTITY_BLOCK (R335): A peer's identity block is received and checked, bringing the link Up or to Quarantine. -/
  | identityBlock (l : Nat) (b : IdBlock)
  /-- IDENTITY_SEND_TIMER (R334): The module sends its identity block every 10 µs, or every 1 s in Quarantine. -/
  | identitySendTimer (l : Nat)
  /-- CHANNEL_OPEN (R329): A channel-open flit is received and the channel becomes Open or Refused. -/
  | channelOpen (l : C3Link) (job coord : Nat) (peer : PeerSlot)
  /-- CHANNEL_OPEN_TIMER (R329): An installed channel sends a channel-open flit every 100 µs, or retries a Refused open every 100 ms. -/
  | channelOpenTimer (e c : Nat)
  /-- MANAGEMENT_MESSAGE (R340): A management message flit is handed to the module's firmware. -/
  | managementMessage (l : C3Link) (data : List (BitVec 8))
  /-- TIME_MESSAGE (R433): A time message gives split timestamps, from which the module chooses its parent and steers or steps its counter. -/
  | timeMessage (l : C3Link) (m : TimeMsg)
  /-- LINK_ACK (R322): A link ack returns credits and acknowledges sequences, or as a nak triggers a resend. -/
  | linkAck (l seq : Nat) (nak : Bool) (c0 c1 c2 : Nat)
  /-- WRITE_PACKET (R324): A write packet passes the ingress checks and its data, and any post add, are performed. -/
  | writePacket (l label : Nat) (a : Arrival) (p : WritePkt)
  /-- PACKET_FORWARD (R330): A packet held for transit is sent on its egress channel once a credit is granted. -/
  | packetForward (e c cls : Nat)
  /-- PACKET_SEND (R321): A channel starts a packet of a class once it holds a credit. -/
  | packetSend (e c cls : Nat)
  /-- LINK_ACK_TIMER (R322): The receiver sends a link ack at least every 1 µs. -/
  | linkAckTimer (e c : Nat)
  /-- NAK_GAP_TIMEOUT (R323): A sequence gap lasting 2 µs makes the receiver send a nak. -/
  | nakGapTimeout (e c : Nat)
  /-- RESEND_TIMEOUT (R323): A sender with no progress for 4 µs resends from the oldest unacknowledged flit. -/
  | resendTimeout (e c : Nat)
  /-- FREEZE (R342): A freeze command makes the peer hold its C0–C2 packets on the link. -/
  | freeze (l reason : Nat)
  /-- THAW (R342): A thaw command releases the peer's held packets. -/
  | thaw (l : Nat)
  /-- PAUSE (R316): A pause command stops the named classes. -/
  | pause (l classes : Nat)
  /-- RESUME (R316): A resume command lets the named classes be sent again. -/
  | resume (l classes : Nat)
  /-- SPLIT_MARKER (R433): A split marker is timestamped on arrival for the split measurement. -/
  | splitMarker (l num : Nat)
  /-- NIB_LEAVE (R316): A nib leave stops the named transmit nib after the flit. -/
  | nibLeave (l nib : Nat)
  /-- NIB_JOIN (R316): A nib join starts the named transmit nib after the flit. -/
  | nibJoin (l nib : Nat)
  /-- FIBRE_HOLD (R356): A fibre hold stops every nib of the fibre and suspends the peer's retry timers. -/
  | fibreHold (f : Nat)
  /-- FIBRE_RESUME (R356): A fibre resume restarts the fibre after a hold. -/
  | fibreResume (f : Nat)
  /-- KEEPALIVE (R317): A keepalive sets the receiver's freeze and pause state for the link. -/
  | keepalive (l : Nat) (frozen : Bool) (classes : Nat)
  /-- KEEPALIVE_TIMER (R317): With no other command pending, the control nib sends keepalive at least every 1 µs. -/
  | keepaliveTimer (l : Nat)
  /-- FIBRE_THAW (R342): A thaw write to OPX_FIBRE_f_CTL thaws a link's ingress and sends thaw. -/
  | fibreThaw (f : Nat) (val : BitVec 64)
  /-- FIBRE_ADOPT (R336): An adopt write replaces the fibre's plan entry by its observation. -/
  | fibreAdopt (f : Nat) (val : BitVec 64)
  /-- FIBRE_RETRAIN (R336): A retrain write returns the named link to Dark. -/
  | fibreRetrain (f : Nat) (val : BitVec 64)
  /-- FIBRE_FREEZE (R316): A freeze write freezes the named link's ingress with reason 2. -/
  | fibreFreeze (f : Nat) (val : BitVec 64)
  /-- FIBRE_PAUSE (R316): A change of the pause field sends pause or resume to the peer. -/
  | fibrePause (f : Nat) (val : BitVec 64)
  /-- COMB_PRESENT_CHANGE (R350): LGT_CSM_s_PRSNT_N changes, making a source Absent or fitted. -/
  | combPresentChange (src : Nat) (high : Bool)
  /-- COMB_READY_CHANGE (R350): LGT_CSM_s_RDY changes the source state. -/
  | combReadyChange (src : Nat) (high : Bool)
  /-- COMB_FAULT_CHANGE (R358): LGT_CSM_s_FAULT_N changes; a fault of the active source switches every fibre to an eligible spare. -/
  | combFaultChange (src : Nat) (high : Bool)
  /-- LINE_POWER_SAMPLE (R351): Every 10 ms the edge die samples each line of each source. -/
  | linePowerSample (e src line : Nat) (power : Int)
  /-- LINE_MEAN_UPDATE (R353): Each 1 s mean sets the line's level and triggers amber, red or floor actions. -/
  | lineMeanUpdate (e src line : Nat)
  /-- SLOPE_UPDATE (R354): Each minute the slope of each line is fitted over the last 24 h. -/
  | slopeUpdate (e src line : Nat)
  /-- COMMISSION (R352): A commission write records P0 for a source or is refused. -/
  | commission (val : BitVec 32)
  /-- SPARE_START (R359): A spare_start write enables the spare source. -/
  | spareStart (val : BitVec 32)
  /-- SPARE_STOP (R358): A spare_stop write disables the spare unless a changeover is due or busy. -/
  | spareStop (val : BitVec 32)
  /-- SWITCH (R356): A switch write starts a changeover to the other source if it is eligible. -/
  | switch (val : BitVec 32)
  /-- LGT_THRESH_WRITE (R360): A write to LGT_THRESH is accepted or ignored with 0x080A. -/
  | lgtThreshWrite (val : BitVec 64)
  /-- CHANGEOVER_FIBRE_BEGIN (R356): A fibre of a changeover begins with fibre hold. -/
  | changeoverFibreBegin
  /-- CHANGEOVER_ACKS_DONE (R356): When acks cover the fibre's flits or 100 µs pass, the switch moves. -/
  | changeoverAcksDone
  /-- CHANGEOVER_RINGS_LOCKED (R357): When the rings relock or fail to, the fibre resumes on the new or old source. -/
  | changeoverRingsLocked (locked : Bool)
  /-- SOURCE_START_TIMEOUT (R359): A source not Ready within 60 s of EN is replaced by the other source. -/
  | sourceStartTimeout
  /-- RING_UNLOCK (R355): A ring whose lock error stays out of window for 10 µs is unlocked and its nib leaves. -/
  | ringUnlock (f nib : Nat) (tx : Bool)
  /-- RING_RELOCK (R355): A relocked ring rejoins with nib join or delivers again. -/
  | ringRelock (f nib : Nat) (tx : Bool)
  /-- READ (R371): A READ message requests bytes from a device address. -/
  | read (x : Nat) (m : SwlIn)
  /-- WRITE (R371): A WRITE message writes its payload at a device address. -/
  | write (x : Nat) (m : SwlIn)
  /-- ATOMIC (R371): An ATOMIC message performs an atomic at its target. -/
  | atomic (x : Nat) (m : SwlIn)
  /-- TALLY_ADD (R371): A TALLY_ADD message adds a 240-byte tally block with a residue check. -/
  | tallyAdd (x : Nat) (m : SwlIn)
  /-- READ_RESP (R371): A READ_RESP returns data or a status. -/
  | readResp (x : Nat) (m : SwlIn)
  /-- WRITE_ACK (R371): A WRITE_ACK reports a performed write. -/
  | writeAck (x : Nat) (m : SwlIn)
  /-- ATOMIC_RESP (R371): An ATOMIC_RESP returns the old value. -/
  | atomicResp (x : Nat) (m : SwlIn)
  /-- TALLY_ACK (R371): A TALLY_ACK reports a tally add. -/
  | tallyAck (x : Nat) (m : SwlIn)
  /-- PACKET (R378): A PACKET carries an optical packet or segment between edge dies. -/
  | packet (x : Nat) (m : SwlIn)
  /-- NOTICE (R371): A NOTICE carries a message between control processors and block logic. -/
  | notice (x : Nat) (m : SwlIn)
  /-- CREDIT (R372): A credit link-control flit returns buffer credits per virtual channel. -/
  | credit (x c0 c1 c2 c3 : Nat) (ack : Option Nat)
  /-- NAK (R373): A nak makes the sender resend every flit after the named sequence. -/
  | nak (x seq : Nat)
  /-- SWEYR_SPLIT_MARKER (R430): A Sweyr split-marker flit keeps die time counters aligned. -/
  | sweyrSplitMarker (x ns frac : Nat)
  /-- SWEYR_ACK_TIMER (R373): An ack is sent at least every 100 ns. -/
  | sweyrAckTimer (x : Nat)
  /-- SWEYR_CREDIT_TIMER (R372): The receiver returns credits at least every 100 ns. -/
  | sweyrCreditTimer (x : Nat)
  /-- SWEYR_RESEND_TIMEOUT (R373): With no ack progress for 1 µs the sender resends from the oldest flit. -/
  | sweyrResendTimeout (x : Nat)
  /-- CAP (R377): A CAP frame delivers the peer's capability block for negotiation. -/
  | cap (x : Nat) (blk : List (BitVec 8))
  /-- CAP_ACK (R379): A CAP_ACK confirms the capability exchange. -/
  | capAck (x : Nat)
  /-- CAP_RESEND_TIMER (R379): Each end sends CAP every 10 µs until acknowledged. -/
  | capResendTimer (x : Nat)
  /-- TRAIN_REQ (R379): A TRAIN_REQ makes the transmitter send PRBS-23 on all lanes. -/
  | trainReq (x rate : Nat)
  /-- LANE_TEST_DONE (R379): At the end of the pattern the receiver tests each lane, excludes failures and chooses the width. -/
  | laneTestDone (x : Nat) (pass : BitVec 64)
  /-- LANE_RESULT (R379): A LANE_RESULT frame delivers the peer's lane pass mask. -/
  | laneResult (x : Nat) (pass : BitVec 64)
  /-- WIDTH_CHECK (R382): A WIDTH_CHECK word is compared, going Active or retraining on a mismatch. -/
  | widthCheck (x : Nat) (word : BitVec 64)
  /-- ACTIVE (R379): An ACTIVE frame ends training and flits begin. -/
  | active (x : Nat)
  /-- RESET_NOTICE (R383): A RESET_NOTICE makes the staying end discard its trained state and enter Reset. -/
  | resetNotice (x : Nat)
  /-- RETRAIN_REQ (R379): A RETRAIN_REQ starts a retrain that keeps sequences and replay stores. -/
  | retrainReq (x : Nat)
  /-- TIME (R430): A TIME sideband frame carries fabric time on links below version 1.2. -/
  | time (x ns frac : Nat)
  /-- MGMT (R375): A MGMT sideband frame carries boot and firmware transfers. -/
  | mgmt (x : Nat) (data : List (BitVec 8))
  /-- FORWARDED_CLOCK_LOSS (R383): Loss of the peer's forwarded clock for 1 µs is treated as a peer reset. -/
  | forwardedClockLoss (x : Nat)
  /-- ARB_PRIORITY_WRITE (R386): A write to an arbiter priority register may revoke the current grant. -/
  | arbPriorityWrite (a : Arb) (val : BitVec 64)
  /-- ARBITER_WATCHDOG (R387): A holder stuck for 4,096 cycles resets the arbiter, discards its message and freezes its source. -/
  | arbiterWatchdog (a : Arb)
  /-- SWL_RETRAIN (R379): A retrain write to SWL_L_CTL requests a retrain, or full training from Down. -/
  | swlRetrain (x : Nat) (val : BitVec 32)
  /-- SWL_RELEARN (R380): A relearn write clears exclusions and fallback and runs full training. -/
  | swlRelearn (x : Nat) (val : BitVec 32)
  /-- SWL_DISABLE (R393): A disable write holds a link in Reset, refused for the last module of a pair. -/
  | swlDisable (x : Nat) (val : BitVec 32)
  /-- CXL_LINK_TRAIN (R396): The CXL port trains, running degraded below 32 GT/s or without cache or mem. -/
  | cxlLinkTrain (width speed : Nat) (cache mem : Bool)
  /-- QUEUE_INSTALL_GO (R402): A go to HIF_QUEUE_INSTALL_CTL reads queue records and defines or removes queues. -/
  | queueInstallGo (val : BitVec 32)
  /-- QUEUE_ENABLE (R403): An enable write moves a Disabled queue to Running. -/
  | queueEnable (q : Nat) (val : BitVec 64)
  /-- QUEUE_DISABLE (R403): A disable write moves a queue to Stopping and cancels its waiting descriptors. -/
  | queueDisable (q : Nat) (val : BitVec 64)
  /-- QUEUE_RESUME (R403): A resume write returns a Frozen queue to Running. -/
  | queueResume (q : Nat) (val : BitVec 64)
  /-- QUEUE_STOPPED (R403): When no descriptor of a Stopping queue is in flight, it becomes Disabled. -/
  | queueStopped (q : Nat)
  /-- SUBMISSION_TAIL_DOORBELL (R413): A submission tail write lets the queue fetch up to the new tail. -/
  | submissionTailDoorbell (q : Nat) (val : BitVec 32)
  /-- COMPLETION_HEAD_DOORBELL (R413): A completion head write frees completion slots. -/
  | completionHeadDoorbell (q : Nat) (val : BitVec 32)
  /-- DESCRIPTOR_FETCH (R405): A Running queue fetches and starts its next descriptor in turn under its start rule. -/
  | descriptorFetch (q : Nat) (good : Bool)
  /-- COMPLETION_WRITE (R410): A completed descriptor's entry is written into a free completion slot and the vector signalled. -/
  | completionWrite (q : Nat)
  /-- EMERGENCY_HALT (R415): A halt write, or the MCTP command, freezes links, halts runners and cancels relays. -/
  | emergencyHalt (val : BitVec 32)
  /-- EMERGENCY_RELEASE (R416): A release write clears active when done reads 1. -/
  | emergencyRelease (val : BitVec 32)
  /-- MAILBOX_POST (R418): A tag write posts a notice on a private channel, or is ignored when full. -/
  | mailboxPost (sender receiver : Nat) (ptr : BitVec 64) (tag : BitVec 32)
  /-- LEGACY_POST (R419): A tag write posts a notice to a legacy mailbox, replacing an untaken one. -/
  | legacyPost (sender receiver : Nat) (ptr : BitVec 64) (tag : BitVec 32)
  /-- MAILBOX_TAG_READ (R418): A receiver's read of the tag word takes the notice and clears full. -/
  | mailboxTagRead (receiver sender : Nat)
  /-- MAILBOX_STATE_CLEAR (R421): A clear write returns an aborted or overwritten sender state to empty. -/
  | mailboxStateClear (sender receiver : Nat) (legacy : Bool)
  /-- MAILBOX_READ (R471): The MCTP MAILBOX_READ command returns party 1's mailboxes and doorbells. -/
  | mailboxRead
  /-- OSC_A_LOSS (R426): A die that loses OSC-A switches to OSC-B within 1 µs. -/
  | oscALoss (d : Nat)
  /-- BOTH_REF_LOSS (R443): A die that loses both references for 1 µs records 0x0B02 and enters die warm reset. -/
  | bothRefLoss (d : Nat)
  /-- ADAPTIVE_CLOCK_ADJUST (R425): An island's generator lowers or raises its clock as its replica delay changes. -/
  | adaptiveClockAdjust (island khz : Nat)
  /-- RATE_THROTTLE (R428): A sensor rise faster than rate over 50 µs sets rung 4. -/
  | rateThrottle (d : Nat) (temp : Int)
  /-- HOT_THROTTLE (R428): While a sensor reads hot, the rung rises one step each 100 µs. -/
  | hotThrottle (d : Nat) (r : Reading)
  /-- CEILING_THROTTLE (R428): While the 10 ms input mean exceeds 98 % of the ceiling, every die's rung rises each 200 µs. -/
  | ceilingThrottle (watts : Nat)
  /-- SUPPLY_LOW (R428): 50 V below 44 V for 1 ms sets rung 4 on every compute die. -/
  | supplyLow (volts : Nat)
  /-- THROTTLE_RELEASE (R428): Once a cause clears, its rung is lowered one step per interval. -/
  | throttleRelease (d cause : Nat)
  /-- THERMTRIP (R429): A sensor at 115 °C trips its die into warm reset and asserts THERMTRIP_N. -/
  | thermtrip (d : Nat) (r : Reading)
  /-- THERMTRIP_RESUME (R429): A tripped die whose sensors reach resume leaves reset. -/
  | thermtripResume (d : Nat) (temp : Int)
  /-- SPLIT_MEASURE (R433): Every 1 ms each level-1.2 link sends a split marker and a time message. -/
  | splitMeasure (l : Nat)
  /-- PPS_IN_EDGE (R438): A PPS_IN edge on the pacer locks, steers or is ignored. -/
  | ppsInEdge (ns : Nat)
  /-- PPS_IN_TIMEOUT (R438): 1.5 s without an edge puts the pacer in Holdover. -/
  | ppsInTimeout
  /-- PPS_OUT_RISE (R436): TIM_PPS_OUT rises when fabric time crosses each second. -/
  | ppsOutRise
  /-- TOD_FRAME_SEND (R437): A time-of-day frame is sent 10 ms after each PPS_OUT rise. -/
  | todFrameSend
  /-- TIM_SET (R439): A TIM_SET write steps the pacer's time, or is refused elsewhere. -/
  | timSet (val : BitVec 64)
  /-- TIM_NOW_READ (R430): A 64-bit read of TIM_NOW returns a consistent time and latches the fraction. -/
  | timNowRead
  /-- COLD_RESET (R440): Power-on or supply loss returns the whole module to its cold state. -/
  | coldReset
  /-- MODULE_WARM_RESET (R440): PERST_N, hot reset, an ED0 failure or PWR_RESET_CTL bit 16 resets every die with LPDDR6 in self-refresh. -/
  | moduleWarmReset (cause : Nat)
  /-- DIE_WARM_RESET (R441): A die enters warm reset, notifies its links and peers, and zeroes its SRAM. -/
  | dieWarmReset (d cause : Nat)
  /-- DIE_RESET_READY (R441): A die in warm reset retrains and admits accesses again, recording 0x0C09. -/
  | dieResetReady (d : Nat)
  /-- JOB_RESET (R445): The job bit of PWR_RESET_CTL clears the state of the job. -/
  | jobReset
  /-- CORE_RESET (R446): A go to PWR_CORE_RESET frees the core's runners and zeroes its state. -/
  | coreReset (val : BitVec 32)
  /-- CORE_RESET_COMPLETE (R446): A core reset completes and busy clears. -/
  | coreResetComplete
  /-- PARK_REQUEST (R448): A park request saves fields, applies repairs, gates dies, or is refused. -/
  | parkRequest
  /-- DEEP_PARK_REQUEST (R448): A deep park request also turns the comb off and gates ED1–ED3, or is refused. -/
  | deepParkRequest
  /-- ACTIVE_REQUEST (R449): A request for active powers the dies and restores saved fields. -/
  | activeRequest
  /-- PARK_EXIT_COMPLETE (R449): The exit completes when every die admits accesses. -/
  | parkExitComplete
  /-- SUPPLY_LOSS (R477): 50 V below 40 V for 1 ms outside deep park causes a cold reset. -/
  | supplyLoss (volts : Nat)
  /-- INPUT_OVERVOLTAGE (R477): 50 V above 58 V for 1 s records 0x0C0A. -/
  | inputOvervoltage (volts : Nat)
  /-- INPUT_SWITCH_OPEN (R477): 50 V above 60 V for 10 µs opens the input switch. -/
  | inputSwitchOpen (volts : Nat)
  /-- INPUT_SWITCH_RECLOSE (R477): After 1 s within range the input switch recloses and power-up follows. -/
  | inputSwitchReclose (volts : Nat)
  /-- AUX_LOST (R477): 12 V auxiliary below 11 V for 1 ms records 0x0C0B, or causes cold reset in deep park. -/
  | auxLost (volts : Nat)
  /-- POWER_UP (R479): Once every rail is in regulation, PWRGD goes high. -/
  | powerUp
  /-- REFRESH (R290): The controller refreshes each bank in turn. -/
  | refresh (d ch bank : Nat)
  /-- PIN_CHECK (R290): Every 10 ms the controller checks every DQ pin and resets the die on a dead pin. -/
  | pinCheck (d ch pin : Nat) (good : Bool)
  /-- PATROL_SCRUB_READ (R299): The scrub reads and corrects storage at its configured rate. -/
  | patrolScrubRead (d : Nat) (upset : Upset) (passEnd : Bool)
  /-- BOOT (R456): At power-on or the end of PERST_N, the ROM checks the image and boot proceeds to ready. -/
  | boot (fails : List (Nat × Nat))
  /-- PROCESSOR_START_TIMEOUT (R458): A control processor not running 2 s after release is retried, then its die is held in reset. -/
  | processorStartTimeout (d : Nat)
  /-- WATCHDOG_EXPIRY (R460): A control processor's watchdog expires and its die enters warm reset. -/
  | watchdogExpiry (d : Nat)
  /-- FIRMWARE_UPDATE (R461): A go to SEC_FW_CTL starts copying and checking a new image. -/
  | firmwareUpdate (val : BitVec 32)
  /-- FIRMWARE_UPDATE_COMPLETE (R461): The slot write and readback finish, with status done or failed. -/
  | firmwareUpdateComplete (good : Bool)
  /-- REQUEST_UPDATE (R472): A PLDM RequestUpdate starts an update by the management controller. -/
  | requestUpdate (image : List (BitVec 8))
  /-- RECOVERY_LOAD (R464): A load write copies the recovery window into the staging buffer. -/
  | recoveryLoad (val : BitVec 32)
  /-- RECOVERY_COMMIT (R464): A commit write checks and writes the recovery image, then resets. -/
  | recoveryCommit (val : BitVec 32)
  /-- SVN_ADVANCE (R455): An advance write burns the fused SVN up to the image svn or is refused. -/
  | svnAdvance (val : BitVec 32)
  /-- DEBUG_TOKEN_PRESENT (R470): A go to SEC_DEBUG_TOKEN checks a token and arms debug unlock. -/
  | debugTokenPresent (val : BitVec 64)
  /-- SETDASA (R471): SETDASA assigns the endpoint its I3C dynamic address. -/
  | setdasa (addr : Nat)
  /-- SET_COORD (R339): The MCTP SET_COORD command sets the coordinate in assigned mode. -/
  | setCoord (coord : Nat)
  /-- FORCE_RECOVERY (R463): The MCTP FORCE_RECOVERY command sets force_recovery. -/
  | forceRecovery
  /-- GET_STATUS (R471): The MCTP GET_STATUS command returns boot, lap and power status. -/
  | getStatus
  /-- GET_VERSION (R467): The SPDM GET_VERSION request returns the supported versions. -/
  | getVersion (tr : Nat)
  /-- GET_CAPABILITIES (R467): The SPDM GET_CAPABILITIES request returns the capabilities. -/
  | getCapabilities (tr : Nat)
  /-- NEGOTIATE_ALGORITHMS (R467): The SPDM NEGOTIATE_ALGORITHMS request fixes the algorithms. -/
  | negotiateAlgorithms (tr : Nat)
  /-- GET_DIGESTS (R467): The SPDM GET_DIGESTS request returns certificate chain digests. -/
  | getDigests (tr : Nat)
  /-- GET_CERTIFICATE (R466): The SPDM GET_CERTIFICATE request returns a certificate chain. -/
  | getCertificate (tr slot off len : Nat)
  /-- CHALLENGE (R468): The SPDM CHALLENGE request returns a dual-signed CHALLENGE_AUTH. -/
  | challenge (tr slot : Nat) (nonce : List (BitVec 8))
  /-- GET_MEASUREMENTS (R468): The SPDM GET_MEASUREMENTS request returns signed measurements. -/
  | getMeasurements (tr idx : Nat) (sign : Bool) (nonce : List (BitVec 8))
  /-- NUMERIC_SENSOR_READ (R473): A PLDM monitoring request returns a sensor reading. -/
  | numericSensorRead (id : Nat)
  /-- SENSOR_REFRESH (R473): Every 100 ms the PLDM sensors are refreshed from their registers. -/
  | sensorRefresh
  /-- WATCH_WRITE (R499): A write to ERR_WATCH_i_CFG sets a watch or is ignored with 0x0A41. -/
  | watchWrite (n : Nat) (val : BitVec 64)
  /-- WATCH_WINDOW_CLOSE (R499): A watch window ends after its seconds and clears the count. -/
  | watchWindowClose (n : Nat)
  /-- CORE_ILLEGAL_INSTRUCTION (R79): A bundle with a reserved opcode, fmt 3 or another illegal encoding reaches issue and freezes its runner with 0x0101. -/
  | coreIllegalInstruction (w : Nat) (bundle : BitVec 128)
  /-- NIB_LOCK (R332): A nib becomes locked both ways during bring-up, moving the link from Lock to Align. -/
  | nibLock (l nib : Nat)
  /-- FLIT_DELINEATION (R311): The receiver finds and confirms flit boundaries on a nib, moving the link from Align to Negotiate or resuming after an FEC change. -/
  | flitDelineation (l : Nat) (heard : HeardNib)
  /-- NEGOTIATION_ROUND (R333): Every 10 µs a side sends its next round of negotiation flits, up to round 3. -/
  | negotiationRound (l : Nat)
  /-- FLIT_CRC_FAIL (R315): An optical flit that fails CRC or has a reserved type or class arrives, is discarded whole and counted, and may lead to a nak. -/
  | flitCrcFail (f : HeardFlit)
  /-- SWEYR_CRC_FAIL (R373): A Sweyr flit that fails CRC, has a reserved type or arrives out of sequence is discarded and one nak is sent. -/
  | sweyrCrcFail (f : SwlHeard)
  /-- GENERATOR_LOAD_COMPLETE (R164): A core's restore of its lane generators after an abort completes, releasing runners waiting with cause 2. -/
  | generatorLoadComplete (k : Nat)
  /-- RESEED_COMPLETE (R165): Every core of the die has been reseeded and busy in CMP_VEC_GEN_CTL clears. -/
  | reseedComplete (d : Nat)
  /-- REFERENCE_RESTORED (R443): A reference clock has been present for 10 ms at a die held in reset by clock loss, so the die may leave reset. -/
  | referenceRestored (d : Nat)
  /-- AUX_RESTORED (R477): The 12 V auxiliary input returns to range with 50 V present, re-arming the 0x0C0B record. -/
  | auxRestored (volts : Nat)
  /-- PARK_ENTRY_COMPLETE (R448): Entry to park or deep park finishes, the state becomes Park or Deep park and status becomes done. -/
  | parkEntryComplete
  /-- SET_ENDPOINT_ID (R471): An MCTP control message from the bus owner assigns the module's endpoint id. -/
  | setEndpointId (eid : Nat)
  deriving DecidableEq, Repr

end Sys2Proof
end

