-- ==== Sys2Proof/Decode.lean ====
section
/-! DEFINITION. Commands spelt as words. The spec's table gives no row any bits: a command reaches the block as itself, so no word spells one. -/

namespace Sys2Proof

/-- The command that a word of the table's bits spells: none, since spec/opcode_table.json gives no row bits. -/
def decodeTableWord (_nbits _w : Nat) : Option Instr := none

end Sys2Proof
end

