-- ==== Sys2Proof/Config.lean ====
section
/-! DEFINITION. What the spec leaves open or leaves to a part: free values, cryptographic functions, fused secrets. Each is a constant without
a body, so nothing can be proved of its value. -/

namespace Sys2Proof.Config

/-- The n-th free value the model takes: baton values (R90), launch ids (R85), the CYCLES register (R85), nonces (R470). -/
opaque freeValue : Nat → BitVec 64

/-- The result candidate of an approximate function (R146, R147): function code, element type and operand bits. It is used only where it lies
within the error the spec allows. -/
opaque approx : Nat → Nat → BitVec 32 → BitVec 32

/-- The stored type of the tensor that a census slot of kind 0 counts stores of (Table 6.3): 0 FP8 E4M3, 1 FP4 E2M1, 2 a BF16 master. -/
opaque weightType : Nat → Fin 3

/-- What a SECDED code of 39 or 13 bits makes of three or more inverted bits (R295 to R297), from the mask: uncorrectable, or taken for a word, with
whether it counts as corrected and what its data differs by. -/
opaque secdedMany : Nat → Nat → Option (Bool × BitVec 32)

/-- The storage row of an SRAM address (R300, R304): the part's own layout. -/
opaque sramRow : Nat → Nat

/-- SHA-384. -/
opaque sha384 : List Byte → BitVec 384

/-- HMAC-SHA-384 (R465): key and message. -/
opaque hmac384 : List Byte → List Byte → BitVec 384

/-- HKDF-SHA-384 (R465): key and info string, giving a 32-byte seed. -/
opaque hkdf384 : List Byte → List Byte → BitVec 256

/-- Ed25519 verification (R454): public key, message, signature. -/
opaque ed25519Verifies : List Byte → List Byte → List Byte → Bool

/-- ML-DSA-65 verification (R454): public key, message, signature. -/
opaque mldsaVerifies : List Byte → List Byte → List Byte → Bool

/-- An Ed25519 signature (R468) by the key of a seed. -/
opaque ed25519Sign : BitVec 256 → List Byte → List Byte

/-- An ML-DSA-65 signature (R468) by the key of a seed. -/
opaque mldsaSign : BitVec 256 → List Byte → List Byte

/-- The four fused hashes of image signing keys (R455). -/
opaque keyHash : Nat → BitVec 384

/-- The fused hash of the debug authority's keys (R470). -/
opaque debugHash : BitVec 384

/-- The Unique Device Secret (R465). -/
opaque deviceSecret : BitVec 256

/-- The certificates of a chain that the SPI NOR holds (R466): scheme, giving product CA and DeviceID certificates. -/
opaque storedCerts : Nat → List Byte

/-- The Alias certificate formed at boot (R466): scheme, the seed of the DeviceID key that issues it, the seed of the Alias key, and the measurements. -/
opaque aliasCert : Nat → BitVec 256 → BitVec 256 → List Byte → List Byte

/-- The receive buffer, in flits, that a die advertises for a Sweyr virtual channel (R372), and its product code (Table 13.10). -/
opaque sweyrBuffer : Nat → Nat
opaque productCode : Nat

end Sys2Proof.Config
end

