-- ==== Sys2Proof/Machine/PartsCore.lean ====
section
/-! DEFINITION. The parts of the state that belong to the cores, to main memory's windows and accesses, and to the blotter:
plain data only. -/

namespace Sys2Proof.Machine

/-- What raises a blotter record: every field of Table 18.1 that the raiser supplies. `cont` is byte 2 of the record, `die` the
source die (255 for the module), `detail` bytes 32 to 47 as a little-endian number. -/
structure Err where
  code : Nat
  cont : Nat := 0
  die : Nat := 16
  mkind : Nat := 0
  midx : Nat := 0
  lap : Nat := 0
  addr : Nat := 0
  detail : Nat := 0
  deriving DecidableEq, Repr

/-- A blotter record in the ring (R492): what was raised, its sequence number and its fabric time. -/
structure Record where
  err : Err
  seq : Nat
  time : Nat
  deriving DecidableEq, Repr

/-- The blotter beside its registers (R495, R496): the ring by index, the records made in the current second by
(die, code), and the indices of records whose blotter event has not yet been written to the host. -/
structure Blotter where
  ring : Tab Record
  second : Nat
  supp : Tab Nat
  events : List Nat
  deriving DecidableEq, Repr

/-- One address window (Table 2.5). `granting` names the descriptor whose completion entry puts it in force (R54). `revoking` is set while a revoke waits for
accesses already admitted, with the descriptors that wait for it. -/
structure Window where
  base : Nat
  len : Nat
  rights : Nat
  holder : Nat
  queue : Nat
  granting : Option Nat
  revoking : Bool
  waiters : List Nat
  deriving DecidableEq, Repr

/-- The states of a runner (Table 3.3). -/
inductive RState where
  | free | ready | waiting | halted | frozen
  deriving DecidableEq, Repr

/-- A register an instruction can name: scalar, address, predicate, vector, mask, tile, and the lane generators. -/
inductive RegName where
  | s (n : Nat) | a (n : Nat) | p (n : Nat) | v (n : Nat) | m (n : Nat) | t (n : Nat) | gen
  deriving DecidableEq, Repr

/-- What holds a runner's next bundle (Table 3.5). -/
inductive Wait where
  /-- Cause 1: a register of the bundle awaits an earlier write. -/
  | source (regs : List RegName)
  /-- Cause 1: a transfer record awaits the runner's earlier accesses to it. -/
  | operand (ids : List Nat)
  /-- Cause 2: the core's array queue is full. -/
  | arrayFull
  /-- Cause 2: the core's data mover holds 32 transfers. -/
  | moverFull
  /-- Cause 2: a restored generator state is still being loaded (R164). -/
  | genLoad
  /-- Cause 3: a fence holds the runner until the accesses and transfers named have been performed. -/
  | fence (ids : List Nat)
  /-- Cause 4: the runner has arrived at a hurdle and awaits its release. -/
  | hurdle
  /-- Cause 5: BWAIT on a baton. -/
  | baton (b : Nat)
  /-- Cause 6: HPOST awaits a heat table entry. -/
  | heatPost
  /-- Cause 6: HNEXT awaits a pair. -/
  | heatNext
  /-- Cause 7: DMWAIT on the transfers named. -/
  | transfers (ids : List Nat)
  /-- Cause 8: MWAIT on the array operations named. -/
  | arrayOps (ids : List Nat)
  /-- Cause 10: the engine of edge die `e` has 1,024 posts waiting (R95). -/
  | posts (e : Nat)
  deriving DecidableEq, Repr

/-- A baton a runner holds (R90): its value, the relay post it stands for, and the completion status once the relay is done. -/
structure Baton where
  value : Nat
  relay : Nat
  status : Option Nat
  deriving DecidableEq, Repr

/-- A runner (Table 3.1, Table 3.12): its state, its halted cause, what holds its next bundle, registers, and counters. `cycles` is its CYCLES as last read. `ending` is
set from its exit or kill until it is Free (R71); `stepArm` while one step is owed (R103); `issued` is the core's issue number of its latest bundle, 0 for none since launch (R72). -/
structure Runner where
  state : RState
  cause : Nat
  wait : Option Wait
  s : Tab Word
  a : Tab Word
  p : Nat
  pc : Nat
  arg : Word
  launch : Nat
  launchId : Word
  cycles : Nat
  census : Nat
  censusLap : Nat
  dmNext : Nat
  batons : List Baton
  given : Option Nat
  posted : Bool
  stepArm : Bool
  stepIssued : Bool
  ending : Bool
  issued : Nat
  deriving DecidableEq, Repr

/-- How a census-counted store is to be counted (R94, R189): slot and lap, both read at issue. -/
structure Counted where
  slot : Nat
  lap : Nat
  type : Nat
  deriving DecidableEq, Repr

/-- The operations of Table 2.7. -/
inductive AtomOp where
  | add | min | minu | max | maxu | swap | cas | fadd
  deriving DecidableEq, Repr

/-- The lap block as an access or drain was admitted (R207, R215): the lap that was Writing, the laps that were open, and whether the lap block was Idle. -/
structure LapSeen where
  writing : Option Nat
  opened : List Nat
  idle : Bool
  deriving DecidableEq, Repr

/-- What an access in flight does when it is performed. Store data and operands were read at issue (R78). -/
inductive AccKind where
  | load (rd size : Nat) (signed : Bool)
  | store (data : List Byte)
  | atomic (op : AtomOp) (size : Nat) (operand compare : Word) (rd : Nat)
  | copyIn (dest : Nat)
  deriving DecidableEq, Repr

/-- An admitted access that has not been performed (R52, R57): the runner, its PC, the byte ranges, the windows that admit it, and
the lap block as it stood then (R207). Numbers `id` rise in issue order. -/
structure Access where
  id : Nat
  runner : Nat
  pc : Nat
  kind : AccKind
  chunks : List (Nat × Nat)
  wins : List Nat
  seen : LapSeen
  counted : Option Counted
  writes : Bool
  deriving DecidableEq, Repr

/-- A data-mover transfer (R93): rows of `rowBytes` bytes from `src` to `dst`, or a fill when `pat` holds the pattern. -/
structure Transfer where
  id : Nat
  runner : Nat
  pc : Nat
  tag : Nat
  src : Nat
  dst : Nat
  rows : Nat
  rowBytes : Nat
  sstr : Int
  dstr : Int
  pat : Option Word
  wins : List Nat
  seen : LapSeen
  counted : Option Counted
  deriving DecidableEq, Repr

/-- What a queued array operation does (Table 3.14). -/
inductive ArrKind where
  | mmac (addrA addrB steps tyA tyB tile : Nat) (clear : Bool)
  | setp (interval : Nat)
  | scale (sa sb : BitVec 32) (tile : Nat)
  | drain (dest : Nat) (c : Option (BitVec 32)) (ty rnd tile : Nat) (draws : List (BitVec 32)) (counted : Option Counted)
  | zero (tile : Nat)
  deriving DecidableEq, Repr

/-- A queued array operation (R125); `done` counts the K-steps performed. -/
structure ArrOp where
  id : Nat
  runner : Nat
  pc : Nat
  kind : ArrKind
  done : Nat
  wins : List Nat
  seen : LapSeen
  deriving DecidableEq, Repr

/-- One accumulator tile's matrix control and partials (R115, R117, R121). An empty list of partials is all zero. -/
structure TileCtl where
  integer : Bool
  pending : Nat
  fp : List (BitVec 20)
  ip : List (BitVec 32)
  sa : BitVec 32
  sb : BitVec 32
  deriving DecidableEq, Repr

/-- What a core does at its next bundle boundary for a lap (R163, R164, R165). -/
inductive Boundary where
  | snapshot (lap : Nat)
  | restore (lap : Nat)
  | reseed
  deriving DecidableEq, Repr

/-- The shared state of a core (Table 3.2) beside its registers in BAR0, tiles and vector registers (which have addresses). `snaps` holds, for each snapshot copy that is being
written, the lap whose block this core has put there (R163). -/
structure Core where
  masks : Tab (BitVec 1024)
  genSeed : Word
  gens : Tab (BitVec 128)
  interval : Nat
  tiles : Tab TileCtl
  array : List ArrOp
  mover : List Transfer
  odrain : Option ArrOp
  held : List Nat
  lap : Nat
  snaps : Tab Nat
  boundary : List Boundary
  loading : Bool
  stepDone : Bool
  issues : Nat
  deriving DecidableEq, Repr

/-- A hurdle (R89): its generation, the arrivals and the count the first of them fixed, whether a mismatch has been
recorded in this generation, and the runners that wait. -/
structure Hurdle where
  gen : Nat
  arrived : Nat
  need : Nat
  mismatch : Bool
  waiting : List Nat
  deriving DecidableEq, Repr

/-- A die's program store (R97): its entry points and its bundles. -/
structure Prog where
  entries : List Nat
  bundles : List (BitVec 128)
  deriving DecidableEq, Repr

/-- One core's share of a LAUNCH (R99): `since` numbers the order in which shares began to wait. -/
structure Share where
  launch : Nat
  core : Nat
  n : Nat
  entry : Nat
  arg : Word
  stalled : Bool
  timeout : Nat
  deriving DecidableEq, Repr

/-- A LAUNCH that has not completed (R101): its descriptor, its LAUNCH_ID, the mask of the dies it names, and the runners of it that are not yet Free again. -/
structure Launch where
  id : Nat
  desc : Nat
  lid : Word
  notify : Bool
  dies : Nat
  runners : List Nat
  deriving DecidableEq, Repr

/-- A HALT_RUNNERS that has not completed (R502): its descriptor, the named runners that have not reached their state, and the action. -/
structure HaltReq where
  desc : Nat
  runners : List Nat
  action : Nat
  deriving DecidableEq, Repr

end Sys2Proof.Machine
end

