-- ==== Sys2Proof/Machine/PartsHost.lean ====
section
/-! DEFINITION. The parts of the state that belong to the host attachment: queues, descriptors and mailboxes. -/

namespace Sys2Proof.Machine

/-- The states of a queue (Table 14.4), coded 0 to 4. -/
inductive QState where
  | absent | disabled | running | frozen | stopping
  deriving DecidableEq, Repr

/-- A queue (R401, R403, Tables 14.16 and 14.17): its record, its state, its indices, and how it last froze. -/
structure Queue where
  state : QState
  sqBase : Nat
  cqBase : Nat
  sqLog : Nat
  cqLog : Nat
  vector : Nat
  priv : Bool
  intEn : Bool
  sqHead : Nat
  sqTail : Nat
  cqHead : Nat
  cqTail : Nat
  phase : Bool
  freezeCode : Nat
  freezeIndex : Nat
  deriving DecidableEq, Repr

/-- A descriptor started and not complete (R405): its number, queue, submission index, tag, irq bit, opcode, and whether its start rule is C. -/
structure Desc where
  id : Nat
  q : Nat
  index : Nat
  tag : BitVec 32
  irq : Bool
  op : Nat
  deriving DecidableEq, Repr

/-- A completed descriptor whose entry has not been written to the completion ring (R410). `result` holds bytes 16 to 63. -/
structure Entry where
  desc : Desc
  status : Nat
  code : Nat
  result : List Byte
  deriving DecidableEq, Repr

/-- One private channel or legacy mailbox (R417 to R421): the notice held. -/
structure Mailbox where
  ptr : BitVec 64
  tag : BitVec 32
  sender : Nat
  full : Bool
  collision : Bool
  senderReset : Bool
  deriving DecidableEq, Repr

/-- A sender's view of a channel (Table 14.25 and R421): the pointer and tag it last posted there and the state: 0 empty, 1 full,
2 aborted, 3 overwritten, as that table codes it. -/
structure SendState where
  ptr : BitVec 64
  tag : BitVec 32
  state : Nat
  deriving DecidableEq, Repr

/-- All mailbox state (R417). Channels and sender states are keyed sender * 32 + receiver; legacy mailboxes by receiver, legacy sender states by
sender * 32 + receiver; doorbells by party. `inReset` lists the parties whose die is in reset. -/
structure Mbx where
  chan : Tab Mailbox
  legacy : Tab Mailbox
  sent : Tab SendState
  sentLegacy : Tab SendState
  bells : Tab (BitVec 32)
  masks : Tab (BitVec 32)
  deriving DecidableEq, Repr

/-- The host side beside its registers: queues, descriptors started, entries not yet written in the order they completed, lines of host memory held Shared
in the ring cache (R395), mailboxes, and the queue that last started a descriptor (R405: queues take turns). -/
structure HostSide where
  queues : Tab Queue
  descs : List Desc
  entries : List Entry
  ringCache : List Nat
  mbx : Mbx
  served : Nat
  deriving DecidableEq, Repr

end Sys2Proof.Machine
end

