-- ==== Sys2Proof/Machine/PartsLap.lean ====
section
/-! DEFINITION. The parts of the state that belong to the lap block, the census and the scale logic. -/

namespace Sys2Proof.Machine


/-- A LAP_OPEN accepted and waiting (R210, R211): `wipes` is the count of wipes when it was accepted. -/
structure OpenReq where
  desc : Nat
  lap : Nat
  wipes : Nat
  timeout : Nat
  stalled : Bool
  deriving DecidableEq, Repr

/-- A LAP_VOTE or LAP_ABORT waiting for its lap (R215, R220). -/
structure VoteReq where
  desc : Nat
  lap : Nat
  vote : Bool
  abort : Bool
  deriving DecidableEq, Repr

/-- What the commit relay carries (R191): the vote, each slot's top exponent (slot, exponent) where not empty, and the offending-kind mask. -/
structure Exchange where
  vote : Bool
  tops : List (Nat × Int)
  mask : Nat
  deriving DecidableEq, Repr

/-- An open lap (R212, R216): its number, its flags (Table 7.6), the vote once cast, the address of the first report that set a flag (R214), the layout it is bound to (R253); whether a
tally saturation of R130 or R148 was reported in it, the base of its scale table, the exchange of a no cast before it is Writing (R191). -/
structure OpenLap where
  lap : Nat
  flags : Nat
  cast : Option Bool
  fault : Nat
  layout : Nat
  saturated : Bool
  table : Nat
  early : Option Exchange
  deriving DecidableEq, Repr

/-- The lap block beside its registers (R206): state 0 Idle, 1 Writing, 2 Voting, 3 Settling (Table 7.12); the older open lap and
the speculative one; the three lap numbers of the lap record; settled laps with their outcomes; the last two laps that dried, each with the mask of the copies that it made dry (R261). -/
structure LapBlock where
  state : Nat
  older : Option OpenLap
  spec : Option OpenLap
  ready : Nat
  newest : Nat
  settled : Nat
  outcome : Nat
  history : Tab Nat
  opens : List OpenReq
  votes : List VoteReq
  wipes : Nat
  exchange : Option Exchange
  pendSnap : Tab Word
  pendTable : Option Word
  dries : List (Nat × Nat)
  deriving DecidableEq, Repr

/-- A census slot's definition (R187). -/
structure SlotDef where
  kind : Nat
  relay : Bool
  stores : Bool
  init : Int
  tag : BitVec 32
  deriving DecidableEq, Repr

/-- The census (R187 to R192): slot definitions; counters by die, slot, bank and bin; relay tops (absent: empty); the (die, slot, bank)
whose saturation has been recorded; the lap each bank was cleared for; an install that has not completed, as slot and record. -/
structure Census where
  slots : Tab SlotDef
  bins : Tab Nat
  tops : Tab Int
  saturated : List Nat
  bankLap : Tab Nat
  install : Option (List (Nat × Option SlotDef))
  deriving DecidableEq, Repr

end Sys2Proof.Machine
end

