-- ==== Sys2Proof/Machine/PartsRelay.lean ====
section
/-! DEFINITION. The parts of the state that belong to the relay engines. -/

namespace Sys2Proof.Machine

/-- A relay descriptor extension (Table 8.2), decoded; `reserved` is set where a reserved bit or value stood in it. -/
structure Ext where
  kind : Nat
  topo : Nat
  op : Nat
  lapless : Bool
  censusScale : Bool
  fp32 : Bool
  thin : Bool
  init : Bool
  census : Bool
  clip : Bool
  keep : Nat
  parts : Nat
  lap : Nat
  tag : Nat
  layout : Nat
  s : Int
  holdback : Nat
  src : Nat
  dst : Nat
  resid : Nat
  group : Nat
  len : Nat
  pmod : Nat
  slot : Nat
  clipEntry : Nat
  timeout : Nat
  stride : Nat
  reserved : Bool
  deriving DecidableEq, Repr

/-- An entry of a group list (Table 8.5); `reserved` is set where a reserved bit stood in it. -/
structure GroupEntry where
  x : Nat
  y : Nat
  slot : Nat
  ed : Nat
  first : Nat
  reserved : Bool
  deriving DecidableEq, Repr

/-- Who posted a relay. -/
inductive Poster where
  | runner (w pc : Nat)
  | queue (desc : Nat)
  | lapBlock
  deriving DecidableEq, Repr

/-- A relay posted (R230): its number, what was read of its extension, its poster, the layout it is bound to (R253), and its stall timeout. -/
structure Post where
  id : Nat
  ext : Ext
  poster : Poster
  bound : Nat
  timeout : Nat
  stalled : Bool
  deriving DecidableEq, Repr

/-- A relay in a slot (R229): its post, its group list and own index, its scale and list CRC; the module's own contribution once converted, and the blocks
it keeps where thinned; the outgoing transfers sent and the words received, by index in the relay's plan; batons received and done batons sent, by participant; partial sums and data on the way, by element,
and the runs of elements whose overflow flag is set; packets that arrived and have not been handled; whether the module's own data has landed, whether a saturation has been met, the error it will end with once every contribution is handled (0: none), and
the blocks of the zone landed on at least once. -/
structure RelayRun where
  post : Post
  group : List GroupEntry
  me : Nat
  s : Int
  crc : Nat
  own : Option (List (BitVec 32))
  kept : List Nat
  sent : List Nat
  got : Tab Nat
  ready : List Nat
  done : List Nat
  doneSent : List Nat
  part : Tab (BitVec 32)
  flow : List (Nat × Nat)
  arrived : List RelayPkt
  selfDone : Bool
  saturated : Bool
  error : Nat
  landed : List Nat
  started : Nat
  timeout : Nat
  timedOut : Bool
  deriving DecidableEq, Repr

/-- A relay engine (R229, R230, R256): its slots, its posts in order, and the packets held for relays not yet started, each with the link it came on. -/
structure Engine where
  slots : Tab RelayRun
  posts : List Post
  held : List (Nat × RelayPkt)
  deriving DecidableEq, Repr

/-- The relay engines by edge die, and the LAYOUT_INSTALLs that wait, as descriptor and new id (R254). -/
structure Relays where
  engines : Tab Engine
  installs : List (Nat × Nat)
  deriving DecidableEq, Repr

end Sys2Proof.Machine
end

