-- ==== Sys2Proof/Machine/PartsHeat.lean ====
section
/-! DEFINITION. The parts of the state that belong to the heat scheduler (R268 to R278). -/

namespace Sys2Proof.Machine

/-- An entry of the heat table (R269): its pair; the queue index of its segment; the dies of its mask; where it is assigned, as (die, runner);
the dies that reported it; the stage-direction whose reserve it counts under, none for the shared pool (R270); whether it holds an output slot (R272); its posting order. -/
structure HeatEntry where
  stage : Nat
  back : Bool
  heat : Nat
  seg : Nat
  index : Option Nat
  dies : Nat
  assigned : List (Nat × Nat)
  reported : List Nat
  pool : Option Nat
  slot : Bool
  order : Nat
  deriving DecidableEq, Repr

/-- A post waiting for an entry (R270): by a runner's HPOST, or by the scheduler (none). -/
structure HeatPost where
  order : Nat
  stage : Nat
  back : Bool
  heat : Nat
  seg : Nat
  index : Option Nat
  dies : Nat
  runner : Option Nat
  timeout : Nat
  stalled : Bool
  deriving DecidableEq, Repr

/-- The heat scheduler: the table, posts and runners waiting in order, the next queue index to post by stage-direction (stage * 2 + backward),
queues recorded bad (R277), segments carried from each far send half, the send halves whose next segment has gone out but for its last packet (R278), and the far queues
recorded as having no reach entry (R330). -/
structure Heat where
  entries : Tab HeatEntry
  posts : List HeatPost
  waiters : List Nat
  next : Tab Nat
  bad : List Nat
  carried : Tab Nat
  carrying : List Nat
  unreached : List Nat
  deriving DecidableEq, Repr

/-- The heat scheduler with nothing posted. -/
def Heat.cold : Heat := ⟨[], [], [], [], [], [], [], []⟩

end Sys2Proof.Machine
end

