-- ==== Sys2Proof/Machine/PartsMem.lean ====
section
/-! DEFINITION. The parts of the state that belong to stored-data protection (R287 to R307). -/

namespace Sys2Proof.Machine

/-- A row of storage: an LPDDR6 row (die, channel, bank and row of R287) or an SRAM row (the device address of its block and its row number). -/
inductive RowId where
  | dram (d ch bank row : Nat)
  | sram (addr row : Nat)
  deriving DecidableEq, Repr

/-- What has been seen of a row (R300, R304): the times of its correctable errors within 24 h, and of its last record. -/
structure RowLog where
  row : RowId
  times : List Nat
  recorded : Option Nat
  deriving DecidableEq, Repr

/-- The symbols corrected on a pin in an hour, and whether they have been recorded (R294). -/
structure PinLog where
  hour : Nat
  count : Nat
  told : Bool
  deriving DecidableEq, Repr

/-- Stored-data protection beside its registers: bits of code words stored inverted, by unit (R292 to R297); the poison list of each die
(R302); the rows seen in error; rows marked for repair (the soft fuses of R304) and not yet repaired; spare rows used, by RowId's bank; rows whose retirement has been
advised; symbols corrected by pin (R294); pins that returned a wrong pattern at the last check (R290);
uncorrectable errors found, as die and unit, whose reset is due (R301); correctable errors of each edge die (R300); the compute dies whose LPDDR6 has been trained since the
cold reset, and whether every channel was (R289, R291). -/
structure MemProt where
  faults : Tab Nat
  poison : Tab (List Nat)
  rows : List RowLog
  marked : List RowId
  spares : List (RowId × Nat)
  repaired : List RowId
  pins : Tab PinLog
  badPins : List Nat
  dead : List (Nat × Nat)
  advised : List RowId
  edgeCe : Tab Nat
  trained : Tab Bool
  deriving DecidableEq, Repr

end Sys2Proof.Machine
end

