-- ==== Sys2Proof/Machine/PartsFabric.lean ====
section
/-! DEFINITION. The parts of the state that belong to the optical fabric (R308 to R346). -/

namespace Sys2Proof.Machine

/-- The states of a link (Table 11.11). -/
inductive LState where
  | dark | lock | align | negotiate | identify | up | quarantine
  deriving DecidableEq, Repr

/-- A link (R331): one X or Y fibre, or the nibs of a Z fibre that one rack channel uses. `fails` counts bring-up failures since it was last Up; `delin` the receive
nibs delineated; `round` the negotiation rounds sent; the outcome of negotiation (Table 11.13); the peer's identity block; quarantine reason and swap partner;
this side's ingress freeze, the peer's, and the classes the peer has paused; a false start seen and not yet recorded (R335); the last split marker and how many more copies of it are
the same command (R317). -/
structure Link where
  state : LState
  light : Bool
  fails : Nat
  delin : Nat
  round : Nat
  nego : Option Nego
  shortFec : Bool
  credit : Nat
  features : Nat
  minor : Nat
  txActive : Nat
  rxActive : Nat
  peer : Option IdBlock
  reason : Nat
  swap : Nat
  frozenIn : Bool
  freezeReason : Nat
  frozenOut : Bool
  paused : Nat
  owed : Bool
  marker : Option (Nat × Nat)
  deriving DecidableEq, Repr

/-- What a C0 to C2 packet carries: a relay packet or a write packet. -/
inductive Cargo where
  | relay (p : RelayPkt)
  | write (p : WritePkt)
  deriving DecidableEq, Repr

/-- A packet of a channel: its class, label and job byte, the coordinate it was sent to (none for one in transit), and its cargo. -/
structure Packet where
  cls : Nat
  label : Nat
  job : Nat
  dest : Option Nat
  cargo : Cargo
  deriving DecidableEq, Repr

/-- A packet sent and not yet wholly acknowledged: the sequence number of its first flit, its flits, and how many of them an ack has covered (R322). -/
structure SentPacket where
  seq : Nat
  flits : Nat
  acked : Nat
  packet : Packet
  deriving DecidableEq, Repr

/-- A packet that arrived ahead of its turn (R322): the sequence number of its first flit, the link it came on, and the packet. -/
structure EarlyPacket where
  seq : Nat
  link : Nat
  packet : Packet
  deriving DecidableEq, Repr

/-- A C3 flit that waits for its turn on a channel (R319): a channel-open flit or a time message of a link. -/
inductive C3Flit where
  | opening (link job coord phys : Nat)
  | time (link : Nat) (m : TimeMsg)
  deriving DecidableEq, Repr

/-- The states of a channel (Table 11.23). -/
inductive ChState where
  | closed | opening | open | refused
  deriving DecidableEq, Repr

/-- A channel (R325, R329): open flits sent and accepted; packets waiting to be sent; the replay store; the next sequence to send, the next expected; credits held and buffers freed, by class; flits accepted since the last ack; a gap in what arrived; resends without progress (R323); packets that arrived and
hold their ingress buffer until forwarded (R330), each with its egress channel's key; which of C1 and C2 sent last (R319); whether an install holds new packets back (R328); packets that arrived early (R322); since a flit
failed its CRC, the receive nibs, as link and position, that have delivered a later sequence (R323); C3 flits that wait, and flits of C1 and C2 sent since the last C3 flit (R319). -/
structure Channel where
  state : ChState
  sentOpen : Bool
  gotOpen : Bool
  queue : List Packet
  replay : List SentPacket
  nextSeq : Nat
  expect : Nat
  credits : List Nat
  freed : List Nat
  sinceAck : Nat
  gap : Bool
  resends : Nat
  transit : List (Nat × Packet)
  turn : Nat
  stopped : Bool
  early : List EarlyPacket
  failed : Option (List (Nat × Nat))
  c3 : List C3Flit
  since3 : Nat
  deriving DecidableEq, Repr

/-- A channel entry of a lane plan (Table 11.9). -/
structure ChanEntry where
  valid : Bool
  coord : Nat
  phys : Nat
  mask : Nat
  window : Nat
  bufs : List Nat
  replay : Nat
  deriving DecidableEq, Repr

/-- A nib entry of a lane plan (Table 11.8). -/
structure NibEntry where
  pos : Nat
  tx : Nat
  rx : Nat
  txChan : Nat
  rxChan : Nat
  deriving DecidableEq, Repr

/-- A route entry of a lane plan (Table 11.8). -/
structure RouteEntry where
  valid : Bool
  deliver : Bool
  ed : Nat
  chan : Nat
  label : Nat
  deriving DecidableEq, Repr

/-- A reach entry of a lane plan (Table 11.8). -/
structure ReachEntry where
  coord : Nat
  chan : Nat
  label : Nat
  deriving DecidableEq, Repr

/-- An edge die's section of a lane plan: nibs by port position. -/
structure Section where
  chans : List ChanEntry
  nibs : List (List NibEntry)
  routes : List RouteEntry
  reaches : List ReachEntry
  deriving DecidableEq, Repr

/-- A lane plan (Table 11.8): job, member coordinates, CRC and the four sections. -/
structure LanePlan where
  job : Nat
  crc : Nat
  members : List Nat
  sections : List Section
  deriving DecidableEq, Repr

/-- A cabling plan entry (R338). -/
structure CableEntry where
  coord : Nat
  port : Nat
  fibre : Nat
  cabled : Bool
  deriving DecidableEq, Repr

/-- The fabric: links, channels (key: edge die * 64 + channel), the installed lane plan and those waiting or in progress with their descriptors, the
cabling plan and its CRC, fibres held here (R356) and by the peer, fibres' false-start counts, the compute dies whose 0x0715 has been recorded in their running reset (R341), and write packets
whose reach an install took away, each with its edge die (R328, R330). -/
structure Fabric where
  links : Tab Link
  chans : Tab Channel
  plan : Option LanePlan
  installing : List (Nat × LanePlan)
  cabling : List CableEntry
  cablingCrc : Nat
  held : List Nat
  peerHeld : List Nat
  falseStarts : Tab Nat
  recorded : List Nat
  stranded : List (Nat × Packet)
  deriving DecidableEq, Repr

end Sys2Proof.Machine
end

