-- ==== Sys2Proof/Machine/PartsLight.lean ====
section
/-! DEFINITION. The parts of the state that belong to the light sources (R347 to R361) and to the Sweyr die link (R362 to R394). -/

namespace Sys2Proof.Machine

/-- A comb source as its signals give it (Table 12.1), and whether it has been faded and commissioned (Table 12.5). The module drives `en`. -/
structure Source where
  fitted : Bool
  en : Bool
  rdy : Bool
  faultN : Bool
  p0 : Bool
  faded : Bool
  deriving DecidableEq, Repr

/-- The steps of one fibre's changeover (R356): holding and awaiting acks, or relocking after the switch. -/
inductive ChStep where
  | hold | switched
  deriving DecidableEq, Repr

/-- A changeover (R356): its target, the fibre in hand and its step, the next fibre to begin, and fibres moved. `due` is a changeover that waits. -/
structure Changeover where
  busy : Bool
  due : Bool
  target : Nat
  fibre : Option (Nat × ChStep)
  next : Nat
  deriving DecidableEq, Repr

/-- One line of one source at one edge die (R351 to R354), key (e * 2 + s) * 72 + w: samples of the running second, the mean (none: not sampled), P0 in 0.01 dBm, its level (Table
12.8), seconds it has stayed above its level's threshold, one-minute means of the last 24 h with the minute of each, the running minute's means of 1 s, and the slope fitted, a fraction
of 0.01 dB per minute. -/
structure Line where
  samples : List Int
  mean : Option Int
  p0 : Option Int
  level : Nat
  clear : Nat
  minutes : List (Nat × Int)
  minute : List Int
  slope : Option (Int × Int)
  deriving DecidableEq, Repr

/-- The light subsystem: sources A and B, lines, the changeover, and each fibre's switch position, rings locked and lines they are on. -/
structure Light where
  sources : Tab Source
  lines : Tab Line
  change : Changeover
  txLocked : Tab Nat
  rxLocked : Tab Nat
  deriving DecidableEq, Repr

/-- The states of a Sweyr link end (Table 13.13). -/
inductive SState where
  | reset | capability | laneTest | widthCheck | active | retrain | down
  deriving DecidableEq, Repr

/-- A Sweyr flit kept for replay (R373): its sequence number and the message it belongs to. -/
structure SentFlit where
  seq : Nat
  msg : SwlMsg
  op : Nat
  idx : Nat
  deriving DecidableEq, Repr

/-- A message of which some flits have arrived on a virtual channel (R370): its opcode, itself, and how many. -/
structure SwlPart where
  vc : Nat
  op : Nat
  msg : SwlMsg
  count : Nat
  deriving DecidableEq, Repr

/-- One end of a Sweyr link (R379): state; what is agreed; the peer's capability block; the lane masks passed at this end and at the peer; exclusions; width-check
mismatches in a row; frames received in the running training; sequences and replay; credits held and buffers freed by virtual channel; naks in a row and within the
running millisecond; messages that have arrived in part. -/
structure SwlEnd where
  state : SState
  version : Nat
  rate : Nat
  tx : Nat
  rx : Nat
  fallback : Bool
  cap : List Byte
  gotCap : Bool
  capAcked : Bool
  badCaps : Nat
  pass : Option (BitVec 64)
  peerPass : Option (BitVec 64)
  excl : BitVec 64
  mismatches : Nat
  checked : Bool
  gotActive : Bool
  full : Bool
  nextSeq : Nat
  expect : Nat
  replay : List SentFlit
  credits : List Nat
  freed : List Nat
  naking : Bool
  nakSeq : Nat
  nakRun : Nat
  nakTimes : List Nat
  parts : List SwlPart
  deriving DecidableEq, Repr

/-- An arbiter (R385 to R387): the holder's input, opcode and message; the inputs granted, latest first; and the messages that request, oldest first, each with its
input and opcode. -/
structure Arbiter where
  holder : Option (Nat × Nat × SwlMsg)
  recent : List Nat
  requests : List (Nat × Nat × SwlMsg)
  deriving DecidableEq, Repr

/-- A WRITE that a die has split (R378): where, its source, destination and tag, the parts whose acks are still to come, and the first status that was not 0. -/
structure Merge where
  die : Nat
  src : Nat
  dst : Nat
  tag : Nat
  left : Nat
  status : Nat
  deriving DecidableEq, Repr

/-- Bytes read that have come back in part (R378): to which die, for which master and tag, and the parts by rising address. -/
structure SwlReply where
  die : Nat
  master : Nat
  tag : Nat
  parts : List (Nat × List Byte)
  deriving DecidableEq, Repr

/-- The die mesh and the Sweyr links: ends by x = 2 L + n; arbiters of the mesh by (die * 16 + router) * 5 + port, and of link ends by 1,000,000 + x; pairs whose loss has been
recorded (R391); WRITEs split and not wholly acknowledged; dies that entered reset and whose links are not all Active again (R388); reads answered in part. -/
structure Sweyr where
  ends : Tab SwlEnd
  arbs : Tab Arbiter
  lost : List Nat
  merges : List Merge
  awaiting : List Nat
  replies : List SwlReply
  deriving DecidableEq, Repr

end Sys2Proof.Machine
end

