-- ==== Sys2Proof/Machine/RegTable.lean ====
section
/-! DEFINITION. The setup window: every register of BAR0 (R38), its width, the die that holds it, and its fields with the access
code (Table 0.3), cold value and Survives codes (Table 0.4) that the register tables of the chapters give. -/

namespace Sys2Proof.Machine

/-- The access codes of Table 0.3 (R10). -/
inductive Acc where
  | ro | rw | rwl | w1c | w1s | wo | rc
  deriving DecidableEq, Repr

/-- One field of a register: its bits, access code, cold value, and the events of Table 0.4 it survives. A cold value that
the tables take from the part (straps, fuses, the NOR) is 0 here and is supplied by the part's own state. -/
structure Fld where
  lo : Nat
  width : Nat
  acc : Acc
  cold : Nat
  w : Bool
  d : Bool
  j : Bool
  p : Bool
  deriving DecidableEq, Repr

/-- The registers of BAR0. `d` is a compute die, `k` a global core, `e` an edge die, `f` a global fibre, `q` a queue, `x` an end of a Sweyr link. -/
inductive Reg where
  /-- DEV_ID (Table 1.10). -/
  | devId
  /-- DEV_STEPPING (Table 1.11). -/
  | devStepping
  /-- DEV_CONFIG (Table 1.12). -/
  | devConfig
  /-- DEV_SETUP_LOCK (Table 1.13). -/
  | devSetupLock
  /-- DEV_STALL_TIMEOUT (Table 1.14). -/
  | devStallTimeout
  /-- DEV_SCRATCH (Table 1.15). -/
  | devScratch
  /-- CMP_MEM_INTERLEAVE (Table 2.4). -/
  | cmpMemInterleave (d : Nat)
  /-- CMP_PROG_STATUS (Table 3.17). -/
  | cmpProgStatus (d : Nat)
  /-- CMP_CORE_k_STATUS (Table 3.18). -/
  | cmpCoreStatus (k : Nat)
  /-- CMP_CORE_k_WAIT (Table 3.19). -/
  | cmpCoreWait (k : Nat)
  /-- CMP_CORE_k_CTL (Table 3.20). -/
  | cmpCoreCtl (k : Nat)
  /-- CMP_CORE_k_FREEZE (Table 3.21). -/
  | cmpCoreFreeze (k : Nat)
  /-- CMP_CORE_k_DBG_SEL (Table 3.22). -/
  | cmpCoreDbgSel (k : Nat)
  /-- CMP_CORE_k_DBG_DATA (Table 3.23). -/
  | cmpCoreDbgData (k : Nat)
  /-- CMP_CORE_k_MTX (Table 4.12). -/
  | cmpCoreMtx (k : Nat)
  /-- CMP_CORE_k_ODRAIN_ADDR (Table 4.13). -/
  | cmpCoreOdrainAddr (k : Nat)
  /-- CMP_CORE_k_ODRAIN_CTL (Table 4.14). -/
  | cmpCoreOdrainCtl (k : Nat)
  /-- CMP_CORE_k_MTX_SCALE_T (Table 4.15). -/
  | cmpCoreMtxScale (k t : Nat)
  /-- CMP_VEC_SEED (Table 5.10). -/
  | cmpVecSeed (d : Nat)
  /-- CMP_VEC_SNAP (Table 5.11). -/
  | cmpVecSnap (d : Nat)
  /-- CMP_VEC_GEN_CTL (Table 5.12). -/
  | cmpVecGenCtl (d : Nat)
  /-- LAP_CENSUS_INSTALL_ADDR (Table 6.8). -/
  | lapCensusInstallAddr
  /-- LAP_CENSUS_INSTALL_CTL (Table 6.9). -/
  | lapCensusInstallCtl
  /-- LAP_CENSUS_COUNT (Table 6.10). -/
  | lapCensusCount
  /-- LAP_SCALE_TABLE_BASE (Table 6.11). -/
  | lapScaleTableBase
  /-- LAP_SCALE_POLICY_k (Table 6.12). -/
  | lapScalePolicy (n : Nat)
  /-- LAP_STATUS (Table 7.12). -/
  | lapStatus
  /-- LAP_NEXT (Table 7.13). -/
  | lapNext
  /-- LAP_COUNT (Table 7.14). -/
  | lapCount
  /-- LAP_COUNT_DISCARD (Table 7.15). -/
  | lapCountDiscard
  /-- LAP_LAST_WIPE (Table 7.16). -/
  | lapLastWipe
  /-- LAP_FIRST_FAULT (Table 7.17). -/
  | lapFirstFault
  /-- LAP_RECORD_BASE (Table 7.18). -/
  | lapRecordBase
  /-- LAP_CLIP_BASE (Table 7.19). -/
  | lapClipBase
  /-- LAP_CTL (Table 7.22). -/
  | lapCtl
  /-- LAP_REGION_r_BASE0 (Table 7.20). -/
  | lapRegionBase (r copy : Nat)
  /-- LAP_REGION_r_CFG (Table 7.21). -/
  | lapRegionCfg (r : Nat)
  /-- COL_e_STATUS (Table 8.12). -/
  | colStatus (e : Nat)
  /-- COL_e_TIMEOUT (Table 8.13). -/
  | colTimeout (e : Nat)
  /-- COL_e_CANCEL_TAG (Table 8.14). -/
  | colCancelTag (e : Nat)
  /-- COL_e_CANCEL_CTL (Table 8.15). -/
  | colCancelCtl (e : Nat)
  /-- COL_e_MISSING (Table 8.16). -/
  | colMissing (e : Nat)
  /-- COL_LAYOUT (Table 8.17). -/
  | colLayout
  /-- COL_MIRROR_CTL (Table 8.18). -/
  | colMirrorCtl
  /-- COL_MIRROR_TMPL (Table 8.19). -/
  | colMirrorTmpl
  /-- CMP_HEAT_STATUS (Table 9.7). -/
  | cmpHeatStatus (d : Nat)
  /-- CMP_STAGE_s_CFG (Table 9.8). -/
  | cmpStageCfg (d s : Nat)
  /-- CMP_STAGE_s_FIN (Table 9.9). -/
  | cmpStageQueue (d s j : Nat)
  /-- MEM_ECC_CTL (Table 10.7). -/
  | memEccCtl
  /-- MEM_SCRUB_CFG (Table 10.8). -/
  | memScrubCfg
  /-- MEM_REPAIR_CFG (Table 10.9). -/
  | memRepairCfg
  /-- MEM_DIE_d_STATUS (Table 10.10). -/
  | memDieStatus (d : Nat)
  /-- MEM_DIE_d_CE (Table 10.11). -/
  | memDieCe (d : Nat)
  /-- MEM_DIE_d_LAST_UE (Table 10.12). -/
  | memDieLastUe (d : Nat)
  /-- MEM_DIE_d_SCRUB (Table 10.13). -/
  | memDieScrub (d : Nat)
  /-- MEM_DIE_d_INJECT_ADDR (Table 10.14). -/
  | memDieInjectAddr (d : Nat)
  /-- MEM_DIE_d_INJECT_CTL (Table 10.15). -/
  | memDieInjectCtl (d : Nat)
  /-- OPX_FIBRE_f_STATUS (Table 11.17). -/
  | opxFibreStatus (f : Nat)
  /-- OPX_FIBRE_f_CTL (Table 11.18). -/
  | opxFibreCtl (f : Nat)
  /-- OPX_FIBRE_f_NIB_MAP (Table 11.19). -/
  | opxFibreNibMap (f : Nat)
  /-- OPX_FIBRE_f_PEER (Table 11.20). -/
  | opxFibrePeer (f : Nat)
  /-- OPX_FIBRE_f_PEER_SERIAL (Table 11.21). -/
  | opxFibrePeerSerial (f : Nat)
  /-- OPX_FIBRE_f_ERRCNT (Table 11.22). -/
  | opxFibreErrcnt (f : Nat)
  /-- OPX_ED_e_CHAN_c_STATUS (Table 11.23). -/
  | opxChanStatus (e c : Nat)
  /-- OPX_CONFIG (Table 11.24). -/
  | opxConfig
  /-- OPX_PLAN_STATUS (Table 11.25). -/
  | opxPlanStatus
  /-- LGT_COMB_STATUS (Table 12.5). -/
  | lgtCombStatus
  /-- LGT_COMB_CTL (Table 12.6). -/
  | lgtCombCtl
  /-- LGT_THRESH (Table 12.7). -/
  | lgtThresh
  /-- LGT_ED_e_MON_s_w (Table 12.8). -/
  | lgtMon (e s w : Nat)
  /-- LGT_FIBRE_f_STATUS (Table 12.9). -/
  | lgtFibreStatus (f : Nat)
  /-- SWL_L_STATUS (Table 13.16). -/
  | swlStatus (x : Nat)
  /-- SWL_L_CTL (Table 13.17). -/
  | swlCtl (x : Nat)
  /-- SWL_L_RX_EXCL (Table 13.18). -/
  | swlRxExcl (x : Nat)
  /-- SWL_L_ERRCNT (Table 13.19). -/
  | swlErrcnt (x : Nat)
  /-- SWL_L_PEER_CAP_i (Table 13.20). -/
  | swlPeerCap (x i : Nat)
  /-- SWL_L_ARB (Table 13.21). -/
  | swlArb (x : Nat)
  /-- CMP_MESH_ARB_r_p, a = r * 5 + p (Table 13.21). -/
  | cmpMeshArb (d a : Nat)
  /-- HIF_LINK_STATUS (Table 14.11). -/
  | hifLinkStatus
  /-- HIF_QUEUE_INSTALL_ADDR (Table 14.12). -/
  | hifQueueInstallAddr
  /-- HIF_QUEUE_INSTALL_CTL (Table 14.13). -/
  | hifQueueInstallCtl
  /-- HIF_BLOTTER_CQ (Table 14.14). -/
  | hifBlotterCq
  /-- HIF_EMERGENCY_HALT (Table 14.15). -/
  | hifEmergencyHalt
  /-- HIF_Q_q_CTL (Table 14.16). -/
  | hifQCtl (q : Nat)
  /-- HIF_Q_q_STATUS (Table 14.17). -/
  | hifQStatus (q : Nat)
  /-- MBX_IN_s_PTR (Table 14.18). -/
  | mbxInPtr (s : Nat)
  /-- MBX_IN_s_META (Table 14.19). -/
  | mbxInMeta (s : Nat)
  /-- MBX_IN_s_PTR (Table 14.18). -/
  | mbxInLegacyPtr
  /-- MBX_IN_s_META (Table 14.19). -/
  | mbxInLegacyMeta
  /-- MBX_DOORBELL (Table 14.20). -/
  | mbxDoorbell
  /-- MBX_DB_MASK (Table 14.21). -/
  | mbxDbMask
  /-- MBX_VECTOR (Table 14.22). -/
  | mbxVector
  /-- MBX_OUT_r_PTR (Table 14.23). -/
  | mbxOutPtr (r : Nat)
  /-- MBX_OUT_r_META (Table 14.24). -/
  | mbxOutMeta (r : Nat)
  /-- MBX_OUT_r_STATE (Table 14.25). -/
  | mbxOutState (r : Nat)
  /-- MBX_OUT_r_PTR (Table 14.23). -/
  | mbxLegacyOutPtr (r : Nat)
  /-- MBX_OUT_r_META (Table 14.24). -/
  | mbxLegacyOutMeta (r : Nat)
  /-- MBX_OUT_r_STATE (Table 14.25). -/
  | mbxLegacyOutState (r : Nat)
  /-- TIM_NOW (Table 15.10). -/
  | timNow
  /-- TIM_NOW_FRAC (Table 15.11). -/
  | timNowFrac
  /-- TIM_STATUS (Table 15.12). -/
  | timStatus
  /-- TIM_PACER (Table 15.13). -/
  | timPacer
  /-- TIM_CTL (Table 15.14). -/
  | timCtl
  /-- TIM_SET (Table 15.15). -/
  | timSet
  /-- PWR_MODE (Table 15.16). -/
  | pwrMode
  /-- PWR_STATE (Table 15.17). -/
  | pwrState
  /-- PWR_RESET_CTL (Table 15.18). -/
  | pwrResetCtl
  /-- PWR_CORE_RESET (Table 15.19). -/
  | pwrCoreReset
  /-- PWR_INPUT (Table 15.20). -/
  | pwrInput
  /-- PWR_THERM_CFG (Table 15.21). -/
  | pwrThermCfg
  /-- PWR_RESET_CAUSE (Table 15.22). -/
  | pwrResetCause
  /-- PWR_DIE_d_THROTTLE (Table 15.23). -/
  | pwrDieThrottle (d : Nat)
  /-- SEC_BOOT_STATUS (Table 16.13). -/
  | secBootStatus
  /-- SEC_FW_VERSION (Table 16.14). -/
  | secFwVersion
  /-- SEC_SVN (Table 16.15). -/
  | secSvn
  /-- SEC_FW_STAGE_ADDR (Table 16.16). -/
  | secFwStageAddr
  /-- SEC_FW_CTL (Table 16.17). -/
  | secFwCtl
  /-- SEC_RECOVERY_CTL (Table 16.18). -/
  | secRecoveryCtl
  /-- SEC_DEBUG_STATUS (Table 16.19). -/
  | secDebugStatus
  /-- SEC_DEBUG_NONCE (Table 16.20). -/
  | secDebugNonce
  /-- SEC_DEBUG_TOKEN (Table 16.21). -/
  | secDebugToken
  /-- SEC_WDOG_STATUS (Table 16.22). -/
  | secWdogStatus
  /-- ERR_RING_STATUS (Table 18.6). -/
  | errRingStatus
  /-- ERR_RING_PAGE (Table 18.7). -/
  | errRingPage
  /-- ERR_VECTOR (Table 18.8). -/
  | errVector
  /-- ERR_WATCH_i_CFG (Table 18.9). -/
  | errWatchCfg (i : Nat)
  /-- ERR_WATCH_i_STATUS (Table 18.10). -/
  | errWatchStatus (i : Nat)
  /-- ERR_COUNT_n (Table 18.11). -/
  | errCount (n : Nat)
  /-- ERR_RING_WINDOW_j (Table 18.12). -/
  | errRingWindow (j i : Nat)
  deriving DecidableEq, Repr

/-- The compute die or edge die (16 + e) at end `x` = 2 L + n of Sweyr link L (Table 13.14, R392). -/
def swlEndDie (x : Nat) : Nat :=
  let l := x / 2
  let n := x % 2
  if l < 96 then (let g := l / 8; 4 * (g / 3) + g % 3 + n)
  else if l < 192 then (let g := (l - 96) / 8; g + 4 * n)
  else
    let e := (l - 192) / 8
    let i := (l - 192) % 8 / 2
    let cd := match e with
      | 0 => i
      | 1 => 4 * i + 3
      | 2 => 12 + i
      | _ => 4 * i
    if n = 0 then cd else 16 + e

/-- The die that holds a register: 0-15 a compute die, 16-19 an edge die (Table 1.9, and the register sections). -/
def Reg.holder : Reg → Nat
  | .cmpMemInterleave d => d
  | .cmpProgStatus d => d
  | .cmpCoreStatus k => k / 64
  | .cmpCoreWait k => k / 64
  | .cmpCoreCtl k => k / 64
  | .cmpCoreFreeze k => k / 64
  | .cmpCoreDbgSel k => k / 64
  | .cmpCoreDbgData k => k / 64
  | .cmpCoreMtx k => k / 64
  | .cmpCoreOdrainAddr k => k / 64
  | .cmpCoreOdrainCtl k => k / 64
  | .cmpCoreMtxScale k _ => k / 64
  | .cmpVecSeed d => d
  | .cmpVecSnap d => d
  | .cmpVecGenCtl d => d
  | .colStatus e => 16 + e
  | .colTimeout e => 16 + e
  | .colCancelTag e => 16 + e
  | .colCancelCtl e => 16 + e
  | .colMissing e => 16 + e
  | .cmpHeatStatus d => d
  | .cmpStageCfg d _ => d
  | .cmpStageQueue d _ _ => d
  | .memDieStatus d => d
  | .memDieCe d => d
  | .memDieLastUe d => d
  | .memDieScrub d => d
  | .memDieInjectAddr d => d
  | .memDieInjectCtl d => d
  | .opxFibreStatus f => 16 + f / 6
  | .opxFibreCtl f => 16 + f / 6
  | .opxFibreNibMap f => 16 + f / 6
  | .opxFibrePeer f => 16 + f / 6
  | .opxFibrePeerSerial f => 16 + f / 6
  | .opxFibreErrcnt f => 16 + f / 6
  | .opxChanStatus e _ => 16 + e
  | .lgtMon e _ _ => 16 + e
  | .lgtFibreStatus f => 16 + f / 6
  | .swlStatus x => swlEndDie x
  | .swlCtl x => swlEndDie x
  | .swlRxExcl x => swlEndDie x
  | .swlErrcnt x => swlEndDie x
  | .swlPeerCap x _ => swlEndDie x
  | .swlArb x => swlEndDie x
  | .cmpMeshArb d _ => d
  | _ => 16

/-- The registers that are 64 bits wide; the others are 32. -/
def Reg.wide : Reg → Bool
  | .devId => false
  | .devStepping => false
  | .devConfig => false
  | .devSetupLock => false
  | .cmpMemInterleave _ => false
  | .cmpCoreDbgSel _ => false
  | .cmpVecGenCtl _ => false
  | .lapCensusCount => false
  | .lapNext => false
  | .lapCtl => false
  | .colTimeout _ => false
  | .colCancelCtl _ => false
  | .memEccCtl => false
  | .memScrubCfg => false
  | .memRepairCfg => false
  | .lgtCombCtl => false
  | .swlCtl _ => false
  | .hifLinkStatus => false
  | .hifQueueInstallCtl => false
  | .hifBlotterCq => false
  | .hifEmergencyHalt => false
  | .mbxDoorbell => false
  | .mbxDbMask => false
  | .mbxVector => false
  | .mbxOutMeta _ => false
  | .mbxOutState _ => false
  | .mbxLegacyOutMeta _ => false
  | .mbxLegacyOutState _ => false
  | .timNowFrac => false
  | .timPacer => false
  | .timCtl => false
  | .pwrMode => false
  | .pwrState => false
  | .pwrCoreReset => false
  | .pwrThermCfg => false
  | .pwrResetCause => false
  | .secSvn => false
  | .secFwCtl => false
  | .secRecoveryCtl => false
  | .secWdogStatus => false
  | .errRingPage => false
  | .errVector => false
  | .errWatchStatus _ => false
  | .errCount _ => false
  | _ => true

namespace F

/-- Table 1.10, vendor. -/
def devId_vendor : Fld := ⟨0, 16, .ro, 0x1f3d, true, true, true, true⟩
/-- Table 1.10, device. -/
def devId_device : Fld := ⟨16, 16, .ro, 0x2416, true, true, true, true⟩
/-- Table 1.11, minor. -/
def devStepping_minor : Fld := ⟨0, 4, .ro, 0, true, true, true, true⟩
/-- Table 1.11, major. -/
def devStepping_major : Fld := ⟨4, 4, .ro, 0, true, true, true, true⟩
/-- Table 1.11, rom_version. -/
def devStepping_rom_version : Fld := ⟨8, 8, .ro, 0, true, true, true, true⟩
/-- Table 1.12, variant. -/
def devConfig_variant : Fld := ⟨0, 1, .ro, 0, true, true, true, true⟩
/-- Table 1.12, package_gib. -/
def devConfig_package_gib : Fld := ⟨8, 8, .ro, 0, true, true, true, true⟩
/-- Table 1.12, slot. -/
def devConfig_slot : Fld := ⟨16, 5, .ro, 0, true, true, true, true⟩
/-- Table 1.13, lock. -/
def devSetupLock_lock : Fld := ⟨0, 1, .w1s, 0, false, true, true, true⟩
/-- Table 1.14, relay_ms. -/
def devStallTimeout_relay_ms : Fld := ⟨0, 16, .rw, 0x1388, false, true, true, true⟩
/-- Table 1.14, heat_ms. -/
def devStallTimeout_heat_ms : Fld := ⟨16, 16, .rw, 0x64, false, true, true, true⟩
/-- Table 1.14, runner_ms. -/
def devStallTimeout_runner_ms : Fld := ⟨32, 16, .rw, 0x3e8, false, true, true, true⟩
/-- Table 1.14, lap_ms. -/
def devStallTimeout_lap_ms : Fld := ⟨48, 16, .rw, 0xea60, false, true, true, true⟩
/-- Table 1.15, value. -/
def devScratch_value : Fld := ⟨0, 64, .rw, 0, true, true, true, true⟩
/-- Table 2.4, granule. -/
def cmpMemInterleave_granule : Fld := ⟨0, 3, .rwl, 3, false, true, true, true⟩
/-- Table 2.4, pinned_channels. -/
def cmpMemInterleave_pinned_channels : Fld := ⟨8, 6, .rwl, 0, false, true, true, true⟩
/-- Table 3.17, valid. -/
def cmpProgStatus_valid : Fld := ⟨0, 1, .ro, 0, false, false, true, false⟩
/-- Table 3.17, bundles. -/
def cmpProgStatus_bundles : Fld := ⟨8, 18, .ro, 0, false, false, true, false⟩
/-- Table 3.17, image_id. -/
def cmpProgStatus_image_id : Fld := ⟨32, 32, .ro, 0, false, false, true, false⟩
/-- Table 3.18, state. -/
def cmpCoreStatus_state : Fld := ⟨0, 48, .ro, 0, false, false, false, false⟩
/-- Table 3.18, array_busy. -/
def cmpCoreStatus_array_busy : Fld := ⟨48, 1, .ro, 0, false, false, false, false⟩
/-- Table 3.18, step_done. -/
def cmpCoreStatus_step_done : Fld := ⟨49, 1, .w1c, 0, false, false, false, false⟩
/-- Table 3.19, cause. -/
def cmpCoreWait_cause : Fld := ⟨0, 64, .ro, 0, false, false, false, false⟩
/-- Table 3.20, halt. -/
def cmpCoreCtl_halt : Fld := ⟨0, 16, .w1s, 0, false, false, false, false⟩
/-- Table 3.20, resume. -/
def cmpCoreCtl_resume : Fld := ⟨16, 16, .wo, 0, false, false, false, false⟩
/-- Table 3.20, step. -/
def cmpCoreCtl_step : Fld := ⟨32, 16, .wo, 0, false, false, false, false⟩
/-- Table 3.20, kill. -/
def cmpCoreCtl_kill : Fld := ⟨48, 16, .wo, 0, false, false, false, false⟩
/-- Table 3.21, runner. -/
def cmpCoreFreeze_runner : Fld := ⟨0, 4, .ro, 0, false, false, false, false⟩
/-- Table 3.21, code. -/
def cmpCoreFreeze_code : Fld := ⟨8, 16, .ro, 0, false, false, false, false⟩
/-- Table 3.21, pc. -/
def cmpCoreFreeze_pc : Fld := ⟨24, 17, .ro, 0, false, false, false, false⟩
/-- Table 3.22, runner. -/
def cmpCoreDbgSel_runner : Fld := ⟨0, 4, .rw, 0, false, false, false, false⟩
/-- Table 3.22, class. -/
def cmpCoreDbgSel_class : Fld := ⟨8, 3, .rw, 0, false, false, false, false⟩
/-- Table 3.22, index. -/
def cmpCoreDbgSel_index : Fld := ⟨16, 8, .rw, 0, false, false, false, false⟩
/-- Table 3.23, value. -/
def cmpCoreDbgData_value : Fld := ⟨0, 64, .rw, 0, false, false, false, false⟩
/-- Table 4.12, interval. -/
def cmpCoreMtx_interval : Fld := ⟨0, 2, .ro, 1, false, false, false, false⟩
/-- Table 4.12, t0_class. -/
def cmpCoreMtx_t0_class : Fld := ⟨2, 1, .ro, 0, false, false, false, false⟩
/-- Table 4.12, t1_class. -/
def cmpCoreMtx_t1_class : Fld := ⟨3, 1, .ro, 0, false, false, false, false⟩
/-- Table 4.12, t0_pending. -/
def cmpCoreMtx_t0_pending : Fld := ⟨4, 6, .ro, 0, false, false, false, false⟩
/-- Table 4.12, t1_pending. -/
def cmpCoreMtx_t1_pending : Fld := ⟨10, 6, .ro, 0, false, false, false, false⟩
/-- Table 4.12, queued. -/
def cmpCoreMtx_queued : Fld := ⟨16, 3, .ro, 0, false, false, false, false⟩
/-- Table 4.13, dest. -/
def cmpCoreOdrainAddr_dest : Fld := ⟨0, 64, .rw, 0, false, false, false, false⟩
/-- Table 4.14, go. -/
def cmpCoreOdrainCtl_go : Fld := ⟨0, 1, .wo, 0, false, false, false, false⟩
/-- Table 4.14, tile. -/
def cmpCoreOdrainCtl_tile : Fld := ⟨1, 1, .rw, 0, false, false, false, false⟩
/-- Table 4.14, type. -/
def cmpCoreOdrainCtl_type : Fld := ⟨2, 4, .rw, 0, false, false, false, false⟩
/-- Table 4.14, rounding. -/
def cmpCoreOdrainCtl_rounding : Fld := ⟨6, 2, .rw, 0, false, false, false, false⟩
/-- Table 4.14, status. -/
def cmpCoreOdrainCtl_status : Fld := ⟨8, 3, .ro, 0, false, false, false, false⟩
/-- Table 4.14, scale. -/
def cmpCoreOdrainCtl_scale : Fld := ⟨32, 32, .rw, 0x3f800000, false, false, false, false⟩
/-- Table 4.15, scale_a. -/
def cmpCoreMtxScale_scale_a : Fld := ⟨0, 32, .ro, 0x3f800000, false, false, false, false⟩
/-- Table 4.15, scale_b. -/
def cmpCoreMtxScale_scale_b : Fld := ⟨32, 32, .ro, 0x3f800000, false, false, false, false⟩
/-- Table 5.10, seed. -/
def cmpVecSeed_seed : Fld := ⟨0, 64, .rw, 0, false, true, true, true⟩
/-- Table 5.11, enable. -/
def cmpVecSnap_enable : Fld := ⟨0, 1, .rw, 0, false, true, true, true⟩
/-- Table 5.11, base. -/
def cmpVecSnap_base : Fld := ⟨16, 48, .rw, 0, false, true, true, true⟩
/-- Table 5.12, reseed. -/
def cmpVecGenCtl_reseed : Fld := ⟨0, 1, .wo, 0, false, false, false, false⟩
/-- Table 5.12, busy. -/
def cmpVecGenCtl_busy : Fld := ⟨1, 1, .ro, 0, false, false, false, false⟩
/-- Table 5.12, snap_valid_0. -/
def cmpVecGenCtl_snap_valid_0 : Fld := ⟨2, 1, .ro, 0, false, true, false, false⟩
/-- Table 5.12, snap_valid_1. -/
def cmpVecGenCtl_snap_valid_1 : Fld := ⟨3, 1, .ro, 0, false, true, false, false⟩
/-- Table 6.8, addr. -/
def lapCensusInstallAddr_addr : Fld := ⟨4, 60, .rw, 0, false, false, true, true⟩
/-- Table 6.9, first. -/
def lapCensusInstallCtl_first : Fld := ⟨0, 12, .rw, 0, false, false, true, true⟩
/-- Table 6.9, count. -/
def lapCensusInstallCtl_count : Fld := ⟨12, 13, .rw, 0, false, false, true, true⟩
/-- Table 6.9, go. -/
def lapCensusInstallCtl_go : Fld := ⟨25, 1, .wo, 0, false, false, false, false⟩
/-- Table 6.9, status. -/
def lapCensusInstallCtl_status : Fld := ⟨26, 3, .ro, 0, false, false, false, false⟩
/-- Table 6.10, installed. -/
def lapCensusCount_installed : Fld := ⟨0, 13, .ro, 0, false, false, false, true⟩
/-- Table 6.11, base. -/
def lapScaleTableBase_base : Fld := ⟨16, 48, .rw, 0, false, false, true, true⟩
/-- Table 6.12, down_log2. -/
def lapScalePolicy_down_log2 : Fld := ⟨0, 3, .rw, 1, false, false, true, true⟩
/-- Table 6.12, up_log2. -/
def lapScalePolicy_up_log2 : Fld := ⟨3, 3, .rw, 1, false, false, true, true⟩
/-- Table 6.12, clean_laps. -/
def lapScalePolicy_clean_laps : Fld := ⟨16, 16, .rw, 0x3e8, false, false, true, true⟩
/-- Table 6.12, b_min. -/
def lapScalePolicy_b_min : Fld := ⟨32, 5, .rw, 0, false, false, true, true⟩
/-- Table 7.12, state. -/
def lapStatus_state : Fld := ⟨0, 2, .ro, 0, false, false, false, true⟩
/-- Table 7.12, spec. -/
def lapStatus_spec : Fld := ⟨2, 1, .ro, 0, false, false, false, true⟩
/-- Table 7.12, cast. -/
def lapStatus_cast : Fld := ⟨3, 1, .ro, 0, false, false, false, true⟩
/-- Table 7.12, flags_old. -/
def lapStatus_flags_old : Fld := ⟨8, 8, .ro, 0, false, false, false, true⟩
/-- Table 7.12, flags_new. -/
def lapStatus_flags_new : Fld := ⟨16, 8, .ro, 0, false, false, false, true⟩
/-- Table 7.12, open_lap. -/
def lapStatus_open_lap : Fld := ⟨32, 32, .ro, 0, false, false, false, true⟩
/-- Table 7.13, next. -/
def lapNext_next : Fld := ⟨0, 32, .rw, 0, false, false, false, true⟩
/-- Table 7.14, dried. -/
def lapCount_dried : Fld := ⟨0, 32, .ro, 0, false, false, false, true⟩
/-- Table 7.14, skipped. -/
def lapCount_skipped : Fld := ⟨32, 32, .ro, 0, false, false, false, true⟩
/-- Table 7.15, discarded. -/
def lapCountDiscard_discarded : Fld := ⟨0, 32, .ro, 0, false, false, false, true⟩
/-- Table 7.16, flags. -/
def lapLastWipe_flags : Fld := ⟨0, 8, .ro, 0, false, false, false, true⟩
/-- Table 7.16, job_mask. -/
def lapLastWipe_job_mask : Fld := ⟨8, 8, .ro, 0, false, false, false, true⟩
/-- Table 7.16, lap. -/
def lapLastWipe_lap : Fld := ⟨32, 32, .ro, 0, false, false, false, true⟩
/-- Table 7.17, addr. -/
def lapFirstFault_addr : Fld := ⟨0, 64, .ro, 0, false, false, false, true⟩
/-- Table 7.18, base. -/
def lapRecordBase_base : Fld := ⟨6, 58, .rw, 0, false, false, true, true⟩
/-- Table 7.19, base. -/
def lapClipBase_base : Fld := ⟨16, 48, .rw, 0, false, false, true, true⟩
/-- Table 7.22, unseal. -/
def lapCtl_unseal : Fld := ⟨0, 1, .wo, 0, false, false, false, false⟩
/-- Table 7.22, sealed. -/
def lapCtl_sealed : Fld := ⟨1, 1, .ro, 0, false, false, false, true⟩
/-- Table 7.20, base. -/
def lapRegionBase_base : Fld := ⟨12, 52, .rw, 0, false, false, true, true⟩
/-- Table 7.21, pages. -/
def lapRegionCfg_pages : Fld := ⟨0, 28, .rw, 0, false, false, true, true⟩
/-- Table 7.21, kind. -/
def lapRegionCfg_kind : Fld := ⟨28, 4, .rw, 0, false, false, true, true⟩
/-- Table 7.21, check. -/
def lapRegionCfg_check : Fld := ⟨32, 3, .rw, 0, false, false, true, true⟩
/-- Table 7.21, carry. -/
def lapRegionCfg_carry : Fld := ⟨35, 1, .rw, 0, false, false, true, true⟩
/-- Table 7.21, valid. -/
def lapRegionCfg_valid : Fld := ⟨36, 1, .rw, 0, false, false, true, true⟩
/-- Table 7.21, dry. -/
def lapRegionCfg_dry : Fld := ⟨37, 1, .ro, 0, false, false, true, true⟩
/-- Table 8.12, busy. -/
def colStatus_busy : Fld := ⟨0, 7, .ro, 0, false, false, false, false⟩
/-- Table 8.12, waiting. -/
def colStatus_waiting : Fld := ⟨7, 11, .ro, 0, false, false, false, false⟩
/-- Table 8.12, timed_out. -/
def colStatus_timed_out : Fld := ⟨18, 7, .ro, 0, false, false, false, false⟩
/-- Table 8.13, ms. -/
def colTimeout_ms : Fld := ⟨0, 32, .rw, 0x7d0, false, false, true, true⟩
/-- Table 8.14, tag. -/
def colCancelTag_tag : Fld := ⟨0, 32, .rw, 0, false, false, false, false⟩
/-- Table 8.14, lap. -/
def colCancelTag_lap : Fld := ⟨32, 32, .rw, 0, false, false, false, false⟩
/-- Table 8.15, go. -/
def colCancelCtl_go : Fld := ⟨0, 1, .wo, 0, false, false, false, false⟩
/-- Table 8.15, status. -/
def colCancelCtl_status : Fld := ⟨1, 2, .ro, 0, false, false, false, false⟩
/-- Table 8.16, tag. -/
def colMissing_tag : Fld := ⟨0, 32, .ro, 0, false, false, false, false⟩
/-- Table 8.16, count. -/
def colMissing_count : Fld := ⟨32, 13, .ro, 0, false, false, false, false⟩
/-- Table 8.17, current. -/
def colLayout_current : Fld := ⟨0, 16, .ro, 0, false, false, false, true⟩
/-- Table 8.17, pending. -/
def colLayout_pending : Fld := ⟨16, 16, .ro, 0, false, false, false, true⟩
/-- Table 8.17, busy. -/
def colLayout_busy : Fld := ⟨32, 1, .ro, 0, false, false, false, true⟩
/-- Table 8.18, enable. -/
def colMirrorCtl_enable : Fld := ⟨0, 1, .rw, 0, false, false, true, true⟩
/-- Table 8.18, interval. -/
def colMirrorCtl_interval : Fld := ⟨16, 16, .rw, 0x32, false, false, true, true⟩
/-- Table 8.19, base. -/
def colMirrorTmpl_base : Fld := ⟨6, 58, .rw, 0, false, false, true, true⟩
/-- Table 9.7, posted. -/
def cmpHeatStatus_posted : Fld := ⟨0, 7, .ro, 0, false, false, false, false⟩
/-- Table 9.7, assigned. -/
def cmpHeatStatus_assigned : Fld := ⟨8, 7, .ro, 0, false, false, false, false⟩
/-- Table 9.7, waiting. -/
def cmpHeatStatus_waiting : Fld := ⟨16, 11, .ro, 0, false, false, false, false⟩
/-- Table 9.8, dies. -/
def cmpStageCfg_dies : Fld := ⟨0, 16, .rw, 0, false, true, true, true⟩
/-- Table 9.8, valid. -/
def cmpStageCfg_valid : Fld := ⟨16, 1, .rw, 0, false, true, true, true⟩
/-- Table 9.8, f_auto. -/
def cmpStageCfg_f_auto : Fld := ⟨17, 1, .rw, 0, false, true, true, true⟩
/-- Table 9.8, b_auto. -/
def cmpStageCfg_b_auto : Fld := ⟨18, 1, .rw, 0, false, true, true, true⟩
/-- Table 9.8, f_reserve. -/
def cmpStageCfg_f_reserve : Fld := ⟨24, 7, .rw, 0, false, true, true, true⟩
/-- Table 9.8, b_reserve. -/
def cmpStageCfg_b_reserve : Fld := ⟨32, 7, .rw, 0, false, true, true, true⟩
/-- Table 9.9, base. -/
def cmpStageQueue_base : Fld := ⟨12, 52, .rw, 0, false, true, true, true⟩
/-- Table 10.7, dram_mode. -/
def memEccCtl_dram_mode : Fld := ⟨0, 2, .rwl, 0, false, true, true, true⟩
/-- Table 10.7, pin_threshold. -/
def memEccCtl_pin_threshold : Fld := ⟨8, 8, .rw, 0x10, false, true, true, true⟩
/-- Table 10.8, dram_hours. -/
def memScrubCfg_dram_hours : Fld := ⟨0, 8, .rw, 0x18, false, true, true, true⟩
/-- Table 10.8, sram_minutes. -/
def memScrubCfg_sram_minutes : Fld := ⟨8, 8, .rw, 0xa, false, true, true, true⟩
/-- Table 10.9, row_ce_threshold. -/
def memRepairCfg_row_ce_threshold : Fld := ⟨0, 8, .rw, 8, false, true, true, true⟩
/-- Table 10.9, ppr_at_park. -/
def memRepairCfg_ppr_at_park : Fld := ⟨8, 1, .rw, 1, false, true, true, true⟩
/-- Table 10.10, trained. -/
def memDieStatus_trained : Fld := ⟨0, 1, .ro, 0, false, false, true, true⟩
/-- Table 10.10, self_refresh. -/
def memDieStatus_self_refresh : Fld := ⟨1, 1, .ro, 0, false, false, true, false⟩
/-- Table 10.10, ppr_pending. -/
def memDieStatus_ppr_pending : Fld := ⟨8, 8, .ro, 0, false, true, true, true⟩
/-- Table 10.10, poisoned. -/
def memDieStatus_poisoned : Fld := ⟨16, 9, .ro, 0, false, true, true, true⟩
/-- Table 10.10, failed_channels. -/
def memDieStatus_failed_channels : Fld := ⟨32, 32, .ro, 0, false, true, true, true⟩
/-- Table 10.11, dram. -/
def memDieCe_dram : Fld := ⟨0, 32, .rc, 0, false, false, true, true⟩
/-- Table 10.11, sram. -/
def memDieCe_sram : Fld := ⟨32, 32, .rc, 0, false, false, true, true⟩
/-- Table 10.12, addr. -/
def memDieLastUe_addr : Fld := ⟨0, 64, .ro, 0, false, true, true, true⟩
/-- Table 10.13, dram_passes. -/
def memDieScrub_dram_passes : Fld := ⟨0, 32, .ro, 0, false, false, true, true⟩
/-- Table 10.13, sram_passes. -/
def memDieScrub_sram_passes : Fld := ⟨32, 32, .ro, 0, false, false, true, true⟩
/-- Table 10.14, addr. -/
def memDieInjectAddr_addr : Fld := ⟨0, 64, .rw, 0, false, false, false, false⟩
/-- Table 10.15, arm. -/
def memDieInjectCtl_arm : Fld := ⟨0, 1, .rw, 0, false, false, false, false⟩
/-- Table 10.15, mask. -/
def memDieInjectCtl_mask : Fld := ⟨8, 39, .rw, 0, false, false, false, false⟩
/-- Table 11.17, state. -/
def opxFibreStatus_state : Fld := ⟨0, 3, .ro, 0, false, false, false, false⟩
/-- Table 11.17, fec. -/
def opxFibreStatus_fec : Fld := ⟨3, 1, .ro, 0, false, false, false, false⟩
/-- Table 11.17, frozen_in. -/
def opxFibreStatus_frozen_in : Fld := ⟨4, 1, .ro, 0, false, false, false, false⟩
/-- Table 11.17, frozen_out. -/
def opxFibreStatus_frozen_out : Fld := ⟨5, 1, .ro, 0, false, false, false, false⟩
/-- Table 11.17, held. -/
def opxFibreStatus_held : Fld := ⟨6, 1, .ro, 0, false, false, false, false⟩
/-- Table 11.17, paused_out. -/
def opxFibreStatus_paused_out : Fld := ⟨8, 3, .ro, 0, false, false, false, false⟩
/-- Table 11.17, reason. -/
def opxFibreStatus_reason : Fld := ⟨16, 8, .ro, 0, false, false, false, false⟩
/-- Table 11.17, swap_partner. -/
def opxFibreStatus_swap_partner : Fld := ⟨24, 8, .ro, 0xff, false, false, false, false⟩
/-- Table 11.17, false_starts. -/
def opxFibreStatus_false_starts : Fld := ⟨32, 16, .ro, 0, false, false, false, false⟩
/-- Table 11.17, level_run. -/
def opxFibreStatus_level_run : Fld := ⟨48, 4, .ro, 0, false, false, false, false⟩
/-- Table 11.18, thaw. -/
def opxFibreCtl_thaw : Fld := ⟨0, 1, .wo, 0, false, false, false, false⟩
/-- Table 11.18, adopt. -/
def opxFibreCtl_adopt : Fld := ⟨1, 1, .wo, 0, false, false, false, false⟩
/-- Table 11.18, retrain. -/
def opxFibreCtl_retrain : Fld := ⟨2, 1, .wo, 0, false, false, false, false⟩
/-- Table 11.18, freeze. -/
def opxFibreCtl_freeze : Fld := ⟨3, 1, .wo, 0, false, false, false, false⟩
/-- Table 11.18, pause. -/
def opxFibreCtl_pause : Fld := ⟨4, 3, .rw, 0, false, false, false, false⟩
/-- Table 11.18, peer_slot. -/
def opxFibreCtl_peer_slot : Fld := ⟨8, 5, .rw, 0, false, false, false, false⟩
/-- Table 11.19, tx_on. -/
def opxFibreNibMap_tx_on : Fld := ⟨0, 16, .ro, 0, false, false, false, false⟩
/-- Table 11.19, rx_on. -/
def opxFibreNibMap_rx_on : Fld := ⟨16, 16, .ro, 0, false, false, false, false⟩
/-- Table 11.19, tx_active. -/
def opxFibreNibMap_tx_active : Fld := ⟨32, 16, .ro, 0, false, false, false, false⟩
/-- Table 11.19, rx_active. -/
def opxFibreNibMap_rx_active : Fld := ⟨48, 16, .ro, 0, false, false, false, false⟩
/-- Table 11.20, coord. -/
def opxFibrePeer_coord : Fld := ⟨0, 16, .ro, 0, false, false, false, false⟩
/-- Table 11.20, phys_slot. -/
def opxFibrePeer_phys_slot : Fld := ⟨16, 5, .ro, 0, false, false, false, false⟩
/-- Table 11.20, port. -/
def opxFibrePeer_port : Fld := ⟨21, 3, .ro, 0, false, false, false, false⟩
/-- Table 11.20, fibre. -/
def opxFibrePeer_fibre : Fld := ⟨24, 2, .ro, 0, false, false, false, false⟩
/-- Table 11.20, level. -/
def opxFibrePeer_level : Fld := ⟨32, 8, .ro, 0, false, false, false, false⟩
/-- Table 11.20, valid. -/
def opxFibrePeer_valid : Fld := ⟨40, 1, .ro, 0, false, false, false, false⟩
/-- Table 11.21, serial. -/
def opxFibrePeerSerial_serial : Fld := ⟨0, 64, .ro, 0, false, false, false, false⟩
/-- Table 11.22, crc_fail. -/
def opxFibreErrcnt_crc_fail : Fld := ⟨0, 16, .rc, 0, false, false, false, false⟩
/-- Table 11.22, fec_ue. -/
def opxFibreErrcnt_fec_ue : Fld := ⟨16, 16, .rc, 0, false, false, false, false⟩
/-- Table 11.22, replays. -/
def opxFibreErrcnt_replays : Fld := ⟨32, 16, .rc, 0, false, false, false, false⟩
/-- Table 11.22, c3_drop. -/
def opxFibreErrcnt_c3_drop : Fld := ⟨48, 16, .rc, 0, false, false, false, false⟩
/-- Table 11.23, state. -/
def opxChanStatus_state : Fld := ⟨0, 2, .ro, 0, false, false, false, false⟩
/-- Table 11.23, frozen_in. -/
def opxChanStatus_frozen_in : Fld := ⟨2, 1, .ro, 0, false, false, false, false⟩
/-- Table 11.23, frozen_out. -/
def opxChanStatus_frozen_out : Fld := ⟨3, 1, .ro, 0, false, false, false, false⟩
/-- Table 11.23, tx_nibs. -/
def opxChanStatus_tx_nibs : Fld := ⟨4, 5, .ro, 0, false, false, false, false⟩
/-- Table 11.23, rx_nibs. -/
def opxChanStatus_rx_nibs : Fld := ⟨9, 5, .ro, 0, false, false, false, false⟩
/-- Table 11.23, unacked. -/
def opxChanStatus_unacked : Fld := ⟨16, 15, .ro, 0, false, false, false, false⟩
/-- Table 11.24, coord. -/
def opxConfig_coord : Fld := ⟨0, 16, .ro, 0, false, true, true, true⟩
/-- Table 11.24, coord_valid. -/
def opxConfig_coord_valid : Fld := ⟨16, 1, .ro, 0, false, true, true, true⟩
/-- Table 11.24, mode. -/
def opxConfig_mode : Fld := ⟨17, 1, .rwl, 0, false, true, true, true⟩
/-- Table 11.24, short_fec. -/
def opxConfig_short_fec : Fld := ⟨18, 1, .rw, 1, false, true, true, true⟩
/-- Table 11.24, short_prefer. -/
def opxConfig_short_prefer : Fld := ⟨19, 1, .rw, 0, false, true, true, true⟩
/-- Table 11.24, level. -/
def opxConfig_level : Fld := ⟨24, 8, .ro, 0x12, true, true, true, true⟩
/-- Table 11.24, job. -/
def opxConfig_job : Fld := ⟨32, 16, .ro, 0, false, true, true, true⟩
/-- Table 11.25, lane_valid. -/
def opxPlanStatus_lane_valid : Fld := ⟨0, 1, .ro, 0, false, true, true, true⟩
/-- Table 11.25, cabling_valid. -/
def opxPlanStatus_cabling_valid : Fld := ⟨1, 1, .ro, 0, false, true, true, true⟩
/-- Table 11.25, busy. -/
def opxPlanStatus_busy : Fld := ⟨2, 1, .ro, 0, false, false, false, false⟩
/-- Table 11.25, lane_crc. -/
def opxPlanStatus_lane_crc : Fld := ⟨32, 32, .ro, 0, false, true, true, true⟩
/-- Table 12.5, active. -/
def lgtCombStatus_active : Fld := ⟨0, 1, .ro, 0, true, true, true, true⟩
/-- Table 12.5, a_state. -/
def lgtCombStatus_a_state : Fld := ⟨1, 3, .ro, 0, false, false, false, false⟩
/-- Table 12.5, b_state. -/
def lgtCombStatus_b_state : Fld := ⟨4, 3, .ro, 0, false, false, false, false⟩
/-- Table 12.5, busy. -/
def lgtCombStatus_busy : Fld := ⟨7, 1, .ro, 0, false, false, false, false⟩
/-- Table 12.5, fibres_done. -/
def lgtCombStatus_fibres_done : Fld := ⟨8, 5, .ro, 0, false, false, false, false⟩
/-- Table 12.5, a_p0. -/
def lgtCombStatus_a_p0 : Fld := ⟨13, 1, .ro, 0, true, true, true, true⟩
/-- Table 12.5, b_p0. -/
def lgtCombStatus_b_p0 : Fld := ⟨14, 1, .ro, 0, true, true, true, true⟩
/-- Table 12.5, a_faded. -/
def lgtCombStatus_a_faded : Fld := ⟨15, 1, .ro, 0, true, true, true, true⟩
/-- Table 12.5, b_faded. -/
def lgtCombStatus_b_faded : Fld := ⟨16, 1, .ro, 0, true, true, true, true⟩
/-- Table 12.6, auto. -/
def lgtCombCtl_auto : Fld := ⟨0, 1, .rw, 1, false, true, true, true⟩
/-- Table 12.6, spare_start. -/
def lgtCombCtl_spare_start : Fld := ⟨1, 1, .wo, 0, false, false, false, false⟩
/-- Table 12.6, spare_stop. -/
def lgtCombCtl_spare_stop : Fld := ⟨2, 1, .wo, 0, false, false, false, false⟩
/-- Table 12.6, switch. -/
def lgtCombCtl_switch : Fld := ⟨3, 1, .wo, 0, false, false, false, false⟩
/-- Table 12.6, commission. -/
def lgtCombCtl_commission : Fld := ⟨4, 1, .wo, 0, false, false, false, false⟩
/-- Table 12.6, commission_src. -/
def lgtCombCtl_commission_src : Fld := ⟨5, 1, .rw, 0, false, true, true, true⟩
/-- Table 12.6, commission_status. -/
def lgtCombCtl_commission_status : Fld := ⟨6, 2, .ro, 0, false, false, false, false⟩
/-- Table 12.7, amber. -/
def lgtThresh_amber : Fld := ⟨0, 8, .rw, 0xf, false, true, true, true⟩
/-- Table 12.7, red. -/
def lgtThresh_red : Fld := ⟨8, 8, .rw, 0x1e, false, true, true, true⟩
/-- Table 12.7, floor. -/
def lgtThresh_floor : Fld := ⟨16, 8, .rw, 0x2d, false, true, true, true⟩
/-- Table 12.7, slope_hours. -/
def lgtThresh_slope_hours : Fld := ⟨24, 8, .rw, 0x48, false, true, true, true⟩
/-- Table 12.7, clear. -/
def lgtThresh_clear : Fld := ⟨32, 8, .rw, 5, false, true, true, true⟩
/-- Table 12.8, power. -/
def lgtMon_power : Fld := ⟨0, 16, .ro, 0x8000, false, false, false, false⟩
/-- Table 12.8, p0. -/
def lgtMon_p0 : Fld := ⟨16, 16, .ro, 0, true, true, true, true⟩
/-- Table 12.8, slope. -/
def lgtMon_slope : Fld := ⟨32, 8, .ro, 0, false, true, true, true⟩
/-- Table 12.8, level. -/
def lgtMon_level : Fld := ⟨40, 3, .ro, 0, false, false, false, false⟩
/-- Table 12.8, in_use. -/
def lgtMon_in_use : Fld := ⟨43, 1, .ro, 0, false, false, false, false⟩
/-- Table 12.9, source. -/
def lgtFibreStatus_source : Fld := ⟨0, 1, .ro, 0, false, false, false, false⟩
/-- Table 12.9, held. -/
def lgtFibreStatus_held : Fld := ⟨1, 1, .ro, 0, false, false, false, false⟩
/-- Table 12.9, tx_locked. -/
def lgtFibreStatus_tx_locked : Fld := ⟨16, 16, .ro, 0, false, false, false, false⟩
/-- Table 12.9, rx_locked. -/
def lgtFibreStatus_rx_locked : Fld := ⟨32, 16, .ro, 0, false, false, false, false⟩
/-- Table 12.9, unlocks. -/
def lgtFibreStatus_unlocks : Fld := ⟨48, 16, .rc, 0, false, false, false, false⟩
/-- Table 13.16, state. -/
def swlStatus_state : Fld := ⟨0, 3, .ro, 0, false, false, false, false⟩
/-- Table 13.16, version. -/
def swlStatus_version : Fld := ⟨4, 4, .ro, 0, false, false, false, false⟩
/-- Table 13.16, rate. -/
def swlStatus_rate : Fld := ⟨8, 2, .ro, 0, false, false, false, false⟩
/-- Table 13.16, tx. -/
def swlStatus_tx : Fld := ⟨10, 4, .ro, 0, false, false, false, false⟩
/-- Table 13.16, rx. -/
def swlStatus_rx : Fld := ⟨14, 4, .ro, 0, false, false, false, false⟩
/-- Table 13.16, fallback. -/
def swlStatus_fallback : Fld := ⟨18, 1, .ro, 0, false, false, false, false⟩
/-- Table 13.16, peer_version. -/
def swlStatus_peer_version : Fld := ⟨24, 8, .ro, 0, false, false, false, false⟩
/-- Table 13.16, trainings. -/
def swlStatus_trainings : Fld := ⟨32, 16, .ro, 0, false, false, false, false⟩
/-- Table 13.17, retrain. -/
def swlCtl_retrain : Fld := ⟨0, 1, .wo, 0, false, false, false, false⟩
/-- Table 13.17, relearn. -/
def swlCtl_relearn : Fld := ⟨1, 1, .wo, 0, false, false, false, false⟩
/-- Table 13.17, disable. -/
def swlCtl_disable : Fld := ⟨2, 1, .rw, 0, false, true, true, true⟩
/-- Table 13.17, rate_cap. -/
def swlCtl_rate_cap : Fld := ⟨3, 2, .rw, 3, false, true, true, true⟩
/-- Table 13.18, lanes. -/
def swlRxExcl_lanes : Fld := ⟨0, 64, .ro, 0, false, false, false, false⟩
/-- Table 13.19, crc_fail. -/
def swlErrcnt_crc_fail : Fld := ⟨0, 16, .rc, 0, false, false, false, false⟩
/-- Table 13.19, naks. -/
def swlErrcnt_naks : Fld := ⟨16, 16, .rc, 0, false, false, false, false⟩
/-- Table 13.19, retrains. -/
def swlErrcnt_retrains : Fld := ⟨32, 16, .rc, 0, false, false, false, false⟩
/-- Table 13.19, disagree. -/
def swlErrcnt_disagree : Fld := ⟨48, 16, .rc, 0, false, false, false, false⟩
/-- Table 13.20, bytes. -/
def swlPeerCap_bytes : Fld := ⟨0, 64, .ro, 0, false, false, false, false⟩
/-- Table 13.21, prio. -/
def swlArb_prio : Fld := ⟨0, 20, .rw, 0, false, true, true, true⟩
/-- Table 14.11, width. -/
def hifLinkStatus_width : Fld := ⟨0, 4, .ro, 0, false, false, false, false⟩
/-- Table 14.11, speed. -/
def hifLinkStatus_speed : Fld := ⟨4, 2, .ro, 0, false, false, false, false⟩
/-- Table 14.11, cache. -/
def hifLinkStatus_cache : Fld := ⟨6, 1, .ro, 0, false, false, false, false⟩
/-- Table 14.11, mem. -/
def hifLinkStatus_mem : Fld := ⟨7, 1, .ro, 0, false, false, false, false⟩
/-- Table 14.11, degraded. -/
def hifLinkStatus_degraded : Fld := ⟨8, 1, .ro, 0, false, false, false, false⟩
/-- Table 14.12, addr. -/
def hifQueueInstallAddr_addr : Fld := ⟨5, 59, .rwl, 0, false, false, true, true⟩
/-- Table 14.13, first. -/
def hifQueueInstallCtl_first : Fld := ⟨0, 7, .rwl, 0, false, false, true, true⟩
/-- Table 14.13, count. -/
def hifQueueInstallCtl_count : Fld := ⟨7, 8, .rwl, 0, false, false, true, true⟩
/-- Table 14.13, go. -/
def hifQueueInstallCtl_go : Fld := ⟨15, 1, .wo, 0, false, false, false, false⟩
/-- Table 14.13, status. -/
def hifQueueInstallCtl_status : Fld := ⟨16, 3, .ro, 0, false, false, false, false⟩
/-- Table 14.14, queue. -/
def hifBlotterCq_queue : Fld := ⟨0, 7, .rwl, 0, false, false, true, true⟩
/-- Table 14.14, enable. -/
def hifBlotterCq_enable : Fld := ⟨7, 1, .rwl, 0, false, false, true, true⟩
/-- Table 14.14, lost. -/
def hifBlotterCq_lost : Fld := ⟨16, 16, .rc, 0, false, false, true, true⟩
/-- Table 14.15, halt. -/
def hifEmergencyHalt_halt : Fld := ⟨0, 1, .wo, 0, false, false, false, false⟩
/-- Table 14.15, release. -/
def hifEmergencyHalt_release : Fld := ⟨1, 1, .wo, 0, false, false, false, false⟩
/-- Table 14.15, active. -/
def hifEmergencyHalt_active : Fld := ⟨2, 1, .ro, 0, false, false, true, true⟩
/-- Table 14.15, done. -/
def hifEmergencyHalt_done : Fld := ⟨3, 1, .ro, 0, false, false, true, true⟩
/-- Table 14.16, enable. -/
def hifQCtl_enable : Fld := ⟨0, 1, .wo, 0, false, false, false, false⟩
/-- Table 14.16, disable. -/
def hifQCtl_disable : Fld := ⟨1, 1, .wo, 0, false, false, false, false⟩
/-- Table 14.16, resume. -/
def hifQCtl_resume : Fld := ⟨2, 1, .wo, 0, false, false, false, false⟩
/-- Table 14.16, state. -/
def hifQCtl_state : Fld := ⟨3, 3, .ro, 0, false, false, true, true⟩
/-- Table 14.16, privileged. -/
def hifQCtl_privileged : Fld := ⟨6, 1, .ro, 0, false, false, true, true⟩
/-- Table 14.16, freeze_code. -/
def hifQCtl_freeze_code : Fld := ⟨16, 16, .ro, 0, false, false, true, true⟩
/-- Table 14.16, freeze_index. -/
def hifQCtl_freeze_index : Fld := ⟨32, 16, .ro, 0, false, false, true, true⟩
/-- Table 14.17, sq_head. -/
def hifQStatus_sq_head : Fld := ⟨0, 16, .ro, 0, false, false, true, true⟩
/-- Table 14.17, sq_tail. -/
def hifQStatus_sq_tail : Fld := ⟨16, 16, .ro, 0, false, false, true, true⟩
/-- Table 14.17, cq_tail. -/
def hifQStatus_cq_tail : Fld := ⟨32, 16, .ro, 0, false, false, true, true⟩
/-- Table 14.17, phase. -/
def hifQStatus_phase : Fld := ⟨48, 1, .ro, 0, false, false, true, true⟩
/-- Table 14.17, in_flight. -/
def hifQStatus_in_flight : Fld := ⟨49, 9, .ro, 0, false, false, true, true⟩
/-- Table 14.18, ptr. -/
def mbxInPtr_ptr : Fld := ⟨0, 64, .ro, 0, false, false, true, true⟩
/-- Table 14.19, tag. -/
def mbxInMeta_tag : Fld := ⟨0, 32, .ro, 0, false, false, true, true⟩
/-- Table 14.19, sender. -/
def mbxInMeta_sender : Fld := ⟨32, 8, .ro, 0, false, false, true, true⟩
/-- Table 14.19, full. -/
def mbxInMeta_full : Fld := ⟨40, 1, .rc, 0, false, false, true, true⟩
/-- Table 14.19, collision. -/
def mbxInMeta_collision : Fld := ⟨41, 1, .w1c, 0, false, false, true, true⟩
/-- Table 14.19, sender_reset. -/
def mbxInMeta_sender_reset : Fld := ⟨42, 1, .ro, 0, false, false, true, true⟩
/-- Table 14.20, bits. -/
def mbxDoorbell_bits : Fld := ⟨0, 32, .w1c, 0, false, false, true, true⟩
/-- Table 14.21, mask. -/
def mbxDbMask_mask : Fld := ⟨0, 32, .rw, 0xffffffff, false, false, true, true⟩
/-- Table 14.22, vector. -/
def mbxVector_vector : Fld := ⟨0, 8, .rw, 0, false, false, true, true⟩
/-- Table 14.23, ptr. -/
def mbxOutPtr_ptr : Fld := ⟨0, 64, .rw, 0, false, false, true, true⟩
/-- Table 14.24, tag. -/
def mbxOutMeta_tag : Fld := ⟨0, 32, .wo, 0, false, false, false, false⟩
/-- Table 14.25, state. -/
def mbxOutState_state : Fld := ⟨0, 2, .ro, 0, false, false, true, true⟩
/-- Table 14.25, clear. -/
def mbxOutState_clear : Fld := ⟨2, 1, .wo, 0, false, false, false, false⟩
/-- Table 15.10, ns. -/
def timNow_ns : Fld := ⟨0, 64, .ro, 0, false, false, false, false⟩
/-- Table 15.11, frac. -/
def timNowFrac_frac : Fld := ⟨0, 16, .ro, 0, false, false, false, false⟩
/-- Table 15.12, state. -/
def timStatus_state : Fld := ⟨0, 2, .ro, 0, false, false, false, false⟩
/-- Table 15.12, pacer. -/
def timStatus_pacer : Fld := ⟨2, 1, .ro, 0, false, false, false, false⟩
/-- Table 15.12, pps_locked. -/
def timStatus_pps_locked : Fld := ⟨3, 1, .ro, 0, false, false, false, false⟩
/-- Table 15.12, hops. -/
def timStatus_hops : Fld := ⟨8, 8, .ro, 0xff, false, false, false, false⟩
/-- Table 15.12, parent_fibre. -/
def timStatus_parent_fibre : Fld := ⟨16, 5, .ro, 0x1f, false, false, false, false⟩
/-- Table 15.12, offset. -/
def timStatus_offset : Fld := ⟨24, 16, .ro, 0, false, false, false, false⟩
/-- Table 15.12, delay. -/
def timStatus_delay : Fld := ⟨40, 16, .ro, 0, false, false, false, false⟩
/-- Table 15.13, coord. -/
def timPacer_coord : Fld := ⟨0, 16, .ro, 0, false, true, true, true⟩
/-- Table 15.13, named. -/
def timPacer_named : Fld := ⟨16, 1, .ro, 0, false, true, true, true⟩
/-- Table 15.13, valid. -/
def timPacer_valid : Fld := ⟨17, 1, .ro, 0, false, true, true, true⟩
/-- Table 15.14, pps_out. -/
def timCtl_pps_out : Fld := ⟨0, 1, .rw, 0, false, true, true, true⟩
/-- Table 15.14, tenm_out. -/
def timCtl_tenm_out : Fld := ⟨1, 1, .rw, 0, false, true, true, true⟩
/-- Table 15.14, tod_out. -/
def timCtl_tod_out : Fld := ⟨2, 1, .rw, 0, false, true, true, true⟩
/-- Table 15.14, pps_in. -/
def timCtl_pps_in : Fld := ⟨3, 1, .rw, 0, false, true, true, true⟩
/-- Table 15.14, pps_in_edge. -/
def timCtl_pps_in_edge : Fld := ⟨4, 1, .rw, 0, false, true, true, true⟩
/-- Table 15.14, cable_ns. -/
def timCtl_cable_ns : Fld := ⟨16, 16, .rw, 0, false, true, true, true⟩
/-- Table 15.15, ns. -/
def timSet_ns : Fld := ⟨0, 64, .wo, 0, false, false, false, false⟩
/-- Table 15.16, mode. -/
def pwrMode_mode : Fld := ⟨0, 2, .rw, 1, false, true, true, true⟩
/-- Table 15.16, current. -/
def pwrMode_current : Fld := ⟨2, 2, .ro, 1, false, true, true, true⟩
/-- Table 15.16, changing. -/
def pwrMode_changing : Fld := ⟨4, 1, .ro, 0, false, false, false, false⟩
/-- Table 15.17, request. -/
def pwrState_request : Fld := ⟨0, 2, .wo, 0, false, false, false, false⟩
/-- Table 15.17, state. -/
def pwrState_state : Fld := ⟨2, 3, .ro, 0, false, false, false, false⟩
/-- Table 15.17, status. -/
def pwrState_status : Fld := ⟨5, 2, .ro, 0, false, false, false, false⟩
/-- Table 15.18, die. -/
def pwrResetCtl_die : Fld := ⟨0, 20, .wo, 0, false, false, false, false⟩
/-- Table 15.18, job. -/
def pwrResetCtl_job : Fld := ⟨20, 1, .wo, 0, false, false, false, false⟩
/-- Table 15.18, in_reset. -/
def pwrResetCtl_in_reset : Fld := ⟨32, 20, .ro, 0, false, false, false, false⟩
/-- Table 15.19, die. -/
def pwrCoreReset_die : Fld := ⟨0, 4, .rw, 0, false, false, false, false⟩
/-- Table 15.19, core. -/
def pwrCoreReset_core : Fld := ⟨4, 6, .rw, 0, false, false, false, false⟩
/-- Table 15.19, go. -/
def pwrCoreReset_go : Fld := ⟨10, 1, .wo, 0, false, false, false, false⟩
/-- Table 15.19, busy. -/
def pwrCoreReset_busy : Fld := ⟨11, 1, .ro, 0, false, false, false, false⟩
/-- Table 15.20, power_w. -/
def pwrInput_power_w : Fld := ⟨0, 16, .ro, 0, false, false, false, false⟩
/-- Table 15.20, volts. -/
def pwrInput_volts : Fld := ⟨16, 16, .ro, 0, false, false, false, false⟩
/-- Table 15.20, aux_w. -/
def pwrInput_aux_w : Fld := ⟨32, 16, .ro, 0, false, false, false, false⟩
/-- Table 15.20, peak_w. -/
def pwrInput_peak_w : Fld := ⟨48, 16, .rc, 0, false, false, false, false⟩
/-- Table 15.21, hot. -/
def pwrThermCfg_hot : Fld := ⟨0, 8, .rw, 0x64, false, true, true, true⟩
/-- Table 15.21, rate. -/
def pwrThermCfg_rate : Fld := ⟨8, 8, .rw, 0x28, false, true, true, true⟩
/-- Table 15.21, resume. -/
def pwrThermCfg_resume : Fld := ⟨16, 8, .rw, 0x5f, false, true, true, true⟩
/-- Table 15.22, cause. -/
def pwrResetCause_cause : Fld := ⟨0, 8, .ro, 0, true, true, true, true⟩
/-- Table 15.23, rung. -/
def pwrDieThrottle_rung : Fld := ⟨0, 3, .ro, 0, false, false, true, false⟩
/-- Table 15.23, temp. -/
def pwrDieThrottle_temp : Fld := ⟨8, 8, .ro, 0, false, false, false, false⟩
/-- Table 15.23, cause. -/
def pwrDieThrottle_cause : Fld := ⟨16, 4, .ro, 0, false, false, false, false⟩
/-- Table 15.23, tripped. -/
def pwrDieThrottle_tripped : Fld := ⟨20, 1, .ro, 0, false, false, false, false⟩
/-- Table 15.23, events. -/
def pwrDieThrottle_events : Fld := ⟨32, 16, .rc, 0, false, false, false, false⟩
/-- Table 16.13, stage. -/
def secBootStatus_stage : Fld := ⟨0, 4, .ro, 0, false, false, false, false⟩
/-- Table 16.13, warm. -/
def secBootStatus_warm : Fld := ⟨4, 1, .ro, 0, false, false, false, false⟩
/-- Table 16.13, die_fail. -/
def secBootStatus_die_fail : Fld := ⟨8, 20, .ro, 0, false, false, false, false⟩
/-- Table 16.13, boot_ms. -/
def secBootStatus_boot_ms : Fld := ⟨32, 32, .ro, 0, false, false, false, false⟩
/-- Table 16.14, running. -/
def secFwVersion_running : Fld := ⟨0, 32, .ro, 0, false, false, false, false⟩
/-- Table 16.14, nor_version. -/
def secFwVersion_nor_version : Fld := ⟨32, 32, .ro, 0, false, false, false, false⟩
/-- Table 16.15, fused. -/
def secSvn_fused : Fld := ⟨0, 8, .ro, 0, true, true, true, true⟩
/-- Table 16.15, image. -/
def secSvn_image : Fld := ⟨8, 8, .ro, 0, false, false, false, false⟩
/-- Table 16.15, advance. -/
def secSvn_advance : Fld := ⟨16, 1, .wo, 0, false, false, false, false⟩
/-- Table 16.16, addr. -/
def secFwStageAddr_addr : Fld := ⟨12, 52, .rw, 0, false, false, true, true⟩
/-- Table 16.17, length_pages. -/
def secFwCtl_length_pages : Fld := ⟨0, 12, .rw, 0, false, false, true, true⟩
/-- Table 16.17, go. -/
def secFwCtl_go : Fld := ⟨12, 1, .wo, 0, false, false, false, false⟩
/-- Table 16.17, force_recovery. -/
def secFwCtl_force_recovery : Fld := ⟨13, 1, .rw, 0, true, true, true, true⟩
/-- Table 16.17, status. -/
def secFwCtl_status : Fld := ⟨16, 3, .ro, 0, false, false, true, true⟩
/-- Table 16.17, owner. -/
def secFwCtl_owner : Fld := ⟨19, 1, .ro, 0, false, false, true, true⟩
/-- Table 16.18, chunk. -/
def secRecoveryCtl_chunk : Fld := ⟨0, 5, .rw, 0, false, false, false, false⟩
/-- Table 16.18, load. -/
def secRecoveryCtl_load : Fld := ⟨5, 1, .wo, 0, false, false, false, false⟩
/-- Table 16.18, commit. -/
def secRecoveryCtl_commit : Fld := ⟨6, 1, .wo, 0, false, false, false, false⟩
/-- Table 16.18, length_pages. -/
def secRecoveryCtl_length_pages : Fld := ⟨7, 12, .rw, 0, false, false, false, false⟩
/-- Table 16.18, status. -/
def secRecoveryCtl_status : Fld := ⟨19, 3, .ro, 0, false, false, false, false⟩
/-- Table 16.19, unlocked. -/
def secDebugStatus_unlocked : Fld := ⟨0, 1, .ro, 0, false, true, true, true⟩
/-- Table 16.19, armed. -/
def secDebugStatus_armed : Fld := ⟨1, 1, .ro, 0, true, true, true, true⟩
/-- Table 16.19, scope. -/
def secDebugStatus_scope : Fld := ⟨2, 8, .ro, 0, true, true, true, true⟩
/-- Table 16.19, refused. -/
def secDebugStatus_refused : Fld := ⟨32, 16, .rc, 0, false, true, true, true⟩
/-- Table 16.20, nonce. -/
def secDebugNonce_nonce : Fld := ⟨0, 64, .ro, 0, false, false, false, false⟩
/-- Table 16.21, go. -/
def secDebugToken_go : Fld := ⟨0, 1, .wo, 0, false, false, false, false⟩
/-- Table 16.21, addr. -/
def secDebugToken_addr : Fld := ⟨12, 52, .rw, 0, false, false, false, false⟩
/-- Table 16.22, fired. -/
def secWdogStatus_fired : Fld := ⟨0, 20, .rc, 0, true, true, true, true⟩
/-- Table 18.6, head. -/
def errRingStatus_head : Fld := ⟨0, 12, .ro, 0, true, true, true, true⟩
/-- Table 18.6, suppressed. -/
def errRingStatus_suppressed : Fld := ⟨16, 16, .rc, 0, true, true, true, true⟩
/-- Table 18.6, seq. -/
def errRingStatus_seq : Fld := ⟨32, 32, .ro, 0, true, true, true, true⟩
/-- Table 18.7, page. -/
def errRingPage_page : Fld := ⟨0, 2, .rw, 0, true, true, true, true⟩
/-- Table 18.8, vector. -/
def errVector_vector : Fld := ⟨0, 8, .rw, 0, false, false, true, true⟩
/-- Table 18.8, enable. -/
def errVector_enable : Fld := ⟨8, 1, .rw, 0, false, false, true, true⟩
/-- Table 18.9, code. -/
def errWatchCfg_code : Fld := ⟨0, 16, .rw, 0, false, false, true, true⟩
/-- Table 18.9, enable. -/
def errWatchCfg_enable : Fld := ⟨16, 1, .rw, 0, false, false, true, true⟩
/-- Table 18.9, threshold. -/
def errWatchCfg_threshold : Fld := ⟨32, 16, .rw, 0, false, false, true, true⟩
/-- Table 18.9, window. -/
def errWatchCfg_window : Fld := ⟨48, 8, .rw, 0, false, false, true, true⟩
/-- Table 18.10, count. -/
def errWatchStatus_count : Fld := ⟨0, 16, .ro, 0, false, false, true, true⟩
/-- Table 18.10, tripped. -/
def errWatchStatus_tripped : Fld := ⟨16, 1, .w1c, 0, false, false, true, true⟩
/-- Table 18.11, count. -/
def errCount_count : Fld := ⟨0, 32, .rc, 0, true, true, true, true⟩
/-- Table 18.12, record. -/
def errRingWindow_record : Fld := ⟨0, 64, .ro, 0, true, true, true, true⟩

end F

/-- The fields of a register. -/
def Reg.fields : Reg → List Fld
  | .devId => [F.devId_vendor, F.devId_device]
  | .devStepping => [F.devStepping_minor, F.devStepping_major, F.devStepping_rom_version]
  | .devConfig => [F.devConfig_variant, F.devConfig_package_gib, F.devConfig_slot]
  | .devSetupLock => [F.devSetupLock_lock]
  | .devStallTimeout => [F.devStallTimeout_relay_ms, F.devStallTimeout_heat_ms, F.devStallTimeout_runner_ms, F.devStallTimeout_lap_ms]
  | .devScratch => [F.devScratch_value]
  | .cmpMemInterleave _ => [F.cmpMemInterleave_granule, F.cmpMemInterleave_pinned_channels]
  | .cmpProgStatus _ => [F.cmpProgStatus_valid, F.cmpProgStatus_bundles, F.cmpProgStatus_image_id]
  | .cmpCoreStatus _ => [F.cmpCoreStatus_state, F.cmpCoreStatus_array_busy, F.cmpCoreStatus_step_done]
  | .cmpCoreWait _ => [F.cmpCoreWait_cause]
  | .cmpCoreCtl _ => [F.cmpCoreCtl_halt, F.cmpCoreCtl_resume, F.cmpCoreCtl_step, F.cmpCoreCtl_kill]
  | .cmpCoreFreeze _ => [F.cmpCoreFreeze_runner, F.cmpCoreFreeze_code, F.cmpCoreFreeze_pc]
  | .cmpCoreDbgSel _ => [F.cmpCoreDbgSel_runner, F.cmpCoreDbgSel_class, F.cmpCoreDbgSel_index]
  | .cmpCoreDbgData _ => [F.cmpCoreDbgData_value]
  | .cmpCoreMtx _ => [F.cmpCoreMtx_interval, F.cmpCoreMtx_t0_class, F.cmpCoreMtx_t1_class, F.cmpCoreMtx_t0_pending, F.cmpCoreMtx_t1_pending, F.cmpCoreMtx_queued]
  | .cmpCoreOdrainAddr _ => [F.cmpCoreOdrainAddr_dest]
  | .cmpCoreOdrainCtl _ => [F.cmpCoreOdrainCtl_go, F.cmpCoreOdrainCtl_tile, F.cmpCoreOdrainCtl_type, F.cmpCoreOdrainCtl_rounding, F.cmpCoreOdrainCtl_status, F.cmpCoreOdrainCtl_scale]
  | .cmpCoreMtxScale _ _ => [F.cmpCoreMtxScale_scale_a, F.cmpCoreMtxScale_scale_b]
  | .cmpVecSeed _ => [F.cmpVecSeed_seed]
  | .cmpVecSnap _ => [F.cmpVecSnap_enable, F.cmpVecSnap_base]
  | .cmpVecGenCtl _ => [F.cmpVecGenCtl_reseed, F.cmpVecGenCtl_busy, F.cmpVecGenCtl_snap_valid_0, F.cmpVecGenCtl_snap_valid_1]
  | .lapCensusInstallAddr => [F.lapCensusInstallAddr_addr]
  | .lapCensusInstallCtl => [F.lapCensusInstallCtl_first, F.lapCensusInstallCtl_count, F.lapCensusInstallCtl_go, F.lapCensusInstallCtl_status]
  | .lapCensusCount => [F.lapCensusCount_installed]
  | .lapScaleTableBase => [F.lapScaleTableBase_base]
  | .lapScalePolicy _ => [F.lapScalePolicy_down_log2, F.lapScalePolicy_up_log2, F.lapScalePolicy_clean_laps, F.lapScalePolicy_b_min]
  | .lapStatus => [F.lapStatus_state, F.lapStatus_spec, F.lapStatus_cast, F.lapStatus_flags_old, F.lapStatus_flags_new, F.lapStatus_open_lap]
  | .lapNext => [F.lapNext_next]
  | .lapCount => [F.lapCount_dried, F.lapCount_skipped]
  | .lapCountDiscard => [F.lapCountDiscard_discarded]
  | .lapLastWipe => [F.lapLastWipe_flags, F.lapLastWipe_job_mask, F.lapLastWipe_lap]
  | .lapFirstFault => [F.lapFirstFault_addr]
  | .lapRecordBase => [F.lapRecordBase_base]
  | .lapClipBase => [F.lapClipBase_base]
  | .lapCtl => [F.lapCtl_unseal, F.lapCtl_sealed]
  | .lapRegionBase _ _ => [F.lapRegionBase_base]
  | .lapRegionCfg _ => [F.lapRegionCfg_pages, F.lapRegionCfg_kind, F.lapRegionCfg_check, F.lapRegionCfg_carry, F.lapRegionCfg_valid, F.lapRegionCfg_dry]
  | .colStatus _ => [F.colStatus_busy, F.colStatus_waiting, F.colStatus_timed_out]
  | .colTimeout _ => [F.colTimeout_ms]
  | .colCancelTag _ => [F.colCancelTag_tag, F.colCancelTag_lap]
  | .colCancelCtl _ => [F.colCancelCtl_go, F.colCancelCtl_status]
  | .colMissing _ => [F.colMissing_tag, F.colMissing_count]
  | .colLayout => [F.colLayout_current, F.colLayout_pending, F.colLayout_busy]
  | .colMirrorCtl => [F.colMirrorCtl_enable, F.colMirrorCtl_interval]
  | .colMirrorTmpl => [F.colMirrorTmpl_base]
  | .cmpHeatStatus _ => [F.cmpHeatStatus_posted, F.cmpHeatStatus_assigned, F.cmpHeatStatus_waiting]
  | .cmpStageCfg _ _ => [F.cmpStageCfg_dies, F.cmpStageCfg_valid, F.cmpStageCfg_f_auto, F.cmpStageCfg_b_auto, F.cmpStageCfg_f_reserve, F.cmpStageCfg_b_reserve]
  | .cmpStageQueue _ _ _ => [F.cmpStageQueue_base]
  | .memEccCtl => [F.memEccCtl_dram_mode, F.memEccCtl_pin_threshold]
  | .memScrubCfg => [F.memScrubCfg_dram_hours, F.memScrubCfg_sram_minutes]
  | .memRepairCfg => [F.memRepairCfg_row_ce_threshold, F.memRepairCfg_ppr_at_park]
  | .memDieStatus _ => [F.memDieStatus_trained, F.memDieStatus_self_refresh, F.memDieStatus_ppr_pending, F.memDieStatus_poisoned, F.memDieStatus_failed_channels]
  | .memDieCe _ => [F.memDieCe_dram, F.memDieCe_sram]
  | .memDieLastUe _ => [F.memDieLastUe_addr]
  | .memDieScrub _ => [F.memDieScrub_dram_passes, F.memDieScrub_sram_passes]
  | .memDieInjectAddr _ => [F.memDieInjectAddr_addr]
  | .memDieInjectCtl _ => [F.memDieInjectCtl_arm, F.memDieInjectCtl_mask]
  | .opxFibreStatus _ => [F.opxFibreStatus_state, F.opxFibreStatus_fec, F.opxFibreStatus_frozen_in, F.opxFibreStatus_frozen_out, F.opxFibreStatus_held, F.opxFibreStatus_paused_out, F.opxFibreStatus_reason, F.opxFibreStatus_swap_partner, F.opxFibreStatus_false_starts, F.opxFibreStatus_level_run]
  | .opxFibreCtl _ => [F.opxFibreCtl_thaw, F.opxFibreCtl_adopt, F.opxFibreCtl_retrain, F.opxFibreCtl_freeze, F.opxFibreCtl_pause, F.opxFibreCtl_peer_slot]
  | .opxFibreNibMap _ => [F.opxFibreNibMap_tx_on, F.opxFibreNibMap_rx_on, F.opxFibreNibMap_tx_active, F.opxFibreNibMap_rx_active]
  | .opxFibrePeer _ => [F.opxFibrePeer_coord, F.opxFibrePeer_phys_slot, F.opxFibrePeer_port, F.opxFibrePeer_fibre, F.opxFibrePeer_level, F.opxFibrePeer_valid]
  | .opxFibrePeerSerial _ => [F.opxFibrePeerSerial_serial]
  | .opxFibreErrcnt _ => [F.opxFibreErrcnt_crc_fail, F.opxFibreErrcnt_fec_ue, F.opxFibreErrcnt_replays, F.opxFibreErrcnt_c3_drop]
  | .opxChanStatus _ _ => [F.opxChanStatus_state, F.opxChanStatus_frozen_in, F.opxChanStatus_frozen_out, F.opxChanStatus_tx_nibs, F.opxChanStatus_rx_nibs, F.opxChanStatus_unacked]
  | .opxConfig => [F.opxConfig_coord, F.opxConfig_coord_valid, F.opxConfig_mode, F.opxConfig_short_fec, F.opxConfig_short_prefer, F.opxConfig_level, F.opxConfig_job]
  | .opxPlanStatus => [F.opxPlanStatus_lane_valid, F.opxPlanStatus_cabling_valid, F.opxPlanStatus_busy, F.opxPlanStatus_lane_crc]
  | .lgtCombStatus => [F.lgtCombStatus_active, F.lgtCombStatus_a_state, F.lgtCombStatus_b_state, F.lgtCombStatus_busy, F.lgtCombStatus_fibres_done, F.lgtCombStatus_a_p0, F.lgtCombStatus_b_p0, F.lgtCombStatus_a_faded, F.lgtCombStatus_b_faded]
  | .lgtCombCtl => [F.lgtCombCtl_auto, F.lgtCombCtl_spare_start, F.lgtCombCtl_spare_stop, F.lgtCombCtl_switch, F.lgtCombCtl_commission, F.lgtCombCtl_commission_src, F.lgtCombCtl_commission_status]
  | .lgtThresh => [F.lgtThresh_amber, F.lgtThresh_red, F.lgtThresh_floor, F.lgtThresh_slope_hours, F.lgtThresh_clear]
  | .lgtMon _ _ _ => [F.lgtMon_power, F.lgtMon_p0, F.lgtMon_slope, F.lgtMon_level, F.lgtMon_in_use]
  | .lgtFibreStatus _ => [F.lgtFibreStatus_source, F.lgtFibreStatus_held, F.lgtFibreStatus_tx_locked, F.lgtFibreStatus_rx_locked, F.lgtFibreStatus_unlocks]
  | .swlStatus _ => [F.swlStatus_state, F.swlStatus_version, F.swlStatus_rate, F.swlStatus_tx, F.swlStatus_rx, F.swlStatus_fallback, F.swlStatus_peer_version, F.swlStatus_trainings]
  | .swlCtl _ => [F.swlCtl_retrain, F.swlCtl_relearn, F.swlCtl_disable, F.swlCtl_rate_cap]
  | .swlRxExcl _ => [F.swlRxExcl_lanes]
  | .swlErrcnt _ => [F.swlErrcnt_crc_fail, F.swlErrcnt_naks, F.swlErrcnt_retrains, F.swlErrcnt_disagree]
  | .swlPeerCap _ _ => [F.swlPeerCap_bytes]
  | .swlArb _ => [F.swlArb_prio]
  | .cmpMeshArb _ _ => [F.swlArb_prio]
  | .hifLinkStatus => [F.hifLinkStatus_width, F.hifLinkStatus_speed, F.hifLinkStatus_cache, F.hifLinkStatus_mem, F.hifLinkStatus_degraded]
  | .hifQueueInstallAddr => [F.hifQueueInstallAddr_addr]
  | .hifQueueInstallCtl => [F.hifQueueInstallCtl_first, F.hifQueueInstallCtl_count, F.hifQueueInstallCtl_go, F.hifQueueInstallCtl_status]
  | .hifBlotterCq => [F.hifBlotterCq_queue, F.hifBlotterCq_enable, F.hifBlotterCq_lost]
  | .hifEmergencyHalt => [F.hifEmergencyHalt_halt, F.hifEmergencyHalt_release, F.hifEmergencyHalt_active, F.hifEmergencyHalt_done]
  | .hifQCtl _ => [F.hifQCtl_enable, F.hifQCtl_disable, F.hifQCtl_resume, F.hifQCtl_state, F.hifQCtl_privileged, F.hifQCtl_freeze_code, F.hifQCtl_freeze_index]
  | .hifQStatus _ => [F.hifQStatus_sq_head, F.hifQStatus_sq_tail, F.hifQStatus_cq_tail, F.hifQStatus_phase, F.hifQStatus_in_flight]
  | .mbxInPtr _ => [F.mbxInPtr_ptr]
  | .mbxInMeta _ => [F.mbxInMeta_tag, F.mbxInMeta_sender, F.mbxInMeta_full, F.mbxInMeta_collision, F.mbxInMeta_sender_reset]
  | .mbxInLegacyPtr => [F.mbxInPtr_ptr]
  | .mbxInLegacyMeta => [F.mbxInMeta_tag, F.mbxInMeta_sender, F.mbxInMeta_full, F.mbxInMeta_collision, F.mbxInMeta_sender_reset]
  | .mbxDoorbell => [F.mbxDoorbell_bits]
  | .mbxDbMask => [F.mbxDbMask_mask]
  | .mbxVector => [F.mbxVector_vector]
  | .mbxOutPtr _ => [F.mbxOutPtr_ptr]
  | .mbxOutMeta _ => [F.mbxOutMeta_tag]
  | .mbxOutState _ => [F.mbxOutState_state, F.mbxOutState_clear]
  | .mbxLegacyOutPtr _ => [F.mbxOutPtr_ptr]
  | .mbxLegacyOutMeta _ => [F.mbxOutMeta_tag]
  | .mbxLegacyOutState _ => [F.mbxOutState_state, F.mbxOutState_clear]
  | .timNow => [F.timNow_ns]
  | .timNowFrac => [F.timNowFrac_frac]
  | .timStatus => [F.timStatus_state, F.timStatus_pacer, F.timStatus_pps_locked, F.timStatus_hops, F.timStatus_parent_fibre, F.timStatus_offset, F.timStatus_delay]
  | .timPacer => [F.timPacer_coord, F.timPacer_named, F.timPacer_valid]
  | .timCtl => [F.timCtl_pps_out, F.timCtl_tenm_out, F.timCtl_tod_out, F.timCtl_pps_in, F.timCtl_pps_in_edge, F.timCtl_cable_ns]
  | .timSet => [F.timSet_ns]
  | .pwrMode => [F.pwrMode_mode, F.pwrMode_current, F.pwrMode_changing]
  | .pwrState => [F.pwrState_request, F.pwrState_state, F.pwrState_status]
  | .pwrResetCtl => [F.pwrResetCtl_die, F.pwrResetCtl_job, F.pwrResetCtl_in_reset]
  | .pwrCoreReset => [F.pwrCoreReset_die, F.pwrCoreReset_core, F.pwrCoreReset_go, F.pwrCoreReset_busy]
  | .pwrInput => [F.pwrInput_power_w, F.pwrInput_volts, F.pwrInput_aux_w, F.pwrInput_peak_w]
  | .pwrThermCfg => [F.pwrThermCfg_hot, F.pwrThermCfg_rate, F.pwrThermCfg_resume]
  | .pwrResetCause => [F.pwrResetCause_cause]
  | .pwrDieThrottle _ => [F.pwrDieThrottle_rung, F.pwrDieThrottle_temp, F.pwrDieThrottle_cause, F.pwrDieThrottle_tripped, F.pwrDieThrottle_events]
  | .secBootStatus => [F.secBootStatus_stage, F.secBootStatus_warm, F.secBootStatus_die_fail, F.secBootStatus_boot_ms]
  | .secFwVersion => [F.secFwVersion_running, F.secFwVersion_nor_version]
  | .secSvn => [F.secSvn_fused, F.secSvn_image, F.secSvn_advance]
  | .secFwStageAddr => [F.secFwStageAddr_addr]
  | .secFwCtl => [F.secFwCtl_length_pages, F.secFwCtl_go, F.secFwCtl_force_recovery, F.secFwCtl_status, F.secFwCtl_owner]
  | .secRecoveryCtl => [F.secRecoveryCtl_chunk, F.secRecoveryCtl_load, F.secRecoveryCtl_commit, F.secRecoveryCtl_length_pages, F.secRecoveryCtl_status]
  | .secDebugStatus => [F.secDebugStatus_unlocked, F.secDebugStatus_armed, F.secDebugStatus_scope, F.secDebugStatus_refused]
  | .secDebugNonce => [F.secDebugNonce_nonce]
  | .secDebugToken => [F.secDebugToken_go, F.secDebugToken_addr]
  | .secWdogStatus => [F.secWdogStatus_fired]
  | .errRingStatus => [F.errRingStatus_head, F.errRingStatus_suppressed, F.errRingStatus_seq]
  | .errRingPage => [F.errRingPage_page]
  | .errVector => [F.errVector_vector, F.errVector_enable]
  | .errWatchCfg _ => [F.errWatchCfg_code, F.errWatchCfg_enable, F.errWatchCfg_threshold, F.errWatchCfg_window]
  | .errWatchStatus _ => [F.errWatchStatus_count, F.errWatchStatus_tripped]
  | .errCount _ => [F.errCount_count]
  | .errRingWindow _ _ => [F.errRingWindow_record]

/-- The index of an offset in an array of registers: stride `st`, indices `lo` to `hi` - 1, registers at `base`. -/
def slotOf (off base st lo hi : Nat) : Option Nat :=
  if base ≤ off ∧ (off - base) % st = 0 ∧ lo ≤ (off - base) / st ∧ (off - base) / st < hi then some ((off - base) / st) else none

/-- The registers of a die's CMP block at offset `o` within it (Tables 2.4, 3.17, 5.10 to 5.12, 9.7 to 9.9, 13.21, and the core groups). -/
def cmpAt (d o : Nat) : Option Reg :=
  if o < 0x1000 then
    match o with
    | 0x100 => some (.cmpMemInterleave d)
    | 0x200 => some (.cmpProgStatus d)
    | 0x300 => some (.cmpVecSeed d)
    | 0x308 => some (.cmpVecSnap d)
    | 0x310 => some (.cmpVecGenCtl d)
    | 0x400 => some (.cmpHeatStatus d)
    | _ =>
      if 0x500 ≤ o ∧ o < 0x700 then
        let s := (o - 0x500) / 0x40
        match (o - 0x500) % 0x40 with
        | 0 => some (.cmpStageCfg d s)
        | 0x08 => some (.cmpStageQueue d s 0)
        | 0x10 => some (.cmpStageQueue d s 1)
        | 0x18 => some (.cmpStageQueue d s 2)
        | 0x20 => some (.cmpStageQueue d s 3)
        | _ => none
      else (slotOf o 0x700 8 0 80).map (.cmpMeshArb d)
  else if o < 0x5000 then
    let k := d * 64 + (o - 0x1000) / 0x100
    match (o - 0x1000) % 0x100 with
    | 0x0 => some (.cmpCoreStatus k)
    | 0x8 => some (.cmpCoreWait k)
    | 0x10 => some (.cmpCoreCtl k)
    | 0x18 => some (.cmpCoreFreeze k)
    | 0x20 => some (.cmpCoreDbgSel k)
    | 0x28 => some (.cmpCoreDbgData k)
    | 0x30 => some (.cmpCoreMtx k)
    | 0x38 => some (.cmpCoreOdrainAddr k)
    | 0x40 => some (.cmpCoreOdrainCtl k)
    | 0x48 => some (.cmpCoreMtxScale k 0)
    | 0x50 => some (.cmpCoreMtxScale k 1)
    | _ => none
  else none

/-- The registers of the DEV block (R38). -/
def devAt (off : Nat) : Option Reg :=
  match off with
  | 0x0 => some .devId
  | 0x4 => some .devStepping
  | 0x8 => some .devConfig
  | 0x10 => some .devSetupLock
  | 0x18 => some .devStallTimeout
  | 0x20 => some .devScratch
  | _ => none

/-- The registers of the HIF block (R38). -/
def hifAt (off : Nat) : Option Reg :=
  match off with
  | 0x10000 => some .hifLinkStatus
  | 0x10008 => some .hifQueueInstallAddr
  | 0x10010 => some .hifQueueInstallCtl
  | 0x10018 => some .hifBlotterCq
  | 0x10020 => some .hifEmergencyHalt
  | _ =>
    (slotOf off 0x11000 0x10 0 128).map .hifQCtl <|>
    (slotOf off 0x11008 0x10 0 128).map .hifQStatus

/-- The registers of the MBX block (R38). -/
def mbxAt (off : Nat) : Option Reg :=
  match off with
  | 0x20400 => some .mbxInLegacyPtr
  | 0x20408 => some .mbxInLegacyMeta
  | 0x20500 => some .mbxDoorbell
  | 0x20508 => some .mbxDbMask
  | 0x20510 => some .mbxVector
  | _ =>
    (slotOf off 0x20000 0x20 1 22).map .mbxInPtr <|>
    (slotOf off 0x20008 0x20 1 22).map .mbxInMeta <|>
    (slotOf off 0x21000 0x20 1 22).map .mbxOutPtr <|>
    (slotOf off 0x21008 0x20 1 22).map .mbxOutMeta <|>
    (slotOf off 0x21010 0x20 1 22).map .mbxOutState <|>
    (slotOf off 0x22000 0x20 1 22).map .mbxLegacyOutPtr <|>
    (slotOf off 0x22008 0x20 1 22).map .mbxLegacyOutMeta <|>
    (slotOf off 0x22010 0x20 1 22).map .mbxLegacyOutState

/-- The registers of the TIM block (R38). -/
def timAt (off : Nat) : Option Reg :=
  match off with
  | 0x40000 => some .timNow
  | 0x40008 => some .timNowFrac
  | 0x40010 => some .timStatus
  | 0x40018 => some .timPacer
  | 0x40020 => some .timCtl
  | 0x40028 => some .timSet
  | _ => none

/-- The registers of the PWR block (R38). -/
def pwrAt (off : Nat) : Option Reg :=
  match off with
  | 0x50000 => some .pwrMode
  | 0x50008 => some .pwrState
  | 0x50010 => some .pwrResetCtl
  | 0x50018 => some .pwrCoreReset
  | 0x50020 => some .pwrInput
  | 0x50028 => some .pwrThermCfg
  | 0x50030 => some .pwrResetCause
  | _ =>
    (slotOf off 0x50100 0x8 0 20).map .pwrDieThrottle

/-- The registers of the ERR block (R38). -/
def errAt (off : Nat) : Option Reg :=
  match off with
  | 0x60000 => some .errRingStatus
  | 0x60008 => some .errRingPage
  | 0x60010 => some .errVector
  | _ =>
    (slotOf off 0x60100 0x10 0 16).map .errWatchCfg <|>
    (slotOf off 0x60108 0x10 0 16).map .errWatchStatus <|>
    (slotOf off 0x68000 0x4 0 3328).map .errCount <|>
    (if 0x70000 ≤ off ∧ off < 0x80000 then (slotOf ((off - 0x70000) % 0x40) 0 0x8 0 8).map (.errRingWindow ((off - 0x70000) / 0x40)) else none)

/-- The registers of the SEC block (R38). -/
def secAt (off : Nat) : Option Reg :=
  match off with
  | 0x80000 => some .secBootStatus
  | 0x80008 => some .secFwVersion
  | 0x80010 => some .secSvn
  | 0x80018 => some .secFwStageAddr
  | 0x80020 => some .secFwCtl
  | 0x80028 => some .secRecoveryCtl
  | 0x80030 => some .secDebugStatus
  | 0x80038 => some .secDebugNonce
  | 0x80040 => some .secDebugToken
  | 0x80048 => some .secWdogStatus
  | _ => none

/-- The registers of the MEM block (R38). -/
def memAt (off : Nat) : Option Reg :=
  match off with
  | 0x100000 => some .memEccCtl
  | 0x100008 => some .memScrubCfg
  | 0x100010 => some .memRepairCfg
  | _ =>
    (slotOf off 0x108000 0x8000 0 16).map .memDieStatus <|>
    (slotOf off 0x108008 0x8000 0 16).map .memDieCe <|>
    (slotOf off 0x108010 0x8000 0 16).map .memDieLastUe <|>
    (slotOf off 0x108018 0x8000 0 16).map .memDieScrub <|>
    (slotOf off 0x108020 0x8000 0 16).map .memDieInjectAddr <|>
    (slotOf off 0x108028 0x8000 0 16).map .memDieInjectCtl

/-- The registers of the COL block (R38). -/
def colAt (off : Nat) : Option Reg :=
  match off with
  | 0x201000 => some .colLayout
  | 0x201008 => some .colMirrorCtl
  | 0x201010 => some .colMirrorTmpl
  | _ =>
    (slotOf off 0x200000 0x40000 0 4).map .colStatus <|>
    (slotOf off 0x200008 0x40000 0 4).map .colTimeout <|>
    (slotOf off 0x200010 0x40000 0 4).map .colCancelTag <|>
    (slotOf off 0x200018 0x40000 0 4).map .colCancelCtl <|>
    (slotOf off 0x200020 0x40000 0 4).map .colMissing

/-- The registers of the LAP block (R38). -/
def lapAt (off : Nat) : Option Reg :=
  match off with
  | 0x380000 => some .lapCensusInstallAddr
  | 0x380008 => some .lapCensusInstallCtl
  | 0x380010 => some .lapCensusCount
  | 0x380020 => some .lapScaleTableBase
  | 0x300000 => some .lapStatus
  | 0x300008 => some .lapNext
  | 0x300010 => some .lapCount
  | 0x300018 => some .lapCountDiscard
  | 0x300020 => some .lapLastWipe
  | 0x300028 => some .lapFirstFault
  | 0x300030 => some .lapRecordBase
  | 0x300038 => some .lapClipBase
  | 0x300040 => some .lapCtl
  | _ =>
    (slotOf off 0x380100 0x8 1 4).map .lapScalePolicy <|>
    (if 0x301000 ≤ off ∧ off < 0x301800 then (slotOf ((off - 0x301000) % 0x20) 0 0x8 0 2).map (.lapRegionBase ((off - 0x301000) / 0x20)) else none) <|>
    (slotOf off 0x301010 0x20 0 64).map .lapRegionCfg

/-- The registers of the OPX block (R38). -/
def opxAt (off : Nat) : Option Reg :=
  match off with
  | 0x41c000 => some .opxConfig
  | 0x41c008 => some .opxPlanStatus
  | _ =>
    (slotOf off 0x400000 0x1000 0 24).map .opxFibreStatus <|>
    (slotOf off 0x400008 0x1000 0 24).map .opxFibreCtl <|>
    (slotOf off 0x400010 0x1000 0 24).map .opxFibreNibMap <|>
    (slotOf off 0x400018 0x1000 0 24).map .opxFibrePeer <|>
    (slotOf off 0x400020 0x1000 0 24).map .opxFibrePeerSerial <|>
    (slotOf off 0x400028 0x1000 0 24).map .opxFibreErrcnt <|>
    (if 0x418000 ≤ off ∧ off < 0x41c000 then (slotOf ((off - 0x418000) % 0x1000) 0 0x8 0 64).map (.opxChanStatus ((off - 0x418000) / 0x1000)) else none)

/-- The registers of the LGT block (R38). -/
def lgtAt (off : Nat) : Option Reg :=
  match off with
  | 0x600000 => some .lgtCombStatus
  | 0x600008 => some .lgtCombCtl
  | 0x600010 => some .lgtThresh
  | _ =>
    (if 0x610000 ≤ off ∧ off < 0x650000 ∧ (off - 0x610000) % 0x10000 < 0x800 then (slotOf (((off - 0x610000) % 0x10000) % 0x400) 0 0x8 0 72).map (.lgtMon ((off - 0x610000) / 0x10000) (((off - 0x610000) % 0x10000) / 0x400)) else none) <|>
    (slotOf off 0x680000 0x100 0 24).map .lgtFibreStatus

/-- The registers of the SWL block (R38). -/
def swlAt (off : Nat) : Option Reg :=
  match off with
  | _ =>
    (slotOf off 0x700000 0x800 0 448).map .swlStatus <|>
    (slotOf off 0x700008 0x800 0 448).map .swlCtl <|>
    (slotOf off 0x700010 0x800 0 448).map .swlRxExcl <|>
    (slotOf off 0x700018 0x800 0 448).map .swlErrcnt <|>
    (if 0x700040 ≤ off ∧ off < 0x7e0040 then (slotOf ((off - 0x700040) % 0x800) 0 0x8 0 8).map (.swlPeerCap ((off - 0x700040) / 0x800)) else none) <|>
    (slotOf off 0x700080 0x800 0 448).map .swlArb

/-- The register at an offset of BAR0 (Table 1.9); none is an unassigned offset (R39). -/
def regAt (off : Nat) : Option Reg :=
  if off < 0x10000 then devAt off else
  if off < 0x20000 then hifAt off else
  if off < 0x40000 then mbxAt off else
  if off < 0x50000 then timAt off else
  if off < 0x60000 then pwrAt off else
  if off < 0x80000 then errAt off else
  if off < 0x100000 then secAt off else
  if off < 0x200000 then memAt off else
  if off < 0x300000 then colAt off else
  if off < 0x400000 then lapAt off else
  if off < 0x600000 then opxAt off else
  if off < 0x700000 then lgtAt off else
  if off < 0x800000 then swlAt off else
  if off < 0x900000 then cmpAt ((off - 0x800000) / 0x10000) ((off - 0x800000) % 0x10000) else none

end Sys2Proof.Machine
end

