-- ==== Sys2Proof/Machine/PartsClock.lean ====
section
/-! DEFINITION. The parts of the state that belong to clocks, fabric time, supplies, resets and power states (R424 to R491). -/

namespace Sys2Proof.Machine

/-- What a peer's last time message said of it (R432): hops to the pacer, the pacer it names, and its own coordinate. -/
structure Heard where
  hops : Nat
  pacer : Nat
  coord : Nat
  deriving DecidableEq, Repr

/-- Split markers of one link (R433): the number of this side's last marker with the time it left, and of the peer's with the time it
arrived; a time is in units of 2^-16 ns. -/
structure Split where
  sent : Nat
  sentAt : Nat
  seen : Nat
  seenAt : Nat
  deriving DecidableEq, Repr

/-- Fabric time (R430 to R439): nanoseconds and 2^-16 parts (the counter of ED0); what remains to be
steered, in 2^-16 ns, and the most a nanosecond may be steered by; split markers and peers heard by link; the link to the parent; when
the offset last came within 4 ns; edges of PPS_IN off time in a row; whether 0x0B04 has been recorded since the last parent; the time named by the last TIM_PPS_OUT rise;
how far each die's counter is from that of ED0, in 2^-16 ns. -/
structure Clock where
  ns : Nat
  frac : Nat
  steer : Int
  steerMax : Nat
  splits : Tab Split
  heard : Tab Heard
  parent : Option Nat
  nearSince : Option Nat
  badEdges : Nat
  noPath : Bool
  ppsNamed : Option Nat
  dieOff : Tab Int
  deriving DecidableEq, Repr

/-- A die in die warm reset (R441): its cause (as detail), whether the cause still holds it. -/
structure DieReset where
  cause : Nat
  held : Bool
  deriving DecidableEq, Repr

/-- Supplies, clocks, throttle rungs, resets in progress and power state (R424 to R429, R440 to R449, R475 to R487): islands' clocks in
kHz; dies on OSC-B; the rung each cause demands, key die * 4 + cause (0 rate, 1 hot, 2 ceiling, 3 supply), and when each last recorded; tripped dies; dies in reset; the mode
that a running change goes to; the power state entered; fields saved at park; readings of the 50 V and auxiliary inputs in 10 mV, the input switch, PWRGD; when 0x0C0A
was last recorded, whether it waits for the next boot; whether 0x0C0B stands recorded; SLOT_ID; dies that have neither reference; the core that is being reset. -/
structure Power where
  islands : Tab Nat
  onB : List Nat
  rungs : Tab Nat
  noted : Tab Nat
  tripped : List Nat
  resets : Tab DieReset
  nextMode : Option Nat
  target : Nat
  saved : List (Reg × Word)
  volts : Nat
  auxVolts : Nat
  switchOpen : Bool
  pwrgd : Bool
  ovAt : Option Nat
  ovAtBoot : Bool
  auxNoted : Bool
  slotId : Nat
  noRef : List Nat
  resetCore : Option Nat
  deriving DecidableEq, Repr

/-- What the part itself is (R26, Tables 1.11 and 1.12, R490): variant (0 ZK2416-GA), stepping, ROM version and serial. -/
structure PartId where
  variant : Nat
  stepMinor : Nat
  stepMajor : Nat
  rom : Nat
  serial : BitVec 64
  deriving DecidableEq, Repr

/-- Boot, firmware, identity, debug and management (R453 to R473): the part; the image slot of the SPI NOR and the image that runs, as bytes; the staging
buffer and the recovery window, as sparse memories; whether the management controller's image was the last staged; dies whose processor start has been retried; measurements;
the stage of each transport's SPDM connection (0 none, 1 after GET_VERSION, 2 after GET_CAPABILITIES, 3 after NEGOTIATE_ALGORITHMS); the MCTP endpoint id and dynamic address; revoked key hashes; the PLDM sensor readings; the fused
SVN; an image being written came over the recovery loader. -/
structure Sec where
  part : PartId
  slot : List Byte
  running : List Byte
  staging : List Host.Cell
  stageLen : Nat
  window : List Host.Cell
  retried : List Nat
  measured : List (List Byte)
  spdm : Tab Nat
  eid : Nat
  dynAddr : Option Nat
  revoked : List Nat
  sensors : Tab Int
  svn : Nat
  loading : Bool
  deriving DecidableEq, Repr

end Sys2Proof.Machine
end

