-- ==== Sys2Proof/Machine/PartsOut.lean ====
section
/-! DEFINITION. What the block sends out: messages, flits, frames and pin changes, in the model's own list of what has left it. -/

namespace Sys2Proof.Machine

/-- The output pins of Table 17.8 that the module drives by rule; the two indicators are `indicators` of the state (R488). -/
inductive Pin where
  | pwrgd | thermtripN | ppsOut | tenM | alertN
  | csmEn (src : Nat)
  deriving DecidableEq, Repr

/-- What an indicator shows (R488). -/
inductive Lamp where
  | off | on | blink | slowBlink
  deriving DecidableEq, Repr

/-- A time message or other payload is carried whole. `link` is an optical link, `x` an end of a Sweyr link, `tr` an SPDM transport. -/
inductive Out where
  /-- An MSI-X message of a vector (R414, R420, R499). -/
  | msix (vector : Nat)
  /-- Data of a host CXL.mem read; poisoned data is marked (R46, R398, R399, R302). -/
  | hostData (data : List Byte) (poison : Bool)
  /-- The answer to a host snoop: whether a line was held and given up (R395). -/
  | snoopAnswer (addr : Nat) (held : Bool)
  /-- A control command on a link's control nib, in 4 consecutive flits (R316, R317). -/
  | control (link nib cmd arg : Nat)
  /-- A negotiation flit (R333). -/
  | negotiation (link : Nat) (n : Nego)
  /-- An identity block (R334). -/
  | identity (link : Nat) (i : IdBlock)
  /-- A channel-open flit (R329): job, coordinate and physical slot. -/
  | channelOpen (link job coord phys : Nat)
  /-- A time message (R433). -/
  | timeMessage (link : Nat) (m : TimeMsg)
  /-- A link ack or nak with the credits it returns (R322). -/
  | linkAck (link seq : Nat) (nak : Bool) (c0 c1 c2 : Nat)
  /-- A packet's flits from number `first` on, the sequence number of flit 0 given (R319 to R323): flit j goes whole on nib j mod n of the n given, each a link and a position.
  `again` marks a resend. -/
  | packet (ed chan seq : Nat) (p : Packet) (first : Nat) (nibs : List (Nat × Nat)) (again : Bool)
  /-- A management message handed to the firmware (R340, R375). -/
  | firmware (data : List Byte)
  /-- A Sweyr message's flits from number `first` on (R371, R373): the sequence number of that flit, and the ack they carry; `again` marks a resend. -/
  | sweyr (x op seq first : Nat) (m : SwlMsg) (ack : Option Nat) (again : Bool)
  /-- A Sweyr idle flit, sent for the ack that it carries (R373). -/
  | sweyrIdle (x : Nat) (ack : Option Nat)
  /-- A credit flit (R372): what it returns on each virtual channel, and the ack it carries. -/
  | sweyrCredit (x : Nat) (c : List Nat) (ack : Option Nat)
  /-- A nak (R373): the last sequence accepted in order, and the ack it carries. -/
  | sweyrNak (x seq : Nat) (ack : Option Nat)
  /-- The bytes that a READ asked for, put together by address, reach the master that asked for them (R378). -/
  | readBack (master tag addr : Nat) (data : List Byte)
  /-- A transmitter sends PRBS-23 on all 64 lanes for 65,536 unit intervals, at a rate code (R379). -/
  | trainPattern (x rate : Nat)
  /-- A sideband frame (R375): its kind as Table 13.8 numbers it, and its payload. -/
  | sideband (x kind : Nat) (data : List Byte)
  /-- An answer on the MCTP endpoint (R471 to R473). -/
  | mctp (kind : Nat) (data : List Byte)
  /-- An SPDM response (R467, R468): transport, request it answers, and payload. -/
  | spdm (tr code : Nat) (data : List Byte)
  /-- A pin takes a level. -/
  | pin (p : Pin) (high : Bool)
  /-- A frame on TIM_TOD_TX (R437). -/
  | tod (frame : List Byte)
  deriving DecidableEq, Repr

/-- An entry of the MSI-X table and its pending bit (R397, in the standard PCIe layout). -/
structure Msix where
  addr : BitVec 64
  data : BitVec 32
  ctl : BitVec 32
  pend : Bool
  deriving DecidableEq, Repr

end Sys2Proof.Machine
end

