-- ==== Sys2Proof/Machine/State.lean ====
section
/-! DEFINITION. The state of the ZK2416: the queue of waiting commands, every register, memory, unit and signal the spec gives the module, as plain
data, and the state after a cold reset. -/

namespace Sys2Proof.Machine

/-- No command of the spec stops the module: there is no fault to name. -/
inductive Fault where
  deriving DecidableEq, Repr

/-- Why a command has no meaning in the model. -/
inductive Refusal where
  /-- Raised by an arm of `exec` whose command the model does not give a meaning. Safe: the machine stops where the hardware goes on. -/
  | notModelled (mnemonic : String)
  deriving DecidableEq, Repr

/-- The state. Registers (`regs`) hold the fields that have no other home, and a register that is not listed holds its cold value; memory (`mem`) is keyed by device address (Table 2.1: LPDDR6, wells, folios, tiles
and host memory) in canonical form. Runners, cores and the rest are keyed by their numbers; one that is not listed is as it is after a reset.
`resp` is what the last register read returned, `out` everything sent, latest first, `nextId` the number of the next access, transfer, array operation or request, and `free` the model's own count of free values taken. -/
structure State where
  pending : List Instr
  regs : List (Reg × Word)
  mem : List Host.Cell
  resp : Word
  out : List Out
  nextId : Nat
  free : Nat
  turn : Nat
  runners : Tab Runner
  cores : Tab Core
  progs : Tab Prog
  hurdles : Tab Hurdle
  windows : Tab Window
  accesses : List Access
  shares : List Share
  launches : List Launch
  halts : List HaltReq
  newMaps : Tab (Nat × Word)
  host : HostSide
  msix : Tab Msix
  lap : LapBlock
  census : Census
  memp : MemProt
  relays : Relays
  heat : Heat
  fabric : Fabric
  light : Light
  sweyr : Sweyr
  clock : Clock
  power : Power
  sec : Sec
  blotter : Blotter
  deriving DecidableEq, Repr

/-- The lap block after reset (R206: Idle, unsealed). -/
def LapBlock.cold : LapBlock :=
  ⟨0, none, none, 0, 0, 0, 0, [], [], [], 0, none, [], none, []⟩

/-- The census after reset (Table 6.7: no slot installed, every count zero). -/
def Census.cold : Census := ⟨[], [], [], [], [], none⟩

/-- The optical fabric after reset (R310, Table 15.9: every link Dark, no plan, no coordinate). -/
def Fabric.cold : Fabric := ⟨[], [], none, [], [], 0, [], [], [], [], []⟩

/-- A comb source that is not fitted. -/
def Source.absent : Source := ⟨false, false, false, true, false, false⟩

/-- The light subsystem after reset: both sources' signals as an unfitted unit gives them (R348), nothing commissioned. -/
def Light.cold : Light :=
  ⟨[(0, Source.absent), (1, Source.absent)], [], ⟨false, false, 0, none, 0⟩, [], []⟩

/-- Fabric time after reset (Table 15.9: lost). -/
def Clock.cold : Clock := ⟨0, 0, 0, 0, [], [], none, none, 0, false, none, []⟩

/-- Supplies and power after reset. -/
def Power.cold : Power :=
  ⟨[], [], [], [], [], [], none, 0, [], 5000, 1200, false, false, none, false, false, 0, [], none⟩

/-- The security and management state after reset. -/
def Sec.cold : Sec :=
  ⟨⟨0, 0, 0, 0, 0⟩, [], [], [], 0, [], [], [], [], 0, none, [], [], 0, false⟩

/-- The blotter after reset: an empty ring (Table 18.6). -/
def Blotter.cold : Blotter := ⟨[], 0, [], []⟩

/-- The state right after a cold reset: every register field at its cold value (R13), nothing stored, nothing in flight, no command waiting. -/
def State.reset : State where
  pending := []
  regs := []
  mem := []
  resp := 0
  out := []
  nextId := 1
  free := 0
  turn := 0
  runners := []
  cores := []
  progs := []
  hurdles := []
  windows := []
  accesses := []
  shares := []
  launches := []
  halts := []
  newMaps := []
  host := ⟨[], [], [], [], ⟨[], [], [], [], [], []⟩, 127⟩
  msix := []
  lap := LapBlock.cold
  census := Census.cold
  memp := ⟨[], [], [], [], [], [], [], [], [], [], [], []⟩
  relays := ⟨[], []⟩
  heat := Heat.cold
  fabric := Fabric.cold
  light := Light.cold
  sweyr := ⟨[], [], [], [], [], []⟩
  clock := Clock.cold
  power := Power.cold
  sec := Sec.cold
  blotter := Blotter.cold

end Sys2Proof.Machine
end

