-- ==== Sys2Proof/Machine/Ops.lean ====
section
/-! DEFINITION. Operations every unit shares: tables, bit fields, byte order, memory, registers, outputs and the raising of errors. -/

namespace Sys2Proof

/-- The value of a key, or `d` where it is not listed. -/
def Tab.get {α : Type} (t : Tab α) (k : Nat) (d : α) : α :=
  match t.find? (fun p => p.1 == k) with
  | some p => p.2
  | none => d

/-- The value of a key, if listed. -/
def Tab.get? {α : Type} (t : Tab α) (k : Nat) : Option α :=
  (t.find? (fun p => p.1 == k)).map (·.2)

/-- The table without a key. -/
def Tab.del {α : Type} (t : Tab α) (k : Nat) : Tab α := t.filter (fun p => p.1 != k)

/-- The table with a key's value set. -/
def Tab.set {α : Type} (t : Tab α) (k : Nat) (v : α) : Tab α := (k, v) :: t.del k

end Sys2Proof

namespace Sys2Proof.Machine

/-! ### Bit fields and byte order -/

/-- Bits `lo` to `lo + w - 1` of a number. -/
def bits (v lo w : Nat) : Nat := v >>> lo % 2 ^ w

/-- The low `w` bits of a number as a two's complement integer. -/
def sint (w v : Nat) : Int :=
  let u := v % 2 ^ w
  if u < 2 ^ (w - 1) then (u : Int) else (u : Int) - (2 ^ w : Nat)

/-- An integer modulo 2^w. -/
def wrap (w : Nat) (i : Int) : Nat := (i % (2 ^ w : Nat)).toNat

/-- The `n` low bytes of a number, least significant first (R8). -/
def bytesLE : Nat → Nat → List Byte
  | 0, _ => []
  | n + 1, v => BitVec.ofNat 8 v :: bytesLE n (v / 256)

/-- The number that bytes spell, least significant first (R8). -/
def natLE : List Byte → Nat
  | [] => 0
  | b :: bs => b.toNat + 256 * natLE bs

/-- `n` bytes from offset `o` of a list of bytes, as a number; bytes past its end are 0. -/
def field (bs : List Byte) (o n : Nat) : Nat := natLE ((bs.drop o).take n)

/-- A list brought to a length: cut, or filled up with zero bytes. -/
def padTo (n : Nat) (bs : List Byte) : List Byte := (bs ++ List.replicate (n - bs.length) 0).take n

/-- A list cut into pieces of `n` elements, `k` of them. -/
def pieces {α : Type} (n : Nat) : Nat → List α → List (List α)
  | 0, _ => []
  | k + 1, l => l.take n :: pieces n k (l.drop n)

/-- One CRC-32C step over a byte (R369: the Castagnoli polynomial, reflected). -/
def crc32cByte (c : Nat) (b : Byte) : Nat :=
  (List.range 8).foldl (fun c _ => if c % 2 = 1 then (c / 2) ^^^ 0x82F63B78 else c / 2) (c ^^^ b.toNat)

/-- CRC-32C of bytes (R369: initial value and final exclusive OR all ones). -/
def crc32c (bs : List Byte) : Nat := (bs.foldl crc32cByte 0xFFFFFFFF) ^^^ 0xFFFFFFFF

/-- The greatest of a list of naturals, 0 for none. -/
def maxOf (l : List Nat) : Nat := l.foldl Nat.max 0

/-- The sum of a list of naturals. -/
def sumOf (l : List Nat) : Nat := l.foldl (fun a b => a + b) 0

/-- An insertion sort by a key, stable. -/
def insertBy {α : Type} (key : α → Nat) (x : α) : List α → List α
  | [] => [x]
  | y :: ys => if key x < key y then x :: y :: ys else y :: insertBy key x ys

/-- Sorted by a key, elements of one key in their order. -/
def sortBy {α : Type} (key : α → Nat) (l : List α) : List α := l.foldl (fun acc x => insertBy key x acc) []

/-! ### Memory -/

/-- A byte of memory. A byte that is not listed reads as 0 (DESIGN CHOICE, assumption 3). -/
def Mem.get (m : List Host.Cell) (a : Nat) : Byte :=
  match m.find? (fun c => c.1 == a) with
  | some c => c.2
  | none => 0

/-- `n` bytes of memory from an address. -/
def Mem.read (m : List Host.Cell) (a n : Nat) : List Byte :=
  let w := m.filter (fun c => a ≤ c.1 && c.1 < a + n)
  (List.range n).map (fun i => Mem.get w (a + i))

/-- Cells of consecutive bytes, those that are not 0. -/
def Mem.cells : Nat → List Byte → List Host.Cell
  | _, [] => []
  | a, b :: bs => if b = 0 then Mem.cells (a + 1) bs else (a, b) :: Mem.cells (a + 1) bs

/-- Memory with the cells of the `n` bytes from `a` replaced. -/
def Mem.put (m : List Host.Cell) (a n : Nat) (cs : List Host.Cell) : List Host.Cell :=
  m.filter (fun c => c.1 < a) ++ (cs ++ m.filter (fun c => a + n ≤ c.1))

/-- Memory with bytes written from an address on. -/
def Mem.write (m : List Host.Cell) (a : Nat) (bs : List Byte) : List Host.Cell :=
  Mem.put m a bs.length (Mem.cells a bs)

/-- Memory with `n` bytes from `a` zeroed. -/
def Mem.zero (m : List Host.Cell) (a n : Nat) : List Host.Cell := Mem.put m a n []

/-- Memory with `n` bytes copied from `src` to `dst`; the ranges do not overlap. -/
def Mem.copy (m : List Host.Cell) (dst src n : Nat) : List Host.Cell :=
  Mem.put m dst n ((m.filter (fun c => src ≤ c.1 && c.1 < src + n)).map (fun c => (c.1 - src + dst, c.2)))

/-- Strictly rising addresses, no listed byte 0: the canonical form of memory. -/
def Mem.wfFrom : Nat → List Host.Cell → Bool
  | _, [] => true
  | lo, c :: cs => decide (lo ≤ c.1) && c.2 != 0 && Mem.wfFrom (c.1 + 1) cs

/-- The canonical form of memory. -/
def Memory.wf (m : List Host.Cell) : Bool := Mem.wfFrom 0 m

/-- A number of `n` bytes read from memory. -/
def rdN (s : State) (a n : Nat) : Nat := natLE (Mem.read s.mem a n)

/-- A number written to memory as `n` bytes. -/
def wrN (s : State) (a n v : Nat) : State := { s with mem := Mem.write s.mem a (bytesLE n v) }

/-- Bytes written to memory. -/
def wrB (s : State) (a : Nat) (bs : List Byte) : State := { s with mem := Mem.write s.mem a bs }

/-! ### The address map (R42 to R44) -/

/-- What a device address names (Table 2.1). Cores are numbered within their die. -/
inductive Place where
  | lpddr (d o : Nat)
  | well (d cl o : Nat)
  | folio (d k o : Nat)
  | tiles (d k o : Nat)
  | host (a : Nat)
  | unmapped
  deriving DecidableEq, Repr

/-- Capacity of one LPDDR6 channel, `C` of R48. -/
def chanBytes (s : State) : Nat := if s.sec.part.variant = 0 then 12 * 2 ^ 30 else 6 * 2 ^ 30

/-- The decode of a device address (R42, R44). -/
def placeOf (s : State) (a : Nat) : Place :=
  if a < 0x600_0000_0000 then
    let o := a % 0x60_0000_0000
    if o < 32 * chanBytes s then .lpddr (a / 0x60_0000_0000) o else .unmapped
  else if 0x1000_0000_0000 ≤ a ∧ a < 0x1000_8000_0000 then
    let o := a - 0x1000_0000_0000
    .well (o / 0x800_0000) (o % 0x800_0000 / 0x100_0000) (o % 0x100_0000)
  else if 0x1100_0000_0000 ≤ a ∧ a < 0x1100_8000_0000 then
    let o := a - 0x1100_0000_0000
    .folio (o / 0x800_0000) (o % 0x800_0000 / 0x20_0000) (o % 0x20_0000)
  else if 0x1200_0000_0000 ≤ a ∧ a < 0x1200_8000_0000 then
    let o := a - 0x1200_0000_0000
    if o % 0x800_0000 < 0x100_0000 then .tiles (o / 0x800_0000) (o % 0x800_0000 / 0x4_0000) (o % 0x4_0000) else .unmapped
  else if 0x8000_0000_0000 ≤ a ∧ a < 0x1_0000_0000_0000 then .host (a - 0x8000_0000_0000)
  else .unmapped

/-- The compute die that owns an address, or 16 (ED0) for host memory. -/
def ownerOf (s : State) (a : Nat) : Option Nat :=
  match placeOf s a with
  | .lpddr d _ => some d
  | .well d _ _ => some d
  | .folio d _ _ => some d
  | .tiles d _ _ => some d
  | .host _ => some 16
  | .unmapped => none

/-- The addresses of a die, as spans (Table 2.1): a compute die's LPDDR6, wells, folios and tiles, and for 16 those of host memory. -/
def dieSpans (d : Nat) : List (Nat × Nat) :=
  if d < 16 then
    [(d * 0x60_0000_0000, 0x60_0000_0000), (0x1000_0000_0000 + d * 0x800_0000, 0x800_0000), (0x1100_0000_0000 + d * 0x800_0000, 0x800_0000),
      (0x1200_0000_0000 + d * 0x800_0000, 0x800_0000)]
  else if d = 16 then [(0x8000_0000_0000, 0x8000_0000_0000)] else []

/-- Whether any byte of a range lies in one of some spans. -/
def rangeMeets (a n : Nat) (spans : List (Nat × Nat)) : Bool := spans.any (fun p => decide (a < p.1 + p.2 ∧ p.1 < a + n))

/-- Address of the tile block of a global core (Table 2.1). -/
def tileBlock (k : Nat) : Nat := 0x1200_0000_0000 + k / 64 * 0x800_0000 + k % 64 * 0x4_0000

/-- Address of accumulator tile `t` of a core (Table 2.2). -/
def tileAddr (k t : Nat) : Nat := tileBlock k + t * 0x1_0000

/-- Address of vector register `v` of a core (Table 2.2). -/
def vregAddr (k v : Nat) : Nat := tileBlock k + 0x2_0000 + v * 0x1000

/-- Address of the folio of a core. -/
def folioAddr (k : Nat) : Nat := 0x1100_0000_0000 + k / 64 * 0x800_0000 + k % 64 * 0x20_0000

/-- Base of host memory (R47). -/
def hostBase : Nat := 0x8000_0000_0000

/-! ### Registers (R9 to R13, R38 to R40) -/

/-- A register's cold value. -/
def coldOf (r : Reg) : Word := r.fields.foldl (fun w f => w ||| (BitVec.ofNat 64 f.cold <<< f.lo)) 0

/-- What a register's own fields hold. -/
def regVal (s : State) (r : Reg) : Word :=
  match s.regs.find? (fun p => p.1 == r) with
  | some p => p.2
  | none => coldOf r

/-- A register's fields set. -/
def setReg (s : State) (r : Reg) (v : Word) : State :=
  { s with regs := (r, v) :: s.regs.filter (fun p => p.1 != r) }

/-- The mask of a field. -/
def Fld.mask (f : Fld) : Word := BitVec.ofNat 64 (2 ^ f.width - 1) <<< f.lo

/-- A field's value in a word. -/
def Fld.of (f : Fld) (w : Word) : Nat := (w >>> f.lo).toNat % 2 ^ f.width

/-- A word with a field's value replaced. -/
def Fld.into (f : Fld) (w : Word) (v : Nat) : Word :=
  (w &&& ~~~ f.mask) ||| ((BitVec.ofNat 64 v <<< f.lo) &&& f.mask)

/-- A field of a register. -/
def getF (s : State) (r : Reg) (f : Fld) : Nat := f.of (regVal s r)

/-- A field of a register, set. -/
def setF (s : State) (r : Reg) (f : Fld) (v : Nat) : State := setReg s r (f.into (regVal s r) v)

/-- A counting field raised by `n`, holding at its greatest value. -/
def bumpF (s : State) (r : Reg) (f : Fld) (n : Nat) : State := setF s r f (Nat.min (getF s r f + n) (2 ^ f.width - 1))

/-- Whether a bit field reads 1. -/
def flag (s : State) (r : Reg) (f : Fld) : Bool := getF s r f = 1

/-! ### Outputs and free values -/

/-- Something leaves the block. -/
def emit (o : Out) (s : State) : State := { s with out := o :: s.out }

/-- The next free value (assumption 2). -/
def freeOf (s : State) : Word := Config.freeValue s.free

/-- A free value has been taken. -/
def freeTaken (s : State) : State := { s with free := s.free + 1 }

/-- Effects in turn over a list. -/
def each {α : Type} (l : List α) (f : α → State → State) (s : State) : State := l.foldl (fun s x => f x s) s

/-! ### Dies, cores and runners -/

/-- A die in die warm reset, or whose reset is due at once (R40, R301, R441). -/
def inReset (s : State) (d : Nat) : Bool := (s.power.resets.get? d).isSome || s.memp.dead.any (·.1 == d)

/-- The dies that a power state gates (R448): 2 Park, 3 Deep park. -/
def gated (target d : Nat) : Bool := decide (d < 16) || (target == 3 && decide (17 ≤ d))

/-- Whether a die is power-gated (R448). -/
def gatedNow (s : State) (d : Nat) : Bool :=
  let st := getF s .pwrState F.pwrState_state
  (st == 2 && gated 2 d) || (st == 3 && gated 3 d)

/-- A write of a register has its effect where the register's die runs (R40, assumption 75). -/
def regWrite (r : Reg) (f : State → State) (s : State) : State := if inReset s r.holder || gatedNow s r.holder then s else f s

/-- A runner that has never been launched, or was freed: Free (R68), every register 0. -/
def Runner.free : Runner :=
  ⟨.free, 0, none, [], [], 0, 0, 0, 0, 0, 0, 0, 0, 0, [], none, false, false, false, false, 0⟩

/-- A runner. -/
def runnerAt (s : State) (w : Nat) : Runner := s.runners.get w Runner.free

/-- A runner changed. -/
def setRunner (s : State) (w : Nat) (r : Runner) : State := { s with runners := s.runners.set w r }

/-- A runner changed by a function. -/
def modRunner (w : Nat) (f : Runner → Runner) (s : State) : State := setRunner s w (f (runnerAt s w))

/-- A core's shared state as after a reset (Tables 4.6, 5.9). Its generators are those of its seed. -/
def Core.cold : Core := ⟨[], 0, [], 1, [], [], [], none, [], 0, [], [], false, false, 0⟩

/-- A core. -/
def coreAt (s : State) (k : Nat) : Core := s.cores.get k Core.cold

/-- A core changed. -/
def setCore (s : State) (k : Nat) (c : Core) : State := { s with cores := s.cores.set k c }

/-- A core changed by a function. -/
def modCore (k : Nat) (f : Core → Core) (s : State) : State := setCore s k (f (coreAt s k))

/-- The global core of a global runner (Table 3.12). -/
def coreOf (w : Nat) : Nat := w / 16

/-- The compute die of a global runner. -/
def dieOfRunner (w : Nat) : Nat := w / 1024

/-- Global core numbers of a compute die. -/
def coresOfDie (d : Nat) : List Nat := (List.range 64).map (d * 64 + ·)

/-- Global runner numbers of a core. -/
def runnersOf (k : Nat) : List Nat := (List.range 16).map (k * 16 + ·)

/-! ### Errors (R492 to R499) -/

/-- Containment letters of Table 18.3 as byte 2 of a record codes them (Table 18.1). -/
def contL : Nat := 0
def contX : Nat := 1
def contE : Nat := 2
def contF : Nat := 3
def contV : Nat := 4
def contQ : Nat := 5
def contD : Nat := 6
def contM : Nat := 7

/-- An MSI-X vector is signalled: its message is sent, or its pending bit set while it is masked (R414, in the standard PCIe layout). A vector's entry comes up masked (PRESUMED, assumption 9). -/
def signalVector (v : Nat) (s : State) : State :=
  let e := s.msix.get v ⟨0, 0, 1, false⟩
  if e.ctl.getLsbD 0 then { s with msix := s.msix.set v { e with pend := true } } else emit (.msix v) s

/-- The fabric time of ED0 in ns (R430). -/
def nowNs (s : State) : Nat := s.clock.ns

/-- The fabric time of a die's own counter in ns (R430). -/
def dieNs (s : State) (d : Nat) : Nat := (((s.clock.ns * 65536 + s.clock.frac : Nat) : Int) + s.clock.dieOff.get d 0).toNat / 65536

/-- A code's counter index (R498). -/
def countIndex (code : Nat) : Nat := (code / 256 - 1) * 256 + code % 256

/-- Whether R496 suppresses a record: containment L or X, and 64 of its code from its die in the running second. -/
def suppressed (s : State) (e : Err) : Bool :=
  decide (e.cont ≤ 1) && s.blotter.second == nowNs s / 10 ^ 9 && decide (64 ≤ s.blotter.supp.get (e.die * 65536 + e.code) 0)

/-- Whether a record's blotter event goes to the host (R411): HIF_BLOTTER_CQ is enabled, and names a queue that has rings. -/
def eventsOn (s : State) : Bool :=
  flag s .hifBlotterCq F.hifBlotterCq_enable &&
  (s.host.queues.get? (getF s .hifBlotterCq F.hifBlotterCq_queue)).any (fun r => r.state != .absent && r.state != .disabled)

/-- A raising is counted (R498) and written to the ring unless suppressed (R495, R496). -/
def record (e : Err) (s : State) : State :=
  let s := bumpF s (.errCount (countIndex e.code)) F.errCount_count 1
  if suppressed s e then bumpF s .errRingStatus F.errRingStatus_suppressed 1
  else
    let b := s.blotter
    let sec := nowNs s / 10 ^ 9
    let supp := if b.second = sec then b.supp else []
    let key := e.die * 65536 + e.code
    let seq := getF s .errRingStatus F.errRingStatus_seq
    let i := seq % 4096
    let s := { s with blotter := { b with
      ring := b.ring.set i ⟨e, seq, dieNs s e.die⟩, second := sec,
      supp := supp.set key (supp.get key 0 + 1),
      events := if eventsOn s then b.events ++ [i] else b.events } }
    setF (setF s .errRingStatus F.errRingStatus_seq (seq + 1)) .errRingStatus F.errRingStatus_head (i + 1)

/-- Whether watch `i` watches a code (R499). -/
def watches (s : State) (code i : Nat) : Bool :=
  flag s (.errWatchCfg i) F.errWatchCfg_enable && getF s (.errWatchCfg i) F.errWatchCfg_code == code

/-- A raising as watch `i` counts it; the second result says whether the watch trips. -/
def watchCount (i : Nat) (s : State) : State × Bool :=
  let n := getF s (.errWatchStatus i) F.errWatchStatus_count
  let s := bumpF s (.errWatchStatus i) F.errWatchStatus_count 1
  if n + 1 = getF s (.errWatchCfg i) F.errWatchCfg_threshold then (setF s (.errWatchStatus i) F.errWatchStatus_tripped 1, true)
  else (s, false)

/-- A raising, and the trips of watches it makes, to the depth given (a trip is itself a raising of 0x0A40). -/
def raiseN : Nat → Err → State → State
  | 0, e, s => record e s
  | n + 1, e, s =>
    ((List.range 16).filter (watches s e.code)).foldl (fun s i =>
      let (s, trip) := watchCount i s
      if trip then
        let s := raiseN n { code := 0x0A40, cont := contL, die := 16, detail := i * 2 ^ 40 + e.code * 2 ^ 48 } s
        if flag s .errVector F.errVector_enable then signalVector (getF s .errVector F.errVector_vector) s else s
      else s) (record e s)

/-- An error is raised (R492 to R499). A watch can trip once in a window, so the sixteen watches trip to a depth of at most sixteen. -/
def raise (e : Err) (s : State) : State := raiseN 17 e s

/-- A record of containment L from ED0 with nothing but its code. -/
def note (code : Nat) (s : State) : State := raise { code := code, cont := contL } s

/-- A record of containment X from ED0: a write, install or request rejected whole. -/
def reject (code : Nat) (s : State) : State := raise { code := code, cont := contX } s

end Sys2Proof.Machine
end

