-- ==== Sys2Proof/Machine/Mailboxes.lean ====
section
/-! DEFINITION. Mailboxes and doorbell bits (R417 to R422). Parties are those of Table 14.10. -/

namespace Sys2Proof.Machine

/-- An empty mailbox. -/
def Mailbox.empty : Mailbox := ⟨0, 0, 0, false, false, false⟩

/-- A sender's view of a mailbox it has never posted to. -/
def SendState.none : SendState := ⟨0, 0, 0⟩

/-- The mailbox state changed. -/
def modMbx (f : Mbx → Mbx) (s : State) : State := { s with host := { s.host with mbx := f s.host.mbx } }

/-- The die whose reset is a party's reset (Table 14.10, R421): none for the host and the management controller. -/
def partyDie (p : Nat) : Option Nat :=
  if p < 2 then none else if p < 6 then some (14 + p) else if p < 22 then some (p - 6) else none

/-- Whether a receiver is in reset. ED0's firmware is reset only by a module warm reset (R421). -/
def partyInReset (s : State) (p : Nat) : Bool := (partyDie p).any (inReset s)

/-- A party's doorbell bit sets; where it was clear and is unmasked the party is interrupted (R420): the host by MBX_VECTOR, the management
controller by MGMT_ALERT_N in SMBus mode (Table 17.8; I3C mode holds a dynamic address, R471). -/
def ring (p bit : Nat) (s : State) : State :=
  let old := s.host.mbx.bells.get p 0
  let mask := s.host.mbx.masks.get p 0xFFFFFFFF
  let s := modMbx (fun m => { m with bells := m.bells.set p (old ||| (1 <<< bit)) }) s
  if old.getLsbD bit || mask.getLsbD bit then s
  else if p = 0 then signalVector (getF s .mbxVector F.mbxVector_vector) s
  else if p = 1 ∧ s.sec.dynAddr = none then emit (.pin .alertN false) s
  else s

/-- A sender's notice is aborted (R421): its state says so, keeping pointer and tag, which on a private channel stay readable in the channel too
(Table 14.25); doorbell bit 31 sets and 0x0A32 is recorded. -/
def abortNotice (legacy : Bool) (sender receiver : Nat) (ptr : BitVec 64) (tag : BitVec 32) (s : State) : State :=
  let k := sender * 32 + receiver
  let s := modMbx (fun m =>
    if legacy then { m with sentLegacy := m.sentLegacy.set k ⟨ptr, tag, 2⟩ } else { m with sent := m.sent.set k ⟨ptr, tag, 2⟩, chan := m.chan.set k ⟨ptr, tag, sender, false, false, false⟩ }) s
  ring sender 31 (note 0x0A32 s)

/-- A post on a private channel (R418, R421, R422). -/
def mailboxPost (sender receiver : Nat) (ptr : BitVec 64) (tag : BitVec 32) (s : State) : State :=
  if sender ≥ 22 ∨ receiver ≥ 22 ∨ sender = receiver then s
  else
    let k := sender * 32 + receiver
    if partyInReset s receiver then abortNotice false sender receiver ptr tag s
    else if (s.host.mbx.chan.get k Mailbox.empty).full then reject 0x0A30 s
    else
      let s := modMbx (fun m => { m with
        chan := m.chan.set k ⟨ptr, tag, sender, true, false, false⟩
        sent := m.sent.set k ⟨ptr, tag, 1⟩ }) s
      ring receiver sender s

/-- A post to a legacy mailbox (R419, R421). -/
def legacyPost (sender receiver : Nat) (ptr : BitVec 64) (tag : BitVec 32) (s : State) : State :=
  if sender ≥ 22 ∨ receiver ≥ 22 ∨ sender = receiver then s
  else if partyInReset s receiver then abortNotice true sender receiver ptr tag s
  else
    let old := s.host.mbx.legacy.get receiver Mailbox.empty
    let s := if old.full then
        let k := old.sender * 32 + receiver
        note 0x0A31 (modMbx (fun m => { m with
          sentLegacy := m.sentLegacy.set k { m.sentLegacy.get k SendState.none with state := 3 } }) s)
      else s
    let s := modMbx (fun m => { m with
      legacy := m.legacy.set receiver ⟨ptr, tag, sender, true, old.collision || old.full, false⟩
      sentLegacy := m.sentLegacy.set (sender * 32 + receiver) ⟨ptr, tag, 1⟩ }) s
    ring receiver 28 s

/-- The word a receiver reads as tag word (Table 14.19). -/
def metaWord (b : Mailbox) : Word :=
  BitVec.ofNat 64 (b.tag.toNat + b.sender * 2 ^ 32 + b.full.toNat * 2 ^ 40 + b.collision.toNat * 2 ^ 41 + b.senderReset.toNat * 2 ^ 42)

/-- A receiver reads a tag word and so takes the notice (R418, R419): the legacy mailbox's where `sender` names no party. -/
def tagRead (receiver sender : Nat) (s : State) : State :=
  if receiver ≥ 22 then s
  else if sender < 22 then
    let k := sender * 32 + receiver
    let b := s.host.mbx.chan.get k Mailbox.empty
    let s := { s with resp := metaWord b }
    if b.full then
      modMbx (fun m => { m with
        chan := m.chan.set k { b with full := false }
        sent := m.sent.set k { m.sent.get k SendState.none with state := 0 } }) s
    else s
  else
    let b := s.host.mbx.legacy.get receiver Mailbox.empty
    let s := { s with resp := metaWord b }
    if b.full then
      let k := b.sender * 32 + receiver
      modMbx (fun m => { m with
        legacy := m.legacy.set receiver { b with full := false }
        sentLegacy := m.sentLegacy.set k { m.sentLegacy.get k SendState.none with state := 0 } }) s
    else s

/-- A clear write returns an aborted or overwritten state to empty (Table 14.25). -/
def stateClear (sender receiver : Nat) (legacy : Bool) (s : State) : State :=
  let k := sender * 32 + receiver
  let v := if legacy then s.host.mbx.sentLegacy.get k SendState.none else s.host.mbx.sent.get k SendState.none
  if v.state = 2 ∨ v.state = 3 then
    modMbx (fun m =>
      if legacy then { m with sentLegacy := m.sentLegacy.set k { v with state := 0 } }
      else { m with sent := m.sent.set k { v with state := 0 } }) s
  else s

/-- A party's reset as a receiver and as a sender (R421): its mailboxes are cleared, untaken notices in them aborted, and notices it had posted marked. -/
def mailboxReset (p : Nat) (s : State) : State :=
  let s := each ((List.range 22).filter (· != p)) (fun x s =>
    let b := s.host.mbx.chan.get (x * 32 + p) Mailbox.empty
    let s := modMbx (fun m => { m with chan := m.chan.del (x * 32 + p) }) s
    if b.full then abortNotice false x p b.ptr b.tag s else s) s
  let b := s.host.mbx.legacy.get p Mailbox.empty
  let s := modMbx (fun m => { m with legacy := m.legacy.del p }) s
  let s := if b.full then abortNotice true b.sender p b.ptr b.tag s else s
  let mark (b : Mailbox) : Mailbox := if b.sender = p && b.full then { b with senderReset := true } else b
  modMbx (fun m => { m with
    chan := m.chan.map (fun c => (c.1, mark c.2))
    legacy := m.legacy.map (fun c => (c.1, mark c.2)) }) s

/-! ### The commands on mailboxes -/

def execMailboxPost (sender receiver : Nat) (ptr : BitVec 64) (tag : BitVec 32) (s : State) : Host.Outcome State Fault Refusal :=
  .next (mailboxPost sender receiver ptr tag s)

def execLegacyPost (sender receiver : Nat) (ptr : BitVec 64) (tag : BitVec 32) (s : State) : Host.Outcome State Fault Refusal :=
  .next (legacyPost sender receiver ptr tag s)

def execMailboxTagRead (receiver sender : Nat) (s : State) : Host.Outcome State Fault Refusal :=
  .next (tagRead receiver sender s)

def execMailboxStateClear (sender receiver : Nat) (legacy : Bool) (s : State) : Host.Outcome State Fault Refusal :=
  .next (stateClear sender receiver legacy s)

/-- The MCTP MAILBOX_READ command (R471, Table 16.11): party 1's mailboxes and doorbell bits are returned. Whether it takes the notices is not said; it leaves them (DESIGN CHOICE, assumption 11). -/
def execMailboxRead (s : State) : Host.Outcome State Fault Refusal :=
  let m := s.host.mbx
  let one (b : Mailbox) : List Byte := bytesLE 8 b.ptr.toNat ++ bytesLE 8 (metaWord b).toNat
  .next (emit (.mctp 0x02 (bytesLE 4 (m.bells.get 1 0).toNat ++
    (List.range 22).flatMap (fun x => one (m.chan.get (x * 32 + 1) Mailbox.empty)) ++ one (m.legacy.get 1 Mailbox.empty))) s)

end Sys2Proof.Machine
end

