-- ==== Sys2Proof/Machine/FlitImage.lean ====
section
/-! DEFINITION. The 256-byte image of an optical flit: its layout, its CRC-64, its header, its control field, and how messages and packets lie in the payloads
(R312 to R317, R320, Tables 8.7, 11.2 to 11.7, 11.12, 11.14 and 15.3). -/

namespace Sys2Proof.Machine

/-! ### CRC-64 (R315) -/

/-- One CRC-64 step over a byte, most significant bit first. -/
def crc64Byte (c : Nat) (b : Byte) : Nat :=
  (List.range 8).foldl (fun c _ => (2 * c % 2 ^ 64) ^^^ (c / 2 ^ 63 * 0x42F0E1EBA9EA3693)) (c ^^^ (b.toNat * 2 ^ 56))

/-- CRC-64 with the ECMA-182 polynomial, initial value 0, no reflection and no final inversion. -/
def crc64 (bs : List Byte) : Nat := bs.foldl crc64Byte 0

/-! ### Flits (R312 to R314) -/

/-- A flit but for its CRC: the control field, the header and the payload. -/
structure Flit where
  control : Nat
  type : Nat
  last : Bool
  cls : Nat
  job : Nat
  seq : Nat
  valid : Nat
  label : Nat
  payload : List Byte
  deriving DecidableEq, Repr

/-- The fields of a flit lie within their widths. -/
def Flit.fits (f : Flit) : Prop :=
  f.control < 2 ^ 16 ∧ f.type < 32 ∧ f.cls < 4 ∧ f.job < 256 ∧ f.seq < 2 ^ 16 ∧ f.valid < 256 ∧ f.label < 256 ∧ f.payload.length = 240

/-- Bytes 0 to 247 of a flit (Tables 11.2 and 11.3). -/
def Flit.body (f : Flit) : List Byte :=
  bytesLE 2 f.control ++ (bytesLE 1 (f.type + 32 * f.last.toNat + 64 * f.cls) ++ (bytesLE 1 f.job ++ (bytesLE 2 f.seq ++ (bytesLE 1 f.valid ++ (bytesLE 1 f.label ++ f.payload)))))

/-- A flit's 256 bytes in wire order, the CRC most significant byte first. -/
def Flit.image (f : Flit) : List Byte := f.body ++ (bytesLE 8 (crc64 f.body)).reverse

/-- Whether a type has the class that Table 11.4 gives it. A relay header's class follows its kind, in byte 10 of the payload (Table 8.7). -/
def Flit.typed (f : Flit) : Bool :=
  match f.type with
  | 0 => f.cls == 0
  | 1 => f.cls == 0
  | 2 => f.cls == (if field f.payload 10 1 % 16 = 5 then 0 else 1)
  | 3 => f.cls == 0 || f.cls == 1
  | 4 => f.cls == 2
  | 5 => f.cls == 2
  | n => decide (n < 11) && f.cls == 3

/-- The fields that 256 bytes hold, whatever their CRC. -/
def flitFields (bs : List Byte) : Flit :=
  let t := field bs 2 1
  ⟨field bs 0 2, t % 32, t.testBit 5, t / 64, field bs 3 1, field bs 4 2, field bs 6 1, field bs 7 1, (bs.drop 8).take 240⟩

/-- The flit that 256 bytes spell: none where the CRC fails, the type is reserved or the class is not the type's (R314, R315). -/
def readFlit (bs : List Byte) : Option Flit :=
  if bs.length = 256 ∧ crc64 bs = 0 ∧ (flitFields bs).typed then some (flitFields bs) else none

/-! ### The control field (R316) -/

/-- A control field (Table 11.5). -/
def controlWord (cmd arg : Nat) : Nat := cmd % 16 * 4096 + arg % 4096

/-- Whether a control field holds a reserved command. -/
def reservedControl (w : Nat) : Bool := decide (10 < w / 4096)

/-- An idle flit with a control field. -/
def idleFlit (control : Nat) : Flit := ⟨control, 0, false, 0, 0, 0, 0, 0, List.replicate 240 0⟩

/-- A control command's four flits, where no other flit carries it (R317). -/
def commandFlits (cmd arg : Nat) : List Flit := List.replicate 4 (idleFlit (controlWord cmd arg))

/-! ### Payloads of C0 acks and of class C3 -/

/-- A link ack's flit (Table 11.6). An unsequenced flit of one packet; every payload byte is valid (DESIGN CHOICE, assumption 117). -/
def ackFlit (seq : Nat) (nak : Bool) (c0 c1 c2 : Nat) : Flit :=
  ⟨0, 1, true, 0, 0, 0, 240, 0, padTo 240 (bytesLE 2 seq ++ bytesLE 1 nak.toNat ++ bytesLE 1 0 ++ bytesLE 1 c0 ++ bytesLE 1 c1 ++ bytesLE 1 c2)⟩

/-- A C3 flit: a packet of its own (R320). -/
def c3Flit (type : Nat) (bs : List Byte) : Flit := ⟨0, type, true, 3, 0, 0, 240, 0, padTo 240 bs⟩

/-- A negotiation payload (Table 11.12). -/
def negoBytes (n : Nego) : List Byte := bytesLE 1 n.fec ++ bytesLE 1 n.features ++ bytesLE 9 n.rx.toNat ++ bytesLE 1 n.credit ++ bytesLE 1 n.round

/-- A negotiation payload read. -/
def readNego (b : List Byte) : Nego := ⟨field b 0 1, field b 1 1, BitVec.ofNat 72 (field b 2 9), field b 11 1, field b 12 1⟩

/-- An identity block (Table 11.14). -/
def identityBytes (i : IdBlock) : List Byte :=
  bytesLE 4 0x44494B5A ++ bytesLE 8 i.serial.toNat ++ bytesLE 1 i.port ++ bytesLE 1 i.fibre ++ bytesLE 2 i.coord ++ bytesLE 1 i.phys ++ bytesLE 1 i.level ++
  bytesLE 2 i.job ++ bytesLE 1 i.assigned.toNat ++ bytesLE 3 0 ++ bytesLE 4 i.planCrc

/-- An identity block read, where its magic is right. -/
def readIdentity (b : List Byte) : Option IdBlock :=
  if field b 0 4 = 0x44494B5A then
    some ⟨BitVec.ofNat 64 (field b 4 8), field b 12 1, field b 13 1, field b 14 2, field b 16 1, field b 17 1, field b 18 2, (field b 20 1).testBit 0, field b 24 4⟩
  else none

/-- A channel-open payload (R329): job, coordinate and physical slot in that order (DESIGN CHOICE, assumption 117). -/
def openBytes (job coord phys : Nat) : List Byte := bytesLE 2 job ++ bytesLE 2 coord ++ bytesLE 1 phys

/-- A time message (Table 15.3). -/
def timeBytes (m : TimeMsg) : List Byte :=
  bytesLE 1 1 ++ bytesLE 1 m.hops ++ bytesLE 2 m.pacer ++ bytesLE 2 m.sent ++ bytesLE 8 m.sentNs ++ bytesLE 2 m.sentFrac ++ bytesLE 2 m.seen ++ bytesLE 8 m.seenNs ++
  bytesLE 2 m.seenFrac ++ bytesLE 1 m.state

/-- A time message read, where its kind is not reserved. -/
def readTime (b : List Byte) : Option TimeMsg :=
  if field b 0 1 = 1 then
    some ⟨field b 1 1, field b 2 2, field b 4 2, field b 6 8, field b 14 2, field b 16 2, field b 18 8, field b 26 2, field b 28 1⟩
  else none

/-! ### Packets (R320, R324, Table 8.7) -/

/-- Data flits of a relay packet. -/
def relayFlits (p : RelayPkt) : Nat := (p.words.length + 59) / 60

/-- A relay header's payload (Table 8.7). -/
def relayHeader (p : RelayPkt) : List Byte :=
  padTo 60 (bytesLE 4 p.tag ++ bytesLE 4 p.lap ++ bytesLE 2 p.layout ++ bytesLE 1 (p.kind % 16 + p.op * 16) ++ bytesLE 1 (wrap 8 p.scale) ++ bytesLE 2 p.sender ++
    bytesLE 1 (relayFlits p % 16 + p.type * 16) ++ bytesLE 1 0 ++ bytesLE 4 p.crc ++ bytesLE 8 p.first ++ bytesLE 2 p.overflow ++ p.residues.flatMap (bytesLE 2)) ++
  p.blocks.flatMap (bytesLE 4)

/-- A write header's payload (Table 11.7). -/
def writeHeader (p : WritePkt) : List Byte :=
  bytesLE 8 p.dest ++ bytesLE 4 p.data.length ++ bytesLE 1 p.post.toNat ++ bytesLE 3 0 ++ bytesLE 8 p.postAddr ++ bytesLE 8 p.postVal.toNat ++ p.data.take 208

/-- The payloads of a packet's flits, header first, with how many of their bytes are valid. -/
def payloads : Cargo → List (Nat × List Byte)
  | .relay p => (240, relayHeader p) :: (pieces 60 (relayFlits p) p.words).map (fun l => (4 * l.length, l.flatMap (fun w => bytesLE 4 w.toNat)))
  | .write p => (32 + Nat.min 208 p.data.length, writeHeader p) ::
      (pieces 240 ((p.data.length - 208 + 239) / 240) (p.data.drop 208)).map (fun l => (l.length, l))

/-- The type code of a packet's header flit; its data flits have the next one (Table 11.4). -/
def headType : Cargo → Nat
  | .relay _ => 2
  | .write _ => 4

/-- A packet's flits, numbered from a sequence. -/
def packetFlits (seq : Nat) (p : Packet) : List Flit :=
  let bodies := payloads p.cargo
  bodies.zipIdx.map (fun b =>
    ⟨0, headType p.cargo + (if b.2 = 0 then 0 else 1), b.2 + 1 == bodies.length, p.cls, p.job % 256, (seq + b.2) % 65536, b.1.1, p.label, padTo 240 b.1.2⟩)

/-- The nib of flit j of a packet, of those it is spread over (R320). -/
def nibOf (nibs : List (Nat × Nat)) (j : Nat) : Option (Nat × Nat) := nibs[j % nibs.length]?

/-- A relay packet of the payloads of its flits, one after another (Table 8.7). -/
def readRelay (b : List Byte) : RelayPkt :=
  let f (o n : Nat) : Nat := field b o n
  { tag := f 0 4, lap := f 4 4, layout := f 8 2, kind := f 10 1 % 16, op := f 10 1 / 16, scale := sint 8 (f 11 1), sender := f 12 2, type := f 14 1 / 16, crc := f 16 4,
    first := f 20 8, overflow := f 28 2 % 2 ^ 15, residues := (List.range (f 14 1 % 16)).map (fun i => f (30 + 2 * i) 2),
    blocks := (List.range 14).map (fun i => f (60 + 4 * i) 4),
    words := (pieces 4 ((b.length - 240) / 4) (b.drop 240)).map (fun w => BitVec.ofNat 32 (natLE w)) }

/-- A write packet of the payloads of its flits, one after another (Table 11.7). -/
def readWrite (b : List Byte) : WritePkt :=
  let f (o n : Nat) : Nat := field b o n
  ⟨f 0 8, ((b.drop 32).take 208 ++ b.drop 240).take (f 8 4), (f 12 1).testBit 0, f 16 8, BitVec.ofNat 64 (f 24 8)⟩

/-- The packet that a run of flits of one class is (R320): a header, data flits of its kind in sequence, and `last` on the last one alone. -/
def readPacket (fs : List Flit) : Option Packet :=
  match fs with
  | [] => none
  | h :: ds =>
    let whole := (h.type == 2 || h.type == 4) && ds.all (fun d => d.type == h.type + 1 && d.cls == h.cls && d.label == h.label && d.job == h.job) &&
      fs.zipIdx.all (fun f => f.1.seq == (h.seq + f.2) % 65536 && f.1.last == (f.2 + 1 == fs.length)) && decide (fs.length ≤ 16)
    if whole then
      some ⟨h.cls, h.label, h.job, none,
        let b := fs.flatMap (fun f => f.payload.take f.valid)
        if h.type = 2 then .relay (readRelay b) else .write (readWrite b)⟩
    else none

/-! ### What leaves the block, as flits -/

/-- The optical flits of something sent; none for what does not leave by a fibre. -/
def Out.flits : Out → List Flit
  | .control _ _ cmd arg => commandFlits cmd arg
  | .negotiation _ n => [c3Flit 6 (negoBytes n)]
  | .identity _ i => [c3Flit 7 (identityBytes i)]
  | .channelOpen _ job coord phys => [c3Flit 8 (openBytes job coord phys)]
  | .timeMessage _ m => [c3Flit 10 (timeBytes m)]
  | .linkAck _ seq nak c0 c1 c2 => [ackFlit seq nak c0 c1 c2]
  | .packet _ _ seq p first _ _ => (packetFlits seq p).drop first
  | _ => []

/-- Whether a whole unsequenced flit brings a command on a link (Table 11.4), `room` telling whether a C3 buffer is free; an idle flit brings none. -/
def Flit.brings (l : Nat) (room : Bool) (f : Flit) (i : Instr) : Prop :=
  let b := f.payload
  match f.type with
  | 1 => i = .linkAck l (field b 0 2) ((field b 2 1).testBit 0) (field b 4 1) (field b 5 1) (field b 6 1)
  | 6 => i = .negotiation l (readNego b)
  | 7 => ∃ d, readIdentity b = some d ∧ i = .identityBlock l d
  | 8 => ∃ anew, i = .channelOpen ⟨l, room⟩ (field b 0 2) (field b 2 2) ⟨field b 4 1, anew⟩
  | 9 => i = .managementMessage ⟨l, room⟩ (b.take f.valid)
  | 10 => ∃ m, readTime b = some m ∧ i = .timeMessage ⟨l, room⟩ m
  | _ => False

/-- Whether a control field brings a command on a link (Table 11.5); command 0 and a reserved one bring none. -/
def controlBrings (l w : Nat) (i : Instr) : Prop :=
  let a := w % 4096
  match w / 4096 with
  | 1 => i = .freeze l (a % 16)
  | 2 => i = .thaw l
  | 3 => i = .pause l (a % 16)
  | 4 => i = .resume l (a % 16)
  | 5 => i = .splitMarker l a
  | 6 => i = .nibLeave l (a % 16)
  | 7 => i = .nibJoin l (a % 16)
  | 8 => i = .fibreHold (l / 32)
  | 9 => i = .fibreResume (l / 32)
  | 10 => i = .keepalive l (a.testBit 0) (a % 16 - a % 2)
  | _ => False

/-- Whether a run of flits of one packet brings a command on a link, received on the nibs of a mask (Table 11.4). -/
def packetBrings (l nibs : Nat) (fs : List Flit) (i : Instr) : Prop :=
  ∃ f p, fs.head? = some f ∧ readPacket fs = some p ∧
    match p.cargo with
    | .relay r => i = .relayPacketReceive l p.label ⟨p.job, f.seq, nibs⟩ r
    | .write w => i = .writePacket l p.label ⟨p.job, f.seq, nibs⟩ w

/-! ### Finding flit boundaries (R311) -/

/-- The number that bytes spell, most significant first: the bits of a stream in wire order. -/
def natBE (bs : List Byte) : Nat := bs.foldl (fun a b => 256 * a + b.toNat) 0

/-- 256 bytes of a stream of `len` bits from a bit on. -/
def windowAt (n len o : Nat) : List Byte := (List.range 256).map (fun i => BitVec.ofNat 8 (n / 2 ^ (len - o - 8 * (i + 1))))

/-- The first bit of a stream at which a 2,048-bit window's CRC checks, and those of the 8 flits after it. -/
def flitBoundary (bs : List Byte) : Option Nat :=
  let len := 8 * bs.length
  if len < 9 * 2048 then none
  else (List.range (len - 9 * 2048 + 1)).find? (fun o => (List.range 9).all (fun k => crc64 (windowAt (natBE bs) len (o + 2048 * k)) == 0))

/-! ### Codewords (R311) -/

/-- Symbols of 10 bits in a codeword and in its payload: RS(272,257) with short FEC, RS(544,514) without. -/
def codeword (short : Bool) : Nat × Nat := if short then (272, 257) else (544, 514)

/-- Codewords of a superframe. -/
def superframeWords (short : Bool) : Nat := if short then 2048 else 1024

/-- Flits of a superframe: its codewords' payloads hold them exactly. -/
def superframeFlits (short : Bool) : Nat := superframeWords short * (codeword short).2 * 10 / 2048

/-- Multiplication by α in GF(2^10) with x^10 + x^3 + 1 (PRESUMED: IEEE 802.3's field, assumption 132). -/
def tenDouble (a : Nat) : Nat := 2 * a ^^^ a / 512 * 0x409

/-- The value α^i gives to the polynomial of a codeword's symbols, the first sent its highest coefficient. -/
def fecSyndrome (ws : List Nat) (i : Nat) : Nat := ws.foldl (fun r c => Nat.repeat tenDouble i r ^^^ c) 0

/-- A codeword: α^0 and each further root of the generator polynomial gives 0. -/
def isCodeword (short : Bool) (ws : List Nat) : Prop :=
  ws.length = (codeword short).1 ∧ (∀ c ∈ ws, c < 1024) ∧ ∀ i < (codeword short).1 - (codeword short).2, fecSyndrome ws i = 0

/-- Symbols in which two words differ. -/
def fecErrors (a b : List Nat) : Nat := ((a.zip b).filter (fun p => p.1 != p.2)).length

/-- A word received that lies within no codeword's reach is uncorrectable. -/
def fecLost (short : Bool) (ws : List Nat) : Prop := ∀ c, isCodeword short c → ((codeword short).1 - (codeword short).2) / 2 < fecErrors ws c

/-- The codewords of a superframe that flit `f` of it touches. -/
def flitWords (short : Bool) (f : Nat) : List Nat :=
  let n := 10 * (codeword short).2
  (List.range ((2048 * f + 2047) / n - 2048 * f / n + 1)).map (2048 * f / n + ·)

/-- What a superframe's words as received make of its flit `f`: one that an uncorrectable word touches is bad. -/
def fecTouches (short : Bool) (words : List (List Nat)) (f : Nat) (h : HeardFlit) : Prop :=
  h.touched = true ↔ ∃ i ∈ flitWords short f, ∃ ws ∈ words[i]?, fecLost short ws

end Sys2Proof.Machine
end

