-- ==== Sys2Proof/Machine/Codes.lean ====
section
/-! DEFINITION. How stored data lies on the channels and rows, what its codes make of inverted bits, and what an error found does: correction, counting, marks for
repair, and uncorrectable errors (R48 to R50, R287, R292 to R304). -/

namespace Sys2Proof.Machine

/-- Whether two ranges of addresses meet. -/
def overlap (a n b m : Nat) : Bool := decide (a < b + m ∧ b < a + n)

/-- Protection state changed. -/
def modMem (f : MemProt → MemProt) (s : State) : State := { s with memp := f s.memp }

/-! ### The interleave (R48 to R50) -/

/-- The interleaved part of a die under a mapping: its channels, and the granule in bytes. -/
def mapping (m : Word) : Nat × Nat :=
  (32 - F.cmpMemInterleave_pinned_channels.of m, 256 * 2 ^ F.cmpMemInterleave_granule.of m)

/-- The channel and channel address of an offset (R48); `c` is a channel's capacity. -/
def dramOf (m : Word) (c o : Nat) : Nat × Nat :=
  let (n, g) := mapping m
  if o < n * c then (o / g % n, o / g / n * g + o % g) else (n + (o - n * c) / c, (o - n * c) % c)

/-- The offset that a mapping gives a channel address. -/
def offsetOf (m : Word) (c ch a : Nat) : Nat :=
  let (n, g) := mapping m
  if ch < n then (a / g * n + ch) * g + a % g else n * c + (ch - n) * c + a

/-- Where what a device address held lies after a die's mapping changes (R50). -/
def remapAddr (s : State) (d : Nat) (old new : Word) (a : Nat) : Nat :=
  match placeOf s a with
  | .lpddr d' o =>
    let (ch, ca) := dramOf old (chanBytes s) o
    if d' = d then d * 0x60_0000_0000 + offsetOf new (chanBytes s) ch ca else a
  | _ => a

/-- A die's stored data as a new mapping shows it: no data moves, so it is found at other addresses (R50). -/
def remap (d : Nat) (old new : Word) (s : State) : State :=
  if mapping old = mapping new then s
  else
    let f := remapAddr s d old new
    let lo := d * 0x60_0000_0000
    let mine (a : Nat) : Bool := decide (lo ≤ a ∧ a < lo + 0x60_0000_0000)
    let cells := s.mem.filter (fun c => mine c.1)
    { s with
      mem := cells.foldl (fun m c => Mem.write m (f c.1) [c.2]) (s.mem.filter (fun c => !mine c.1))
      memp := { s.memp with
        poison := s.memp.poison.map (fun p => (p.1, p.2.map f))
        faults := s.memp.faults.map (fun p => (f p.1, p.2)) } }

/-- A mapping written and waiting takes effect in a die. -/
def newMapping (d : Nat) (s : State) : State :=
  match s.newMaps.get? d with
  | none => s
  | some (_, v) => remap d (regVal s (.cmpMemInterleave d)) v (setReg { s with newMaps := s.newMaps.del d } (.cmpMemInterleave d) v)

/-! ### Units of storage -/

/-- The number by which the model names a word of coded SRAM that has no device address (R295): of a die, its program store (kind 0), mesh and link buffers (1) or, in an
edge die, control SRAM (2), at a byte (DESIGN CHOICE, assumption 114). -/
def hiddenAddr (d kind o : Nat) : Nat := 2 ^ 63 + d * 2 ^ 40 + kind * 2 ^ 36 + o

/-- The die, kind and byte of such a number. -/
def hiddenOf (a : Nat) : Option (Nat × Nat × Nat) :=
  let d := bits a 40 23
  let kind := bits a 36 4
  if a / 2 ^ 63 = 1 ∧ d < 20 ∧ (if kind = 0 then d < 16 else kind = 1 ∨ (kind = 2 ∧ 16 ≤ d)) then some (d, kind, bits a 0 36) else none

/-- The coded unit of an address: its first address and its bytes (R292, R295, R297). None for host memory and unmapped addresses. -/
def unitOf (s : State) (a : Nat) : Option (Nat × Nat) :=
  if (hiddenOf a).isSome then some (a / 4 * 4, 4)
  else match placeOf s a with
  | .lpddr .. => some (a / 32 * 32, 32)
  | .well .. => some (a, 1)
  | .folio .. => some (a / 4 * 4, 4)
  | .tiles .. => some (a / 4 * 4, 4)
  | .host _ => none
  | .unmapped => none

/-- The bits of a unit's code word: 36 symbols of 8, or the bits of a SECDED word. -/
def codeBits (size : Nat) : Nat := if size = 32 then 288 else if size = 4 then 39 else 13

/-- The die that holds a unit. -/
def dieOfUnit (s : State) (u : Nat) : Nat :=
  match hiddenOf u with
  | some (d, _, _) => d
  | none => (ownerOf s u).getD 16

/-- Channel, sub-channel, bank and row of a burst unit (R287). -/
def burstPlace (s : State) (u : Nat) : Nat × Nat × Nat × Nat :=
  match placeOf s u with
  | .lpddr d o =>
    let (ch, a) := dramOf (regVal s (.cmpMemInterleave d)) (chanBytes s) o
    (ch, a / 32 % 2, a / 4096 % 16, a / 65536)
  | _ => (0, 0, 0, 0)

/-- The row that holds a unit. -/
def rowOf (s : State) (u : Nat) : RowId :=
  match placeOf s u with
  | .lpddr d _ => .dram d (burstPlace s u).1 (burstPlace s u).2.2.1 (burstPlace s u).2.2.2
  | .folio d k o => .sram (folioAddr (d * 64 + k) + o / 0x4_0000 * 0x4_0000) (Config.sramRow u)
  | .tiles d k _ => .sram (tileBlock (d * 64 + k)) (Config.sramRow u)
  | _ => if (hiddenOf u).isSome then .sram (u / 2 ^ 36 * 2 ^ 36) (Config.sramRow u) else .sram (u / 0x100_0000 * 0x100_0000) (Config.sramRow u)

/-- The weight of a mask. -/
def weight (n m : Nat) : Nat := ((List.range n).filter (fun i => m.testBit i)).length

/-- Detail bytes of a storage record (Table 18.2). -/
def unitDetail (s : State) (u pin symbols : Nat) : Nat :=
  match placeOf s u with
  | .lpddr .. =>
    let (ch, sub, bank, row) := burstPlace s u
    ch + sub * 2 ^ 8 + pin * 2 ^ 16 + bank * 2 ^ 24 + row * 2 ^ 32 + symbols * 2 ^ 64
  | .well .. => Config.sramRow u % 2 ^ 32 * 2 ^ 32
  | .folio .. => Config.sramRow u % 2 ^ 32 * 2 ^ 32
  | .tiles .. => Config.sramRow u % 2 ^ 32 * 2 ^ 32
  | .host _ => 0
  | .unmapped => if (hiddenOf u).isSome then Config.sramRow u % 2 ^ 32 * 2 ^ 32 else 0

/-- The address that records name a unit by; for one without a device address, its byte within its storage (assumption 114). -/
def unitAddr (u : Nat) : Nat := ((hiddenOf u).map (·.2.2)).getD u

/-- A record about a unit, from the die that holds it. -/
def unitErr (s : State) (code cont u pin symbols : Nat) : Err :=
  { code := code, cont := cont, die := dieOfUnit s u, mkind := 7, addr := unitAddr u, detail := unitDetail s u pin symbols }

/-! ### What a code makes of inverted bits (Table 10.3, R295, R297) -/

/-- The outcome of a decode: clean, uncorrectable, or taken for a code word, after the decoder has inverted the bits `fix` (0 where it corrected nothing), whose data
differs by `x` from what was stored. -/
inductive Decoded where
  | clean | uncorrectable
  | taken (fix x : Nat)
  deriving DecidableEq, Repr

/-- Multiplication by α in GF(2^8) with the polynomial 0x11D (R292). -/
def gfDouble (a : Nat) : Nat := 2 * a ^^^ a / 128 * 0x11D

/-- Multiplication in GF(2^8). -/
def gfMul (a b : Nat) : Nat :=
  (List.range 8).foldl (fun r i => gfDouble r ^^^ bits b (7 - i) 1 * a) 0

/-- α to a power. -/
def gfPow : Nat → Nat
  | 0 => 1
  | n + 1 => gfDouble (gfPow n)

/-- The inverse of an element that is not 0: its 254th power. -/
def gfInv (a : Nat) : Nat := (List.range 253).foldl (fun r _ => gfMul r a) a

/-- The value α^i gives to the polynomial of a burst's symbols, symbol 0 its highest coefficient (DESIGN CHOICE, assumption 115): symbol j stands at x^(35 − j). The four of them are 0
exactly for the multiples of R292's generator polynomial. -/
def syndrome (e i : Nat) : Nat :=
  (List.range 36).foldl (fun r j => r ^^^ gfMul (bits e (8 * j) 8) (gfPow (i * (35 - j)))) 0

/-- The one symbol whose change clears the syndromes: the bits to invert. -/
def oneError (s0 s1 s2 s3 : Nat) : Option Nat :=
  (List.range 36).findSome? (fun j =>
    let x := gfPow (35 - j)
    if gfMul s0 x = s1 ∧ gfMul s1 x = s2 ∧ gfMul s2 x = s3 then some (s0 * 2 ^ (8 * j)) else none)

/-- The two symbols whose changes together clear the syndromes. -/
def twoErrors (s0 s1 s2 s3 : Nat) : Option Nat :=
  (List.range 36).findSome? (fun i => (List.range i).findSome? (fun j =>
    let x := gfPow (35 - i)
    let y := gfPow (35 - j)
    let sum := x ^^^ y
    let prod := gfMul x y
    if gfMul sum s1 ^^^ gfMul prod s0 = s2 ∧ gfMul sum s2 ^^^ gfMul prod s1 = s3 then
      let v := gfMul (s1 ^^^ gfMul s0 y) (gfInv sum)
      some (v * 2 ^ (8 * i) + (v ^^^ s0) * 2 ^ (8 * j))
    else none))

/-- The decode under a dram_mode of a burst with the bits `e` inverted (Table 10.3): the nearest code word, where it lies within the symbols that the mode corrects. -/
def decodeBurst (mode e : Nat) : Decoded :=
  let s0 := syndrome e 0
  let s1 := syndrome e 1
  let s2 := syndrome e 2
  let s3 := syndrome e 3
  if s0 = 0 ∧ s1 = 0 ∧ s2 = 0 ∧ s3 = 0 then (if e = 0 then .clean else .taken 0 (e % 2 ^ 256))
  else
    let fix := match mode with
      | 0 => (oneError s0 s1 s2 s3).or (twoErrors s0 s1 s2 s3)
      | 1 => oneError s0 s1 s2 s3
      | _ => none
    match fix with
    | none => .uncorrectable
    | some f => .taken f ((e ^^^ f) % 2 ^ 256)

/-- The symbols with a bit of a pattern in them. -/
def symbolsIn (e : Nat) : List Nat := (List.range 36).filter (fun j => bits e (8 * j) 8 != 0)

/-- Symbols inverted whole, as an injection's mask names them (Table 10.15). -/
def wholeSymbols (m : Nat) : Nat := sumOf (((List.range 36).filter m.testBit).map (fun j => 0xFF * 2 ^ (8 * j)))

/-- The decode of a word of SECDED of `n` bits (R295, R297). -/
def decodeWord (n m : Nat) : Decoded :=
  match weight n m with
  | 0 => .clean
  | 1 => .taken m 0
  | 2 => .uncorrectable
  | _ =>
    match Config.secdedMany n m with
    | none => .uncorrectable
    | some (fixed, x) => .taken fixed.toNat x.toNat

/-- The decode of a unit. -/
def decodeUnit (s : State) (size m : Nat) : Decoded :=
  if size = 32 then decodeBurst (getF s .memEccCtl F.memEccCtl_dram_mode) m else decodeWord (codeBits size) m

/-! ### Repair (R304, Table 10.6) -/

/-- The spares of the storage that holds a row, and the key under which their use is kept. `sub` is the sub-channel of the unit in error: a marked LPDDR6 row is kept with 2 × channel + sub-channel in place of its channel. -/
def sparesOf (sub : Nat) : RowId → Nat × RowId
  | .dram d ch bank _ => (2, .dram d (2 * ch + sub) bank 0)
  | .sram a _ =>
    if (hiddenOf a).isSome then (if bits a 36 4 = 1 then 16 else 0, .sram a 0)
    else if 0x1200_0000_0000 ≤ a then (4, .sram a 0)
    else if 0x1100_0000_0000 ≤ a then (8, .sram a 0)
    else (0, .sram a 0)

/-- A row as the list of marks keeps it. -/
def markOf (sub : Nat) : RowId → RowId
  | .dram d ch bank row => .dram d (2 * ch + sub) bank row
  | .sram a row => .sram a row

/-- Spare rows of a place already used. -/
def sparesUsed (s : State) (k : RowId) : Nat := ((s.memp.spares.find? (·.1 == k)).map (·.2)).getD 0

/-- The row of a unit is marked for repair, or its retirement is advised where no spare remains (R304). -/
def markRow (u : Nat) (s : State) : State :=
  let sub := (burstPlace s u).2.1
  let row := markOf sub (rowOf s u)
  let (n, k) := sparesOf sub (rowOf s u)
  if s.memp.marked.contains row then s
  else if n ≤ sparesUsed s k then raise (unitErr s 0x040B contL u 0 0) (modMem (fun m => { m with advised := (m.advised.filter (· != row)) ++ [row] }) s)
  else
    raise (unitErr s 0x0409 contL u 0 0) (modMem (fun m => { m with
      marked := m.marked ++ [row]
      spares := (k, sparesUsed s k + 1) :: m.spares.filter (fun p => p.1 != k) }) s)

/-! ### Correctable errors (R294, R298, R300, R304) -/

/-- The hour of ED0's fabric time. -/
def hourNow (s : State) : Nat := nowNs s / (3600 * 10 ^ 9)

/-- A symbol corrected on a pin is counted in the current hour; at the threshold it is recorded, once in that hour (R294). -/
def countPin (u pin : Nat) (s : State) : State :=
  let (ch, sub, _, _) := burstPlace s u
  let key := ((dieOfUnit s u * 32 + ch) * 2 + sub) * 12 + pin
  let old := s.memp.pins.get key ⟨0, 0, false⟩
  let p : PinLog := if old.hour = hourNow s then { old with count := old.count + 1 } else ⟨hourNow s, 1, false⟩
  let limit := getF s .memEccCtl F.memEccCtl_pin_threshold
  let tell := limit != 0 && decide (limit ≤ p.count) && !p.told
  let s := modMem (fun m => { m with pins := m.pins.set key { p with told := p.told || tell } }) s
  if tell then raise (unitErr s 0x040D contL u pin 0) s else s

/-- A row's log. -/
def logOf (s : State) (row : RowId) : RowLog := (s.memp.rows.find? (·.row == row)).getD ⟨row, [], none⟩

/-- A correctable error in a row: recorded unless one was within the preceding second, and at the threshold within 24 hours the row is marked (R300, R304). -/
def logRow (u : Nat) (e : Err) (s : State) : State :=
  let row := rowOf s u
  let l := logOf s row
  let times := nowNs s :: l.times.filter (fun t => decide (nowNs s < t + 24 * 3600 * 10 ^ 9))
  let quiet := l.recorded.any (fun t => decide (nowNs s < t + 10 ^ 9))
  let new : RowLog := ⟨row, times, if quiet then l.recorded else some (nowNs s)⟩
  let s := modMem (fun m => { m with rows := new :: m.rows.filter (fun r => r.row != row) }) s
  let s := if quiet then s else raise e s
  let limit := getF s .memRepairCfg F.memRepairCfg_row_ce_threshold
  let told := s.memp.advised.contains (markOf (burstPlace s u).2.1 row)
  if limit ≠ 0 ∧ limit ≤ times.length ∧ !told then markRow u s else s

/-- A correctable error found in a unit, with the bits that the decoder inverted: counted in its die (R300) and, for a burst, on its pins. -/
def corrected (u size fix : Nat) (s : State) : State :=
  let d := dieOfUnit s u
  if size = 32 then
    let l := symbolsIn fix
    let s := bumpF s (.memDieCe d) F.memDieCe_dram 1
    let s := each l (fun i s => countPin u (i / 3) s) s
    logRow u (unitErr s 0x0401 contL u (l.headD 0 / 3) l.length) s
  else
    logRow u (unitErr s 0x0402 contL u 0 0)
      (if d < 16 then bumpF s (.memDieCe d) F.memDieCe_sram 1
       else modMem (fun m => { m with edgeCe := m.edgeCe.set d (m.edgeCe.get d 0 + 1) }) s)

/-! ### Uncorrectable errors (R301 to R303) -/

/-- An uncorrectable error is recorded, a burst is listed as poisoned, and its die's reset is due: from here on the die is reached only with TARGET_RESET. -/
def uncorrectable (u size : Nat) (s : State) : State :=
  let d := dieOfUnit s u
  let code := if 16 ≤ d then 0x0410 else if size = 32 then 0x0403 else if size = 4 then 0x0404 else 0x0405
  let s := raise (unitErr s code (if d = 16 then contM else contD) u 0 0) s
  let s := if d < 16 then setReg s (.memDieLastUe d) (BitVec.ofNat 64 (unitAddr u)) else s
  let s := modMem (fun m => { m with dead := m.dead ++ [(d, u)] }) s
  let l := s.memp.poison.get d []
  if size ≠ 32 then s
  else if l.length < 256 then modMem (fun m => { m with poison := m.poison.set d (l ++ [u]) }) s
  else raise (unitErr s 0x0407 contL u 0 0) s

/-! ### Reads that check their code -/

/-- A unit's inverted bits are gone. -/
def clearFault (u : Nat) (s : State) : State := modMem (fun m => { m with faults := m.faults.filter (fun p => p.1 != u) }) s

/-- Words without a device address of a die, of the kinds chosen, written afresh (R301). -/
def freshHidden (d : Nat) (which : Nat → Bool) (s : State) : State :=
  modMem (fun m => { m with faults := m.faults.filter (fun p => !(hiddenOf p.1).any (fun x => x.1 == d && which x.2.1)) }) s

/-- Data that a wrong decode delivers and writes back: in memory, or in a bundle of a program store. What a buffer or an edge die's control SRAM held has no other place in the model
(assumption 114). -/
def flipData (u size x : Nat) (s : State) : State :=
  match hiddenOf u with
  | some (d, 0, o) =>
    { s with progs := s.progs.map (fun p =>
      if p.1 = d then (d, { p.2 with bundles := p.2.bundles.modify (o / 16) (· ^^^ BitVec.ofNat 128 (x * 2 ^ (8 * (o % 16)))) }) else p) }
  | some _ => s
  | none => wrN s u size (rdN s u size ^^^ x)

/-- A unit is read (R298, R301). A poisoned unit, and a die in reset, are not read. -/
def readUnit (p : Nat × Nat) (s : State) : State :=
  let (u, size) := p
  let m := s.memp.faults.get u 0
  if m = 0 ∨ inReset s (dieOfUnit s u) ∨ (size = 32 ∧ (s.memp.poison.get (dieOfUnit s u) []).contains u) then s
  else
    match decodeUnit s size m with
    | .clean => s
    | .uncorrectable => uncorrectable u size s
    | .taken fix x =>
      let s := if fix = 0 then s else corrected u size fix s
      clearFault u (if x = 0 then s else flipData u size x s)

/-- Bits that nature has inverted stay in their unit until a read or a fresh code clears them. -/
def upsetUnit (upset : Upset) (s : State) : State :=
  match unitOf s upset.addr with
  | none => s
  | some (u, size) =>
    let m := upset.mask % 2 ^ codeBits size
    if m = 0 then s
    else
      let e := s.memp.faults.get u 0 ^^^ m
      if e = 0 then clearFault u s else modMem (fun q => { q with faults := q.faults.set u e }) s

/-- The units with inverted bits. -/
def suspects (s : State) : List (Nat × Nat) := (s.memp.faults.map (·.1)).filterMap (unitOf s)

/-- Whether a write covers a unit in part, so that it reads it (R288, R296). -/
def partly (p q : Nat × Nat) : Bool := overlap p.1 p.2 q.1 q.2 && !decide (q.1 ≤ p.1 ∧ p.1 + p.2 ≤ q.1 + q.2)

/-- What the ranges that an access reads, and those that it writes in part, find wrong. -/
def probe (reads writes : List (Nat × Nat)) (s : State) : State :=
  if s.memp.faults.isEmpty then s
  else each ((suspects s).filter (fun p => reads.any (fun q => overlap p.1 p.2 q.1 q.2) || writes.any (partly p))) readUnit s

/-! ### Poisoned burst units (R302) -/

/-- The burst units on the poison lists. -/
def poisonUnits (s : State) : List Nat := s.memp.poison.flatMap (·.2)

/-- The first poisoned unit that a range touches. -/
def poisonHit (s : State) (a n : Nat) : Option Nat :=
  if n = 0 then none else (poisonUnits s).find? (fun u => overlap u 32 a n)

/-- The first poisoned unit that a range touches and does not cover whole. -/
def poisonPartial (s : State) (a n : Nat) : Option Nat :=
  (poisonUnits s).find? (fun u => overlap u 32 a n && !decide (a ≤ u ∧ u + 32 ≤ a + n))

/-- Units that a write covers whole leave the list, with a fresh code. -/
def freshen (a n : Nat) (s : State) : State :=
  let inside (u w : Nat) : Bool := decide (a ≤ u ∧ u + w ≤ a + n)
  let m := s.memp
  if m.poison.isEmpty && m.faults.isEmpty then s
  else
    { s with memp := { m with
      poison := m.poison.map (fun p => (p.1, p.2.filter (fun u => !inside u 32)))
      faults := m.faults.filter (fun p => !inside p.1 (match placeOf s p.1 with
        | .lpddr .. => 32
        | .well .. => 1
        | _ => 4)) } }

/-- A write that covers the address at which an armed injection waits stores its code word with the mask applied (Table 10.15). -/
def inject (a n : Nat) (s : State) : State :=
  match ownerOf s a with
  | none => s
  | some d =>
    let at' := getF s (.memDieInjectAddr d) F.memDieInjectAddr_addr
    if 16 ≤ d ∨ !flag s (.memDieInjectCtl d) F.memDieInjectCtl_arm ∨ at' < a ∨ a + n ≤ at' then s
    else
      let s := setF s (.memDieInjectCtl d) F.memDieInjectCtl_arm 0
      match unitOf s at' with
      | none => s
      | some (u, size) =>
        let mask := getF s (.memDieInjectCtl d) F.memDieInjectCtl_mask
        let e := if size = 32 then wholeSymbols mask else mask % 2 ^ codeBits size
        if e = 0 then clearFault u s else modMem (fun m => { m with faults := m.faults.set u e }) s

/-- Bytes stored at an address, with fresh codes where they cover units whole. -/
def store (a : Nat) (bs : List Byte) (s : State) : State := inject a bs.length (freshen a bs.length (wrB s a bs))

end Sys2Proof.Machine
end

