-- ==== Sys2Proof/Machine/Queues.lean ====
section
/-! DEFINITION. Queues and their descriptors: states, start, completion, freezing, and the writing of completion entries (R401 to R414). -/

namespace Sys2Proof.Machine

/-- A queue that was never installed (Table 14.4: Absent). -/
def Queue.absent : Queue := ⟨.absent, 0, 0, 4, 4, 0, false, false, 0, 0, 0, 0, true, 0, 0⟩

/-- A queue. -/
def queueAt (s : State) (q : Nat) : Queue := s.host.queues.get q Queue.absent

/-- A queue changed. -/
def setQueue (s : State) (q : Nat) (r : Queue) : State := { s with host := { s.host with queues := s.host.queues.set q r } }

/-- Descriptors of a queue that are in flight (R405): started, or completed with their entry unwritten. -/
def inFlight (s : State) (q : Nat) : Nat :=
  (s.host.descs.filter (·.q == q)).length + (s.host.entries.filter (·.desc.q == q)).length

/-- Whether an opcode has start rule C (Table 14.6). -/
def startsAlone (op : Nat) : Bool :=
  [0x02, 0x10, 0x31, 0x51, 0x60, 0x61, 0x62, 0x80, 0x81, 0x90].contains op

/-- Whether an opcode is privileged (Table 14.6). -/
def privileged (op : Nat) : Bool := [0x10, 0x31, 0x51, 0x60, 0x61, 0x62, 0x80, 0x81, 0x90].contains op

/-- Whether an opcode starts a runner, relay or lap, which a power state change holds back (R448). -/
def startsWork (op : Nat) : Bool := [0x11, 0x30, 0x50, 0x51, 0x40].contains op

/-- Whether a descriptor of the queue in flight has start rule C, so that no later one starts (R405). -/
def aloneInFlight (s : State) (q : Nat) : Bool :=
  s.host.descs.any (fun d => d.q == q && startsAlone d.op) || s.host.entries.any (fun e => e.desc.q == q && startsAlone e.desc.op)

/-- Whether the CXL link carries CXL.cache and CXL.mem (R396): not in deep park (R449). -/
def hostLinkUp (s : State) : Bool :=
  getF s .hifLinkStatus F.hifLinkStatus_width != 0 && !flag s .hifLinkStatus F.hifLinkStatus_degraded && getF s .pwrState F.pwrState_state != 3

/-- Whether a queue by itself may start a descriptor of an opcode now (R396, R403, R405, R413, R415, R448). -/
def canStart (s : State) (q op : Nat) : Bool :=
  decide (q < 128) && (queueAt s q).state == .running && (queueAt s q).sqHead != (queueAt s q).sqTail && hostLinkUp s &&
  !flag s .hifEmergencyHalt F.hifEmergencyHalt_active && decide (inFlight s q < 256) && !aloneInFlight s q &&
  (!startsAlone op || inFlight s q == 0) && !(startsWork op && getF s .pwrState F.pwrState_state != 0)

/-- Where a queue's next descriptor lies, as a host physical address. -/
def headAddr (r : Queue) : Nat := r.sqBase + r.sqHead * 64

/-- The 64 bytes at a queue's head in host memory. -/
def nextBytes (s : State) (q : Nat) : List Byte := Mem.read s.mem (hostBase + headAddr (queueAt s q)) 64

/-- The posts that wait for a slot of an engine. -/
def waitingPosts (s : State) (e : Nat) : Nat := ((s.relays.engines.get? e).elim [] (·.posts)).length

/-- Whether a descriptor is a relay for an engine with 1,024 posts waiting (Table 1.8). -/
def relayWaits (s : State) (bs : List Byte) : Bool :=
  [0x30, 0x50, 0x51].contains (field bs 0 1) && decide (1024 ≤ waitingPosts s (field bs 16 1 % 4))

/-- Whether a queue has a descriptor that it would start in its turn (R405). -/
def wantsTurn (s : State) (q : Nat) : Bool :=
  canStart s q 0x01 && canStart s q (field (nextBytes s q) 0 1) && !relayWaits s (nextBytes s q)

/-- A queue's place in the round: the queues above the one served last, then the rest, lowest first (R405). -/
def roundPlace (s : State) (q : Nat) : Nat := (q + 127 - s.host.served) % 128

/-- Whether no queue before this one in the round wants its turn (R405). -/
def inTurn (s : State) (q : Nat) : Bool := s.host.queues.all (fun p => decide (roundPlace s q ≤ roundPlace s p.1) || !wantsTurn s p.1)

/-- Whether a queue may start a descriptor of an opcode now: it can, and it is its turn at ED0 (R405). -/
def mayStart (s : State) (q op : Nat) : Bool := canStart s q op && inTurn s q

/-- A line of host memory that ED0 reads by RdShared, held in its 1 MiB ring cache (Table 14.1). The oldest line leaves a full cache (DESIGN CHOICE, assumption 69). -/
def ringLine (a : Nat) (s : State) : State :=
  { s with host := { s.host with ringCache := (a / 64 :: s.host.ringCache.filter (· != a / 64)).take 16384 } }


/-- The queue's next descriptor is taken as started: its line is read, its head moves on, and the descriptor is in flight. -/
def begin (h : Hdr) (op : Nat) (s : State) : Desc × State :=
  let r := queueAt s h.q
  let d : Desc := ⟨s.nextId, h.q, r.sqHead, h.tag, h.irq, op⟩
  let s := setQueue (ringLine (headAddr r) s) h.q { r with sqHead := (r.sqHead + 1) % 2 ^ r.sqLog }
  (d, { s with nextId := s.nextId + 1, host := { s.host with descs := s.host.descs ++ [d], served := h.q } })

/-- A descriptor completes (R409, R410): its entry waits to be written. -/
def complete (d : Desc) (status code : Nat) (result : List Byte) (s : State) : State :=
  { s with host := { s.host with
      descs := s.host.descs.filter (·.id != d.id)
      entries := s.host.entries ++ [⟨d, status, code, result⟩] } }

/-- A descriptor completes with status SUCCESS. -/
def succeed (d : Desc) (s : State) : State := complete d 0 0 [] s

/-- The detail bytes of a 0x0Axx record for a descriptor (Table 18.2): queue, submission index, opcode. -/
def descDetail (d : Desc) : Nat := d.q + d.index * 2 ^ 16 + d.op * 2 ^ 32

/-- A record raised for a descriptor, with its queue as the master (Table 18.1). -/
def descErr (d : Desc) (code cont : Nat) : Err :=
  { code := code, cont := cont, die := 16, mkind := 2, midx := d.q,
    detail := if code / 256 = 0x0A then descDetail d else 0 }

/-- A descriptor completes with status ERROR, its error recorded. -/
def failDesc (d : Desc) (code : Nat) (s : State) : State := complete d 1 code [] (raise (descErr d code contE) s)

/-- An install by descriptor is rejected whole (containment X): status ERROR, or LIMIT_EXCEEDED where a static limit is passed (R32). -/
def rejectDesc (d : Desc) (status code : Nat) (s : State) : State := complete d status code [] (raise (descErr d code contX) s)

/-- A descriptor freezes its queue (R407): the queue is Frozen with the code and the index, the descriptor completes with status FROZEN. -/
def freezeQueue (d : Desc) (code addr : Nat) (s : State) : State :=
  let s := raise { descErr d code contF with addr := addr, detail := if code = 0x0406 then unitDetail s addr 0 0 else (descErr d code contF).detail } s
  let r := queueAt s d.q
  let s := setQueue s d.q { r with
    state := if r.state = .running then .frozen else r.state, freezeCode := code, freezeIndex := d.index }
  complete d 4 code [] s

/-- The descriptor of a number, if it is still in flight and not complete. -/
def descOf (s : State) (id : Nat) : Option Desc := s.host.descs.find? (·.id == id)

/-- A descriptor of a queue starts (R405, R406): checked for privilege, then performed by `body`. While it may not start it waits. -/
def startDesc (h : Hdr) (op : Nat) (body : Desc → State → State) (s : State) : State :=
  if mayStart s h.q op then
    let (d, s) := begin h op s
    if privileged op && !(queueAt s h.q).priv then failDesc d 0x0A13 s else body d s
  else s

/-- The 64 bytes of a blotter record (Table 18.1). -/
def recordBytes (r : Record) : List Byte :=
  let e := r.err
  let b := bytesLE 2 e.code ++ bytesLE 1 e.cont ++ bytesLE 1 e.die ++ bytesLE 4 r.seq ++ bytesLE 8 r.time ++
    bytesLE 1 e.mkind ++ bytesLE 1 0 ++ bytesLE 2 e.midx ++ bytesLE 4 e.lap ++ bytesLE 8 e.addr ++ bytesLE 16 e.detail ++ bytesLE 12 0
  b ++ bytesLE 4 (crc32c b)

/-- A 64-byte completion entry (Table 14.7). -/
def entryBytes (tag : Nat) (q head : Nat) (phase : Bool) (type status code : Nat) (result : List Byte) : List Byte :=
  bytesLE 4 tag ++ bytesLE 2 q ++ bytesLE 2 head ++ bytesLE 1 (phase.toNat + 2 * type) ++ bytesLE 1 status ++ bytesLE 2 code ++
    bytesLE 4 0 ++ padTo 48 result

/-- Whether a queue's completion ring has no slot that the head doorbell has freed (R410). One slot stays empty, so that a full ring and an empty one differ (DEDUCED, assumption 10). -/
def ringFull (r : Queue) : Bool := (r.cqTail + 1) % 2 ^ r.cqLog == r.cqHead

/-- An entry is written into the next completion slot, and the phase turns at the end of the ring (R410). -/
def writeEntry (q : Nat) (bytes : Bool → List Byte) (s : State) : State :=
  let r := queueAt s q
  let s := wrB s (hostBase + r.cqBase + r.cqTail * 64) (bytes r.phase)
  let t := (r.cqTail + 1) % 2 ^ r.cqLog
  setQueue s q { r with cqTail := t, phase := if t = 0 then !r.phase else r.phase }

/-- The next blotter event goes to its queue's ring, or is lost where that is full (R411). -/
def writeEvent (q i : Nat) (s : State) : State :=
  let s := { s with blotter := { s.blotter with events := s.blotter.events.drop 1 } }
  if ringFull (queueAt s q) then bumpF s .hifBlotterCq F.hifBlotterCq_lost 1
  else
    let body := (s.blotter.ring.get? i).elim [] (fun r => (recordBytes r).take 48)
    let s := writeEntry q (fun p => entryBytes i 0xFFFF (queueAt s q).sqHead p 1 0 0 body) s
    if (queueAt s q).intEn then signalVector (queueAt s q).vector s else s

/-- What the writing of a descriptor's completion entry puts into effect on the address windows (R54): a grant is in force, a revoked id is free. -/
def windowEntry (e : Entry) (s : State) : State :=
  if e.status ≠ 0 then s
  else if e.desc.op = 0x80 then
    { s with windows := s.windows.map (fun p => if p.2.granting = some e.desc.id then (p.1, { p.2 with granting := none }) else p) }
  else if e.desc.op = 0x81 then
    let gone := s.windows.filter (·.2.waiters.contains e.desc.id)
    each (gone.flatMap (·.2.waiters)) (fun i s => (descOf s i).elim s (fun d => succeed d s))
      { s with windows := s.windows.filter (fun p => !p.2.waiters.contains e.desc.id) }
  else s

/-- The oldest completed descriptor's entry of a queue is written, and its vector signalled as R414 gives. -/
def writeCompletion (q : Nat) (s : State) : State :=
  match s.host.entries.find? (·.desc.q == q) with
  | none => s
  | some e =>
    if ringFull (queueAt s q) then s
    else
      let s := writeEntry q (fun p => entryBytes e.desc.tag.toNat q (queueAt s q).sqHead p 0 e.status e.code e.result) s
      let s := windowEntry e { s with host := { s.host with entries := s.host.entries.filter (·.desc.id != e.desc.id) } }
      let r := queueAt s q
      if e.status == 4 || (r.intEn && (e.desc.irq || e.status != 0)) then signalVector r.vector s else s

/-- The queue named by HIF_BLOTTER_CQ takes an event where one is due (R411); otherwise the queue's oldest entry is written. Events never wait for a queue to have rings. -/
def completionWrite (q : Nat) (s : State) : State :=
  if q < 128 then
    match s.blotter.events with
    | i :: _ =>
      if !eventsOn s then writeCompletion q { s with blotter := { s.blotter with events := [] } }
      else if getF s .hifBlotterCq F.hifBlotterCq_queue == q then writeEvent q i s
      else writeCompletion q s
    | [] => writeCompletion q s
  else s

/-- A Stopping queue with nothing in flight becomes Disabled (R403). -/
def queueStopped (q : Nat) (s : State) : State :=
  let r := queueAt s q
  if r.state = .stopping ∧ inFlight s q = 0 then setQueue s q { r with state := .disabled } else s

/-- A doorbell's value is taken where its queue is neither Absent nor Disabled and it lies in the ring; `bad` is a further ground to ignore it (R413). -/
def doorbell (q : Nat) (size : Nat) (val : BitVec 32) (bad : Bool) (take : Nat → Queue → Queue) (s : State) : State :=
  let r := queueAt s q
  if q ≥ 128 ∨ r.state = .absent ∨ r.state = .disabled then s
  else if val.toNat ≥ size ∨ bad then
    raise { code := 0x0A14, cont := contL, mkind := 2, midx := q, detail := q } s
  else setQueue s q (take val.toNat r)

/-- Whether a completion head lies from the old head up to the tail, modulo the ring size (R413). -/
def headInRange (r : Queue) (h : Nat) : Bool :=
  let n := 2 ^ r.cqLog
  decide ((h + n - r.cqHead) % n ≤ (r.cqTail + n - r.cqHead) % n)

/-! ### The commands on queues -/

def execNopDescriptor (h : Hdr) (s : State) : Host.Outcome State Fault Refusal :=
  .next (startDesc h 0x01 succeed s)

def execFenceDescriptor (h : Hdr) (s : State) : Host.Outcome State Fault Refusal :=
  .next (startDesc h 0x02 succeed s)

def execCompletionWrite (q : Nat) (s : State) : Host.Outcome State Fault Refusal := .next (completionWrite q s)

def execQueueStopped (q : Nat) (s : State) : Host.Outcome State Fault Refusal := .next (queueStopped q s)

def execSubmissionTailDoorbell (q : Nat) (val : BitVec 32) (s : State) : Host.Outcome State Fault Refusal :=
  .next (doorbell q (2 ^ (queueAt s q).sqLog) val false (fun v r => { r with sqTail := v }) s)

def execCompletionHeadDoorbell (q : Nat) (val : BitVec 32) (s : State) : Host.Outcome State Fault Refusal :=
  .next (doorbell q (2 ^ (queueAt s q).cqLog) val (!headInRange (queueAt s q) val.toNat) (fun v r => { r with cqHead := v }) s)

end Sys2Proof.Machine
end

