-- ==== Sys2Proof/Machine/Windows.lean ====
section
/-! DEFINITION. Address windows: what an access needs to be admitted, grants and revokes (R51 to R55). -/

namespace Sys2Proof.Machine

/-- Intervals swept from a point in rising order: how far they cover without a gap. -/
def sweep (a : Nat) (l : List (Nat × Nat)) : Nat :=
  (sortBy (·.1) l).foldl (fun r p => if p.1 ≤ r then Nat.max r (p.1 + p.2) else r) a

/-- Whether intervals cover `n` bytes from `a` together. -/
def covers (l : List (Nat × Nat)) (a n : Nat) : Bool := decide (a + n ≤ sweep a l)

/-- The populated spans of Table 2.1. -/
def populated (s : State) : List (Nat × Nat) :=
  (List.range 16).map (fun d => (d * 0x60_0000_0000, 32 * chanBytes s)) ++
  [(0x1000_0000_0000, 0x8000_0000), (0x1100_0000_0000, 0x8000_0000), (hostBase, 2 ^ 47)] ++
  (List.range 16).map (fun d => (0x1200_0000_0000 + d * 0x800_0000, 0x100_0000))

/-- Whether a range has no unmapped address. -/
def mapped (s : State) (a n : Nat) : Bool := covers (populated s) a n

/-- The rights of Table 2.5, as the bits of Table 14.6 code them (DEDUCED, assumption 21). -/
inductive Right where
  | r | w | a
  deriving DecidableEq, Repr

def Right.bit : Right → Nat
  | .r => 0
  | .w => 1
  | .a => 2

/-- Whether a window's holder includes a source: a runner (`none`) or a queue. -/
def holds (w : Window) : Option Nat → Bool
  | none => w.holder == 0 || w.holder == 3
  | some q => w.holder == 2 || w.holder == 3 || (w.holder == 1 && w.queue == q)

/-- The windows that admit a source's access of a right (R52, R54), with their ids. -/
def grantors (s : State) (src : Option Nat) (right : Right) : List (Nat × Window) :=
  s.windows.filter (fun p => p.2.granting.isNone && !p.2.revoking && p.2.rights.testBit right.bit && holds p.2 src)

/-- Whether an access of `n` bytes at `a` is admitted (R52). An access that touches no byte is. -/
def permits (s : State) (src : Option Nat) (right : Right) (a n : Nat) : Bool :=
  n == 0 || covers ((grantors s src right).map (fun p => (p.2.base, p.2.len))) a n

/-- The ids of the windows under which an access to a range was admitted. -/
def admitting (s : State) (src : Option Nat) (right : Right) (a n : Nat) : List Nat :=
  ((grantors s src right).filter (fun p => decide (p.2.base < a + n ∧ a < p.2.base + p.2.len))).map (·.1)

/-- Whether an access admitted under a window has not been performed (R54): an access, a transfer, an array operation or an out-of-band drain. -/
def underWindow (s : State) (id : Nat) : Bool :=
  s.accesses.any (·.wins.contains id) ||
  s.cores.any (fun p => p.2.mover.any (·.wins.contains id) || p.2.array.any (·.wins.contains id) || p.2.odrain.any (·.wins.contains id))

/-- Whether a grant's operands break R53, apart from its id. -/
def badGrant (s : State) (rights holder queue base len : Nat) : Bool :=
  base % 4096 != 0 || len % 4096 != 0 || len == 0 || decide (2 ^ 47 < len) || !mapped s base len || rights % 8 == 0 ||
  (holder == 1 && (decide (128 ≤ queue) || (queueAt s queue).state == .absent))

/-- WINDOW_GRANT (R53): the id is in use from now on, and the window admits from the writing of its completion entry (R54, R405). -/
def windowGrant (id rights holder queue base len : Nat) (d : Desc) (s : State) : State :=
  if badGrant s rights holder queue base len then failDesc d 0x0A12 s
  else if (s.windows.get? id).isSome then
    if s.windows.length = 256 then rejectDesc d 2 0x0AF1 s else failDesc d 0x0A12 s
  else succeed d { s with windows := s.windows.set id ⟨base, len, rights % 8, holder, queue, some d.id, false, []⟩ }

/-- WINDOW_REVOKE (R54): the window admits nothing more, and the descriptor waits. -/
def windowRevoke (id : Nat) (d : Desc) (s : State) : State :=
  match s.windows.get? id with
  | none => succeed d s
  | some w => { s with windows := s.windows.set id { w with revoking := true, waiters := w.waiters ++ [d.id] } }

/-- A revoke whose accesses have all been performed completes: its entry is due, and the id is free once that is written (R54, R405). -/
def windowRevoked (id : Nat) (s : State) : State :=
  match s.windows.get? id with
  | none => s
  | some w =>
    if w.revoking && !underWindow s id then each w.waiters (fun i s => (descOf s i).elim s (fun d => succeed d s)) s else s

def execWindowGrant (h : Hdr) (id rights holder queue base len : Nat) (s : State) : Host.Outcome State Fault Refusal :=
  .next (startDesc h 0x80 (windowGrant id rights holder queue base len) s)

def execWindowRevoke (h : Hdr) (id : Nat) (s : State) : Host.Outcome State Fault Refusal :=
  .next (startDesc h 0x81 (windowRevoke id) s)

def execWindowRevokeComplete (id : Nat) (s : State) : Host.Outcome State Fault Refusal := .next (windowRevoked id s)

end Sys2Proof.Machine
end

