-- ==== Sys2Proof/Machine/Links.lean ====
section
/-! DEFINITION. Links of the optical fabric: bring-up, identity, the control field, freezing, and the fibre control register (R308 to R318, R331 to R343). A link is
numbered fibre * 32, plus the peer's physical slot on a Z fibre. -/

namespace Sys2Proof.Machine

/-- A link that is Dark. -/
def Link.cold : Link := ⟨.dark, false, 0, 0, 0, none, false, 16, 0, 2, 0, 0, none, 0, 255, false, 0, false, 0, false, none⟩

/-- A link. -/
def linkAt (s : State) (l : Nat) : Link := s.fabric.links.get l Link.cold

/-- The fabric changed. -/
def modFab (f : Fabric → Fabric) (s : State) : State := { s with fabric := f s.fabric }

/-- A link changed. -/
def modLink (l : Nat) (f : Link → Link) (s : State) : State := modFab (fun b => { b with links := b.links.set l (f (linkAt s l)) }) s

/-- A link's fibre, edge die and port position. -/
def fibreOf (l : Nat) : Nat := l / 32
def edOf (l : Nat) : Nat := l / 32 / 6
def portOf (l : Nat) : Nat := l / 32 % 6

/-- Whether a fibre is an X or Y fibre. -/
def isXY (f : Nat) : Bool := decide (f % 6 < 4)

/-- The section of the installed lane plan for an edge die. -/
def sectionOf (s : State) (e : Nat) : Option Section := s.fabric.plan.bind (fun p => p.sections[e]?)

/-- An installed channel's entry, where it is valid. -/
def chanEntry (s : State) (e c : Nat) : Option ChanEntry :=
  ((sectionOf s e).bind (fun t => t.chans[c]?)).filter (·.valid)

/-- The nib entries of a fibre: those of the lane plan, or without one the lines of R310. -/
def nibsOf (s : State) (f : Nat) : List NibEntry :=
  match s.fabric.plan with
  | some p => ((p.sections[f / 6]?).bind (fun t => t.nibs[f % 6]?)).getD []
  | none => if isXY f then (List.range 16).map (fun n => ⟨n, 4 + 4 * n, 4 + 4 * n, 0, 0⟩) else []

/-- Whether a channel belongs to a link: every channel of an X or Y fibre, or the one whose peer slot a Z link has. -/
def ofLink (s : State) (l c : Nat) : Bool :=
  isXY (fibreOf l) || (match chanEntry s (edOf l) c with
    | some en => en.phys == l % 32
    | none => false)

/-- Transmit nibs of a link, as position and line. -/
def txNibs (s : State) (l : Nat) : List (Nat × Nat) :=
  ((nibsOf s (fibreOf l)).filter (fun n => n.tx != 255 && ofLink s l n.txChan)).map (fun n => (n.pos, n.tx))

/-- Receive nibs of a link, as position and line. -/
def rxNibs (s : State) (l : Nat) : List (Nat × Nat) :=
  ((nibsOf s (fibreOf l)).filter (fun n => n.rx != 255 && ofLink s l n.rxChan)).map (fun n => (n.pos, n.rx))

/-- Whether a link exists (R331): a Z link only once a lane plan names it; and whether its edge die runs. -/
def linkLive (s : State) (l : Nat) : Bool :=
  decide (fibreOf l < 24) && !inReset s (16 + edOf l) &&
  (if isXY (fibreOf l) then l % 32 == 0 else !(txNibs s l).isEmpty || !(rxNibs s l).isEmpty)

/-- Every link that exists. -/
def liveLinks (s : State) : List Nat :=
  (List.range 24).flatMap (fun f => ((if isXY f then [0] else List.range 18).map (f * 32 + ·)).filter (linkLive s))

/-- A set of positions as a mask. -/
def maskOf (l : List Nat) : Nat := l.foldl (fun m n => m ||| 2 ^ n) 0

/-- The module's coordinate, its physical slot (DEV_CONFIG.slot; 31 where SLOT_ID names none), and its job id. -/
def coordOf (s : State) : Nat := getF s .opxConfig F.opxConfig_coord
def hasCoord (s : State) : Bool := flag s .opxConfig F.opxConfig_coord_valid
def physSlot (s : State) : Nat := if s.power.slotId < 18 then s.power.slotId else 31
def jobOf (s : State) : Nat := getF s .opxConfig F.opxConfig_job
def hasPlan (s : State) : Bool := flag s .opxPlanStatus F.opxPlanStatus_lane_valid

/-- A record of a link (Table 18.2): fibre, swap partner, peer coordinate and serial. -/
def linkErr (s : State) (l code cont swap : Nat) : Err :=
  let p := (linkAt s l).peer
  let ingress := 0x0710 ≤ code ∧ code ≤ 0x0713
  { code := code, cont := cont, die := 16 + edOf l, mkind := if ingress then 4 else 0, midx := if ingress then fibreOf l else 0,
    detail := fibreOf l + swap * 2 ^ 8 + (p.elim 0 (·.coord)) * 2 ^ 16 + (p.elim 0 (·.serial.toNat)) * 2 ^ 32 }

/-- A link's control nib: its lowest-numbered active transmit nib (R317). -/
def controlNib (s : State) (l : Nat) : Nat := ((List.range 16).find? (fun n => (linkAt s l).txActive.testBit n)).getD 0

/-- A control command is sent on a link's control nib (R316, R317), where one is active and the fibre is not held. -/
def sendControl (l cmd arg : Nat) (s : State) : State :=
  if (linkAt s l).txActive = 0 ∨ s.fabric.held.contains (fibreOf l) then s else emit (.control l (controlNib s l) cmd arg) s

/-- A fibre's count of false starts changed. -/
def falseStarts (f : Nat) (g : Nat → Nat) (s : State) : State :=
  modFab (fun b => { b with falseStarts := b.falseStarts.set f (Nat.min (g (b.falseStarts.get f 0)) 0xFFFF) }) s

/-- A false start is recorded (R335). -/
def falseStart (l : Nat) (s : State) : State :=
  raise (linkErr s l 0x0707 contQ 0) (falseStarts (fibreOf l) (· + 1) (modLink l (fun k => { k with owed := false }) s))

/-- A false start that waited for the observation of another fibre is recorded after all (assumption 24). -/
def settle (l : Nat) (s : State) : State := if (linkAt s l).owed then falseStart l s else s

/-- A link goes Dark: from Up with record 0x0701; from Lock, Align or Negotiate as a failure that delays the next attempt (R332). -/
def linkDark (l : Nat) (s : State) : State :=
  let s := settle l s
  let k := linkAt s l
  let s := if k.state = .up then raise (linkErr s l 0x0701 contQ 0) s else s
  let failed := k.state = .lock ∨ k.state = .align ∨ k.state = .negotiate
  modLink l (fun k => { k with
    state := .dark, fails := if failed then k.fails + 1 else k.fails, delin := 0, round := 0, nego := none, shortFec := false,
    txActive := 0, rxActive := 0, reason := 0, swap := 255 }) s

/-- A link returns to Identify, and awaits the peer's identity block again. -/
def toIdentify (l : Nat) (s : State) : State :=
  modLink l (fun k => { k with state := .identify, peer := none, reason := 0, swap := 255 }) (settle l s)

/-- Whether the source that a fibre's switch selects gives light: fitted, on, warm and without fault (R350, R359, assumption 48). -/
def fibreLit (s : State) (f : Nat) : Bool :=
  let c := s.light.sources.get (getF s (.lgtFibreStatus f) F.lgtFibreStatus_source) Source.absent
  c.fitted && c.en && c.rdy && c.faultN

/-- Light is present on a nib (R332). A link that failed in bring-up under the same light waits for its retry, and a fibre whose own rings have no light stays Dark (R359). -/
def lightDetected (l : Nat) (s : State) : State :=
  if linkLive s l then
    let k := linkAt s l
    if k.state = .dark ∧ !(k.light && k.fails != 0) ∧ fibreLit s (fibreOf l) then modLink l (fun k => { k with state := .lock, light := true }) s
    else modLink l (fun k => { k with light := true }) s
  else s

/-- The light subsystem changed. -/
def modLight (f : Light → Light) (s : State) : State := { s with light := f s.light }

/-- A transmit ring or receive filter of a fibre locks, or is no longer locked. -/
def setLock (f nib : Nat) (tx on : Bool) (s : State) : State :=
  let put (v : Nat) : Nat := if on then v ||| 2 ^ nib else v ^^^ (v &&& 2 ^ nib)
  modLight (fun g => if tx then { g with txLocked := g.txLocked.set f (put (g.txLocked.get f 0)) }
    else { g with rxLocked := g.rxLocked.set f (put (g.rxLocked.get f 0)) }) s

/-- Every nib of a link is lost (R332). A fibre that the peer holds carries no light for that reason (R355, R356). -/
def lightLost (l : Nat) (s : State) : State :=
  if linkLive s l && !s.fabric.peerHeld.contains (fibreOf l) then
    modLink l (fun k => { k with light := false }) (if (linkAt s l).state = .dark then s else linkDark l s)
  else s

/-- A nib is locked both ways (R332). -/
def nibLock (l nib : Nat) (s : State) : State :=
  if linkLive s l && (linkAt s l).state != .dark && (rxNibs s l).any (·.1 == nib) then
    let s := setLock (fibreOf l) nib true true (setLock (fibreOf l) nib false true s)
    if (linkAt s l).state = .lock then modLink l (fun k => { k with state := .align }) s else s
  else s

/-- A nib's flit boundaries are found in what its receiver hears, if they are there (R311, R332, R333). -/
def delineated (l nib : Nat) (stream : List Byte) (s : State) : State :=
  if linkLive s l && (rxNibs s l).any (·.1 == nib) && (flitBoundary stream).isSome then
    let k := linkAt s l
    let set (k : Link) : Link := { k with delin := k.delin ||| 2 ^ nib, rxActive := k.rxActive ||| 2 ^ nib }
    match k.state with
    | .align => modLink l (fun k => { set k with state := .negotiate }) s
    | .negotiate => if k.shortFec then toIdentify l (modLink l set s) else modLink l set s
    | .identify => modLink l set s
    | .up => modLink l set s
    | .quarantine => modLink l set s
    | .dark => s
    | .lock => s
  else s

/-- The features of a minor level (R337, Table 11.12): split markers from level 1.2 on. -/
def featuresOf (minor : Nat) : Nat := if minor < 2 then 6 else 7

/-- What the module offers in negotiation (R333, Table 11.12), limited to the level the link has run at (R337). -/
def offer (s : State) (l round : Nat) : Nego :=
  let lines := ((rxNibs s l).filter (fun n => (linkAt s l).delin.testBit n.1)).map (·.2)
  { fec := if (linkAt s l).minor < 1 then 1 else 1 + 2 * getF s .opxConfig F.opxConfig_short_fec + 4 * getF s .opxConfig F.opxConfig_short_prefer,
    features := featuresOf (linkAt s l).minor, rx := BitVec.ofNat 72 (maskOf lines), credit := 16, round := round }

/-- Whether both sides support and prefer short FEC, at a level that has it (Table 11.13, R337). -/
def agreeShort (s : State) (l : Nat) (n : Nego) : Bool :=
  decide (1 ≤ (linkAt s l).minor) && n.fec.testBit 1 && n.fec.testBit 2 && flag s .opxConfig F.opxConfig_short_fec && flag s .opxConfig F.opxConfig_short_prefer

/-- The outcome of negotiation, once both sides' third rounds are out (R333, Table 11.13). With short FEC the link changes code before it identifies. -/
def negotiated (l : Nat) (s : State) : State :=
  match (linkAt s l).nego with
  | none => s
  | some n =>
    if (linkAt s l).round < 3 ∨ n.round < 3 then s
    else
      let tx := maskOf (((txNibs s l).filter (fun p => n.rx.getLsbD p.2)).map (·.1))
      if tx = 0 ∨ (linkAt s l).rxActive = 0 then linkDark l s
      else
        let s := modLink l (fun k => { k with txActive := tx, credit := Nat.min 16 n.credit, features := featuresOf (linkAt s l).minor &&& n.features }) s
        if agreeShort s l n then s else toIdentify l s

/-- The next round of negotiation flits is sent (R333). -/
def negotiationRound (l : Nat) (s : State) : State :=
  let k := linkAt s l
  if linkLive s l && !s.fabric.held.contains (fibreOf l) && k.state == .negotiate && decide (k.round < 3) then
    negotiated l (modLink l (fun k => { k with round := k.round + 1 }) (emit (.negotiation l (offer s l (k.round + 1))) s))
  else s

/-- A negotiation flit of the peer (R333). -/
def negotiationIn (l : Nat) (n : Nego) (s : State) : State :=
  if linkLive s l && (linkAt s l).state == .negotiate then negotiated l (modLink l (fun k => { k with nego := some n }) s) else s

/-- The change to short FEC (R333): the receivers delineate again. -/
def fecChange (l : Nat) (s : State) : State :=
  let k := linkAt s l
  if linkLive s l && k.state == .negotiate && k.txActive != 0 && k.nego.any (agreeShort s l) then
    modLink l (fun k => { k with shortFec := true, delin := 0, rxActive := 0 }) s
  else s

/-- A link stuck in Lock, Align or Negotiate returns to Dark (R332). -/
def bringupTimeout (l : Nat) (s : State) : State :=
  let k := (linkAt s l).state
  if linkLive s l && (k == .lock || k == .align || k == .negotiate) then linkDark l s else s

/-- A Dark link with light tries again (R332), unless its fibre is held (R356). -/
def bringupRetry (l : Nat) (s : State) : State :=
  let k := linkAt s l
  if linkLive s l && k.state == .dark && k.light && fibreLit s (fibreOf l) && !s.fabric.held.contains (fibreOf l) then modLink l (fun k => { k with state := .lock }) s
  else s

/-! ### Identity (R334 to R339) -/

/-- The module's identity block on a link (Table 11.14). -/
def ownIdentity (s : State) (l : Nat) : IdBlock :=
  { serial := s.sec.part.serial, port := portOf l, fibre := edOf l, coord := if hasCoord s then coordOf s else 0xFFFF, phys := physSlot s,
    level := getF s .opxConfig F.opxConfig_level, job := if hasPlan s then jobOf s else 0xFFFF,
    assigned := flag s .opxConfig F.opxConfig_mode, planCrc := s.fabric.cablingCrc }

/-- The identity block goes out: in Identify until the peer's has come, and in Quarantine (R334, R336). A false start still owed then waits no longer. -/
def identitySend (l : Nat) (s : State) : State :=
  let s := settle l s
  let k := linkAt s l
  if linkLive s l && !s.fabric.held.contains (fibreOf l) && ((k.state == .identify && k.peer.isNone) || k.state == .quarantine) then emit (.identity l (ownIdentity s l)) s else s

/-- The neighbour's coordinate that Table 11.1 gives for a port. -/
def torusPeer (coord port : Nat) : Nat :=
  let x := coord % 16
  let y := coord / 16 % 16
  let k := coord / 256
  let at_ (x y : Nat) : Nat := x + 16 * y + 256 * k
  match port with
  | 0 => if x = 0 then at_ 15 ((y + 8) % 16) else at_ (x - 1) y
  | 1 => if x = 15 then at_ 0 ((y + 8) % 16) else at_ (x + 1) y
  | 2 => at_ x ((y + 15) % 16)
  | _ => at_ x ((y + 1) % 16)

/-- The port position that faces a torus port. -/
def facing (port : Nat) : Nat := if port % 2 = 0 then port + 1 else port - 1

/-- The entry of the cabling plan for an X or Y fibre. -/
def cableOf (s : State) (f : Nat) : Option CableEntry := s.fabric.cabling[f / 6 * 4 + f % 6]?

/-- Whether an observation is what a fibre's cabling plan entry expects (R335 step 4, R338). With no plan, none is (DEDUCED, assumption 23). -/
def cabledAs (s : State) (f : Nat) (i : IdBlock) : Bool :=
  match cableOf s f with
  | some e => e.cabled && e.coord == i.coord && e.port == i.port && e.fibre == i.fibre
  | none => false

/-- Step 3 of R335. -/
def structural (s : State) (l : Nat) (i : IdBlock) : Bool :=
  if isXY (fibreOf l) then i.port == facing (portOf l) && i.coord == torusPeer (coordOf s) (portOf l)
  else i.port == portOf l && i.fibre == edOf l && i.phys == l % 32 &&
    (List.range 64).any (fun c => (chanEntry s (edOf l) c).any (fun en => en.phys == l % 32 && en.mask.testBit (portOf l) && en.coord == i.coord))

/-- What the checks of R335 make of an identity block: none to stay in Identify, 0 for Up, otherwise the quarantine reason of the first failure. -/
def identityVerdict (s : State) (l : Nat) (i : IdBlock) : Option Nat :=
  if i.level / 16 ≠ getF s .opxConfig F.opxConfig_level / 16 then some 1
  else if !hasCoord s || i.coord == 0xFFFF then none
  else if !structural s l i then some 4
  else if isXY (fibreOf l) && !flag s .opxConfig F.opxConfig_mode && !cabledAs s (fibreOf l) i then some 2
  else some 0

/-- Whether swapped cables are looked for on a fibre: an X or Y fibre in plan mode (R335, R339). -/
def swapSeen (s : State) (f : Nat) : Bool := isXY f && !flag s .opxConfig F.opxConfig_mode

/-- The fibre whose cables are swapped with those of a fibre that observes `i` (R335): it is quarantined for a false start, and each observes what the other expects. -/
def swapPartner (s : State) (f : Nat) (i : IdBlock) : Option Nat :=
  (List.range 24).find? (fun b => b != f && isXY b && cabledAs s b i && (linkAt s (b * 32)).state == .quarantine &&
    ((linkAt s (b * 32)).reason == 2 || (linkAt s (b * 32)).reason == 4) && (linkAt s (b * 32)).peer.any (cabledAs s f))

/-- Whether a fibre that expects what another observes has yet to make an observation of its own, so that the two may prove swapped. -/
def maySwap (s : State) (f : Nat) (i : IdBlock) : Bool :=
  (List.range 24).any (fun b => b != f && isXY b && cabledAs s b i && linkLive s (b * 32) && (linkAt s (b * 32)).peer.isNone)

/-- A link is quarantined. -/
def quarantine (l reason swap : Nat) (s : State) : State :=
  modLink l (fun k => { k with state := .quarantine, reason := reason, swap := swap }) s

/-- A failed identity check's consequences (R335). A false start that may prove the first half of a swap is owed until the other fibre is observed; one recorded already no
longer counts when the swap is seen (DEDUCED, assumption 24). -/
def identityFails (l reason : Nat) (i : IdBlock) (s : State) : State :=
  let f := fibreOf l
  if reason = 1 then raise (linkErr s l 0x0709 contQ 0) (quarantine l 1 255 s)
  else
    match if swapSeen s f then swapPartner s f i else none with
    | some b =>
      let s := if (linkAt s (b * 32)).owed then modLink (b * 32) (fun k => { k with owed := false }) s else falseStarts b (· - 1) s
      let s := quarantine (b * 32) 3 f (quarantine l 3 b s)
      raise (linkErr s l 0x0708 contQ b) s
    | none =>
      if swapSeen s f && maySwap s f i then modLink l (fun k => { k with owed := true }) (quarantine l reason 255 s)
      else falseStart l (quarantine l reason 255 s)

/-- False starts owed whose other fibre has now been observed, and shows no swap, are recorded. -/
def settleAll (s : State) : State :=
  each ((List.range 24).filter (fun f => (linkAt s (f * 32)).owed && !((linkAt s (f * 32)).peer.any (maySwap s f)))) (fun f => settle (f * 32)) s

/-- A peer's identity block is judged. In Quarantine only a changed observation counts. -/
def identityJudged (l : Nat) (i : IdBlock) (s : State) : State :=
  let k := linkAt s l
  if linkLive s l && (k.state == .identify || (k.state == .quarantine && k.peer != some i)) then
    let s := modLink l (fun k => { k with peer := some i }) (settle l s)
    match identityVerdict s l i with
    | none => s
    | some 0 =>
      if k.state = .identify then
        let minor := Nat.min (getF s .opxConfig F.opxConfig_level % 16) (i.level % 16)
        modLink l (fun k => { k with
          state := .up, fails := 0, minor := minor, features := k.features &&& featuresOf minor, shortFec := k.shortFec && decide (1 ≤ minor) }) s
      else s
    | some r => identityFails l r i s
  else s

/-- A peer's identity block (R335 to R337). -/
def identityIn (l : Nat) (i : IdBlock) (s : State) : State := settleAll (identityJudged l i s)

/-- Every quarantined link returns to Identify (R336: a new cabling plan or coordinate). -/
def requarantine (s : State) : State :=
  each ((liveLinks s).filter (fun l => (linkAt s l).state == .quarantine)) toIdentify s

/-! ### Freezing and pausing (R316 to R318, R341, R342) -/

/-- A link's ingress freezes for a reason, and the peer is told. -/
def freezeIn (l reason : Nat) (s : State) : State :=
  sendControl l 1 reason (modLink l (fun k => { k with frozenIn := true, freezeReason := reason }) s)

/-- The peer's freeze as this side learns it: it holds its packets, and records 0x0714 once. -/
def peerFrozen (l : Nat) (frozen : Bool) (s : State) : State :=
  let was := (linkAt s l).frozenOut
  let s := modLink l (fun k => { k with frozenOut := frozen }) s
  if frozen && !was then raise (linkErr s l 0x0714 contL 0) s else s

/-- Whether a link delivers flits, so that its control field is read. -/
def carriesFlits (s : State) (l : Nat) : Bool :=
  linkLive s l && (linkAt s l).state != .dark && (linkAt s l).state != .lock

/-- Classes the driver has paused on a fibre, as the control field places them. -/
def pauseBits (s : State) (f : Nat) : Nat := 2 * getF s (.opxFibreCtl f) F.opxFibreCtl_pause

/-- A link that has lost every receive or every transmit nib in Up or Quarantine returns to Dark (R332). -/
def darkIfBare (l : Nat) (s : State) : State :=
  let k := linkAt s l
  if (k.rxActive = 0 ∨ k.txActive = 0) ∧ (k.state = .up ∨ k.state = .quarantine) then linkDark l s else s

/-- A nib of the peer stops (R316): the receive nib of that position (DESIGN CHOICE, assumption 22) delivers no more. -/
def nibLeave (l nib : Nat) (s : State) : State :=
  if carriesFlits s l then
    darkIfBare l (modLink l (fun k => { k with rxActive := k.rxActive &&& (0xFFFF - 2 ^ (nib % 16)) }) s)
  else s

/-- A nib of the peer starts (R316). -/
def nibJoin (l nib : Nat) (s : State) : State :=
  if carriesFlits s l && (rxNibs s l).any (·.1 == nib) then modLink l (fun k => { k with rxActive := k.rxActive ||| 2 ^ nib }) s else s

/-- The link that a fibre's control register names. -/
def namedLink (s : State) (f : Nat) : Nat :=
  if isXY f then f * 32 else f * 32 + getF s (.opxFibreCtl f) F.opxFibreCtl_peer_slot

/-- The driver's thaw (R342), ignored during an emergency halt (R416). -/
def fibreThaw (l : Nat) (s : State) : State :=
  if flag s .hifEmergencyHalt F.hifEmergencyHalt_active || !linkLive s l then s
  else sendControl l 2 0 (modLink l (fun k => { k with frozenIn := false, freezeReason := 0 }) s)

/-- The driver's adopt (R336): the fibre's plan entry becomes its observation, and a quarantined link identifies again. -/
def fibreAdopt (f : Nat) (s : State) : State :=
  match (linkAt s (f * 32)).peer with
  | some i =>
    if isXY f then
      let n := f / 6 * 4 + f % 6
      let cable : List CableEntry := if s.fabric.cabling.isEmpty then List.replicate 16 ⟨0, 0, 0, false⟩ else s.fabric.cabling
      let s := modFab (fun b => { b with cabling := cable.set n ⟨i.coord, i.port, i.fibre, true⟩ }) s
      if (linkAt s (f * 32)).state = .quarantine then toIdentify (f * 32) s else s
    else s
  | none => s

/-- A write of OPX_FIBRE_f_CTL (Table 11.18): the fields, then freeze, thaw, adopt and retrain in that order. -/
def fibreCtl (f : Nat) (val : BitVec 64) (s : State) : State :=
  if f ≥ 24 ∨ inReset s (16 + f / 6) then s
  else
    let v := val.toNat
    let old := pauseBits s f
    let s := setF (setF s (.opxFibreCtl f) F.opxFibreCtl_pause (bits v 4 3)) (.opxFibreCtl f) F.opxFibreCtl_peer_slot (bits v 8 5)
    let new := pauseBits s f
    let l := namedLink s f
    let s := if new &&& (15 - old) != 0 then sendControl l 3 (new &&& (15 - old)) s else s
    let s := if old &&& (15 - new) != 0 then sendControl l 4 (old &&& (15 - new)) s else s
    let s := if v.testBit 3 && linkLive s l then freezeIn l 2 s else s
    let s := if v.testBit 0 then fibreThaw l s else s
    let s := if v.testBit 1 then fibreAdopt f s else s
    if v.testBit 2 && linkLive s l then linkDark l s else s

/-! ### The commands on links -/

def execLightDetected (l : Nat) (s : State) : Host.Outcome State Fault Refusal := .next (lightDetected l s)
def execLinkLightLost (l : Nat) (s : State) : Host.Outcome State Fault Refusal := .next (lightLost l s)
def execBringupTimeout (l : Nat) (s : State) : Host.Outcome State Fault Refusal := .next (bringupTimeout l s)
def execBringupRetryTimer (l : Nat) (s : State) : Host.Outcome State Fault Refusal := .next (bringupRetry l s)
def execNibLock (l nib : Nat) (s : State) : Host.Outcome State Fault Refusal := .next (nibLock l nib s)
def execFlitDelineation (l : Nat) (heard : HeardNib) (s : State) : Host.Outcome State Fault Refusal := .next (delineated l heard.nib heard.stream s)
def execNegotiationRound (l : Nat) (s : State) : Host.Outcome State Fault Refusal := .next (negotiationRound l s)
def execNegotiation (l : Nat) (n : Nego) (s : State) : Host.Outcome State Fault Refusal := .next (negotiationIn l n s)
def execFecChange (l : Nat) (s : State) : Host.Outcome State Fault Refusal := .next (fecChange l s)
def execIdentityBlock (l : Nat) (i : IdBlock) (s : State) : Host.Outcome State Fault Refusal := .next (identityIn l i s)
def execIdentitySendTimer (l : Nat) (s : State) : Host.Outcome State Fault Refusal := .next (identitySend l s)

/-- FREEZE (R342, R318): the control field of a link that delivers flits. -/
def execFreeze (l reason : Nat) (s : State) : Host.Outcome State Fault Refusal :=
  .next (if carriesFlits s l && decide (reason < 3) then peerFrozen l true s else s)

def execThaw (l : Nat) (s : State) : Host.Outcome State Fault Refusal :=
  .next (if carriesFlits s l then peerFrozen l false s else s)

def execPause (l classes : Nat) (s : State) : Host.Outcome State Fault Refusal :=
  .next (if carriesFlits s l then modLink l (fun k => { k with paused := k.paused ||| (classes &&& 14) }) s else s)

def execResume (l classes : Nat) (s : State) : Host.Outcome State Fault Refusal :=
  .next (if carriesFlits s l then modLink l (fun k => { k with paused := k.paused &&& (15 - (classes &&& 14)) }) s else s)

def execNibLeave (l nib : Nat) (s : State) : Host.Outcome State Fault Refusal := .next (nibLeave l nib s)
def execNibJoin (l nib : Nat) (s : State) : Host.Outcome State Fault Refusal := .next (nibJoin l nib s)

/-- FIBRE_HOLD (R316, R356): the peer stops every nib of the fibre, and this side suspends its gap and nak timers for it. -/
def execFibreHold (f : Nat) (s : State) : Host.Outcome State Fault Refusal :=
  .next (if f < 24 ∧ !inReset s (16 + f / 6) ∧ !s.fabric.peerHeld.contains f then modFab (fun b => { b with peerHeld := f :: b.peerHeld }) s else s)

def execFibreResume (f : Nat) (s : State) : Host.Outcome State Fault Refusal :=
  .next (if f < 24 ∧ !inReset s (16 + f / 6) then modFab (fun b => { b with peerHeld := b.peerHeld.filter (· != f) }) s else s)

def execKeepalive (l : Nat) (frozen : Bool) (classes : Nat) (s : State) : Host.Outcome State Fault Refusal :=
  .next (if carriesFlits s l then peerFrozen l frozen (modLink l (fun k => { k with paused := classes &&& 14 }) s) else s)

/-- KEEPALIVE_TIMER (R317). -/
def execKeepaliveTimer (l : Nat) (s : State) : Host.Outcome State Fault Refusal :=
  .next (if linkLive s l then sendControl l 10 ((linkAt s l).frozenIn.toNat + pauseBits s (fibreOf l)) s else s)

def execFibreThaw (f : Nat) (val : BitVec 64) (s : State) : Host.Outcome State Fault Refusal := .next (regWrite (.opxFibreCtl f) (fibreCtl f val) s)
def execFibreAdopt (f : Nat) (val : BitVec 64) (s : State) : Host.Outcome State Fault Refusal := .next (regWrite (.opxFibreCtl f) (fibreCtl f val) s)
def execFibreRetrain (f : Nat) (val : BitVec 64) (s : State) : Host.Outcome State Fault Refusal := .next (regWrite (.opxFibreCtl f) (fibreCtl f val) s)
def execFibreFreeze (f : Nat) (val : BitVec 64) (s : State) : Host.Outcome State Fault Refusal := .next (regWrite (.opxFibreCtl f) (fibreCtl f val) s)
def execFibrePause (f : Nat) (val : BitVec 64) (s : State) : Host.Outcome State Fault Refusal := .next (regWrite (.opxFibreCtl f) (fibreCtl f val) s)

/-- A C3 flit that a link delivers acts where a C3 buffer is free; otherwise it is dropped and counted (R321, assumption 118). -/
def takeC3 (r : C3Link) (act : State → State) (s : State) : State :=
  let l := r.link
  if linkLive s l && ((linkAt s l).state == .up || (linkAt s l).state == .quarantine) then
    (if r.room then act s else bumpF s (.opxFibreErrcnt (fibreOf l)) F.opxFibreErrcnt_c3_drop 1)
  else s

/-- MANAGEMENT_MESSAGE (R340): handed to the module's firmware. C3 flits pass in Up and in Quarantine. -/
def execManagementMessage (l : C3Link) (data : List (BitVec 8)) (s : State) : Host.Outcome State Fault Refusal :=
  .next (takeC3 l (emit (.firmware data)) s)

end Sys2Proof.Machine
end

