-- ==== Sys2Proof/Machine/Channels.lean ====
section
/-! DEFINITION. Channels of the optical fabric: opening, credits, sequences and retry, forwarding; lane plans, cabling plans and their checks
(R319 to R330, R338, R344). A channel is named by its edge die and number, and keyed edge die * 64 + channel. -/

namespace Sys2Proof.Machine

/-- The class of four counts at an index. -/
def nth (l : List Nat) (i : Nat) : Nat := l.getD i 0

/-- A channel that has just been installed: Closed, every count fresh, and every receive buffer of its entry free to be granted (assumption 20). -/
def Channel.fresh (bufs : List Nat) : Channel :=
  ⟨.closed, false, false, [], [], 0, 0, [0, 0, 0, 0], bufs, 0, false, 0, [], 2, false, [], none, [], 0⟩

/-- The key of a channel. -/
def chanKey (e c : Nat) : Nat := e * 64 + c

/-- A channel. -/
def chanAt (s : State) (e c : Nat) : Channel :=
  s.fabric.chans.get (chanKey e c) (Channel.fresh ((chanEntry s e c).elim [0, 0, 0, 0] (·.bufs)))

/-- A channel changed. -/
def modChan (e c : Nat) (f : Channel → Channel) (s : State) : State :=
  modFab (fun b => { b with chans := b.chans.set (chanKey e c) (f (chanAt s e c)) }) s

/-- The links of a channel (R331): one for each fibre of its mask. -/
def chanLinks (s : State) (e c : Nat) : List Nat :=
  match chanEntry s e c with
  | some en => ((List.range 6).filter (fun p => en.mask.testBit p)).map (fun p =>
      (e * 6 + p) * 32 + (if p < 4 then 0 else en.phys))
  | none => []

/-- The channel whose flits a link carries. -/
def chanOf (s : State) (l : Nat) : Option Nat :=
  (List.range 64).find? (fun c => (chanLinks s (edOf l) c).contains l)

/-- Links of a channel that are Up. -/
def upLinks (s : State) (e c : Nat) : List Nat :=
  (chanLinks s e c).filter (fun l => linkLive s l && (linkAt s l).state == .up)

/-- Its Up links whose fibre is not held (R356): those on which flits go out. -/
def freeLinks (s : State) (e c : Nat) : List Nat := (upLinks s e c).filter (fun l => !s.fabric.held.contains (fibreOf l))

/-- The active nibs of some links, each as link and position. -/
def nibsIn (active : Link → Nat) (s : State) (ls : List Nat) : List (Nat × Nat) :=
  ls.flatMap (fun l => ((List.range 16).filter (fun n => (active (linkAt s l)).testBit n)).map (fun n => (l, n)))

/-- The transmit nibs over which a channel's flits are spread (R320), and the receive nibs that deliver its flits. -/
def sendNibs (s : State) (e c : Nat) : List (Nat × Nat) := nibsIn (·.txActive) s (freeLinks s e c)
def recvNibs (s : State) (e c : Nat) : List (Nat × Nat) := nibsIn (·.rxActive) s (upLinks s e c)

/-- Flits of a packet (R320, R324): a header and its data flits. -/
def flitsOf (p : Packet) : Nat :=
  match p.cargo with
  | .relay r => 1 + relayFlits r
  | .write w => 1 + (w.data.length - 208 + 239) / 240

/-- Flits sent on a channel and not acknowledged: of the oldest packet only those after the last sequence acknowledged. -/
def unacked (ch : Channel) : Nat := sumOf (ch.replay.map (fun p => p.flits - p.acked))

/-- The largest packet, in flits, that every Up link of a channel accepts (R320). -/
def packetLimit (s : State) (e c : Nat) : Nat := (upLinks s e c).foldl (fun m l => Nat.min m (linkAt s l).credit) 16

/-- Whether a channel may start a packet of a class now: it is Open and not held, it has a credit, and the packet is within what its links accept and the window holds
(R320 to R322, R328, R342). -/
def sendable (s : State) (e c cls flits : Nat) : Bool :=
  let ch := chanAt s e c
  let links := chanLinks s e c
  ch.state == .open && !ch.stopped && !links.any (fun l => (linkAt s l).frozenOut) &&
  (freeLinks s e c).any (fun l => (linkAt s l).txActive != 0 && !(linkAt s l).paused.testBit cls) &&
  decide (0 < nth ch.credits cls) && decide (flits ≤ packetLimit s e c) &&
  (chanEntry s e c).any (fun en => decide (unacked ch + flits ≤ en.replay * 256))

/-- Packets of a class that wait for an egress channel: its own, then those held for transit in ingress channels, each with the channel it arrived on. -/
def waitingFor (s : State) (e c cls : Nat) : List (Option Nat × Packet) :=
  (((chanAt s e c).queue.filter (·.cls == cls)).map (fun p => (none, p))) ++
  s.fabric.chans.flatMap (fun q => (q.2.transit.filter (fun t => t.1 == chanKey e c && t.2.cls == cls)).map (fun t => (some q.1, t.2)))

/-- Whether the order of R319 lets a class start a packet: C0 first, C1 and C2 one packet in turn. -/
def turnOf (s : State) (e c cls : Nat) : Bool :=
  let ready (k : Nat) : Bool := (waitingFor s e c k).any (fun p => sendable s e c k (flitsOf p.2))
  cls == 0 || (!ready 0 && !((chanAt s e c).turn == cls && ready (3 - cls)))

/-- Whether packets hold a channel's C3 flits back (R319): a C0 packet that may go, or C1 and C2 packets that may go while they have sent less than 15 flits since the last C3 flit. -/
def c3Waits (s : State) (e c : Nat) : Bool :=
  let ready (k : Nat) : Bool := (waitingFor s e c k).any (fun p => sendable s e c k (flitsOf p.2))
  ready 0 || ((ready 1 || ready 2) && decide ((chanAt s e c).since3 < 15))

/-- A C3 flit as it leaves, and the link it leaves by. -/
def C3Flit.out : C3Flit → Out
  | .opening l job coord phys => .channelOpen l job coord phys
  | .time l m => .timeMessage l m

def C3Flit.link : C3Flit → Nat
  | .opening l _ _ _ => l
  | .time l _ => l

/-- The C3 flits that wait on a channel go out as far as R319 lets them. -/
def flushC3 (e c : Nat) (s : State) : State :=
  each (chanAt s e c).c3 (fun _ s =>
    match (chanAt s e c).c3 with
    | [] => s
    | x :: xs => if c3Waits s e c || s.fabric.held.contains (fibreOf x.link) then s else modChan e c (fun ch => { ch with c3 := xs, since3 := 0 }) (emit x.out s)) s

/-- C3 flits of a channel are sent, or wait for their turn behind those that wait (R319). -/
def sendC3 (e c : Nat) (xs : List C3Flit) (s : State) : State := flushC3 e c (modChan e c (fun ch => { ch with c3 := ch.c3 ++ xs }) s)

/-- A packet goes out on a channel: a credit spent, its flits numbered and kept for replay; then C3 flits whose turn it is. -/
def sendPacket (e c : Nat) (p : Packet) (s : State) : State :=
  let ch := chanAt s e c
  let n := flitsOf p
  let s := emit (.packet e c ch.nextSeq p 0 (sendNibs s e c) false) s
  flushC3 e c (modChan e c (fun ch => { ch with
    replay := ch.replay ++ [⟨ch.nextSeq, n, 0, p⟩], nextSeq := (ch.nextSeq + n) % 65536,
    credits := ch.credits.set p.cls (nth ch.credits p.cls - 1), turn := if p.cls = 0 then ch.turn else p.cls,
    since3 := if p.cls = 0 then ch.since3 else ch.since3 + n }) s)

/-- PACKET_SEND (R321): the channel's oldest packet of a class. -/
def packetSend (e c cls : Nat) (s : State) : State :=
  match (chanAt s e c).queue.find? (·.cls == cls) with
  | some p =>
    if cls < 3 ∧ sendable s e c cls (flitsOf p) ∧ turnOf s e c cls then
      sendPacket e c p (modChan e c (fun ch => { ch with queue := ch.queue.erase p }) s)
    else s
  | none => s

/-! ### Open flits (R329) -/

/-- Numbering begins again at 0 as a channel opens (R322): what was sent under other numbers and what arrived early is given up, and every buffer is free to be granted. -/
def renumber (e c : Nat) (s : State) : State :=
  let bufs := (chanEntry s e c).elim [0, 0, 0, 0] (·.bufs)
  modChan e c (fun ch => { ch with
    replay := [], nextSeq := 0, expect := 0, early := [], gap := false, failed := none, resends := 0, sinceAck := 0,
    credits := [0, 0, 0, 0], freed := (List.range 4).map (fun i => nth bufs i - (ch.transit.filter (·.2.cls == i)).length) }) s

/-- A channel is Open from now on. -/
def openNow (e c : Nat) (s : State) : State :=
  if (chanAt s e c).state = .open then s else modChan e c (fun ch => { ch with state := .open }) (renumber e c s)

/-- The timer of channel-open flits. -/
def channelOpenTimer (e c : Nat) (s : State) : State :=
  if (chanEntry s e c).isNone ∨ (freeLinks s e c).isEmpty then s
  else
    let s := sendC3 e c ((freeLinks s e c).map (fun l => .opening l (jobOf s) (coordOf s) (physSlot s))) s
    let ch := chanAt s e c
    let s := modChan e c (fun ch => { ch with sentOpen := true }) s
    if ch.state = .refused then s
    else if ch.gotOpen then openNow e c s
    else modChan e c (fun ch => { ch with state := if ch.state = .open then .open else .opening }) s

/-- Packets that wait in ingress channels for an egress channel are given up, their buffers freed. -/
def dropTransit (e c : Nat) (s : State) : State :=
  modFab (fun b => { b with chans := b.chans.map (fun q =>
    let gone (i : Nat) : Nat := (q.2.transit.filter (fun t => t.1 == chanKey e c && t.2.cls == i)).length
    (q.1, { q.2 with transit := q.2.transit.filter (fun t => t.1 != chanKey e c), freed := (List.range 4).map (fun i => nth q.2.freed i + gone i) })) }) s

/-- The peer's channel has begun anew, its edge die having been reset (R345): this side gives up its replay store and held packets too, and starts at sequence 0. -/
def peerAnew (e c : Nat) (s : State) : State := dropTransit e c (modChan e c (fun ch => { ch with queue := [] }) (renumber e c s))

/-- A channel-open flit arrives. `anew` tells that the peer's channel has begun anew (assumption 19). -/
def channelOpenIn (l job coord : Nat) (anew : Bool) (s : State) : State :=
  if linkLive s l && (linkAt s l).state == .up then
    match chanOf s l with
    | none => s
    | some c =>
      let e := edOf l
      if job = jobOf s ∧ (chanEntry s e c).any (·.coord == coord) then
        let s := if anew && (chanAt s e c).state == .open then peerAnew e c s else s
        let s := modChan e c (fun ch => { ch with gotOpen := true }) s
        if (chanAt s e c).sentOpen then openNow e c s else modChan e c (fun ch => { ch with state := .opening }) s
      else
        let was := (chanAt s e c).state
        let s := modChan e c (fun ch => { ch with gotOpen := false, state := .refused }) s
        if was = .refused then s else raise (linkErr s l 0x070C contL 0) s
  else s

/-! ### Acknowledgement and retry (R322, R323) -/

/-- A count in the replays field of a fibre. -/
def countReplays (f n : Nat) (s : State) : State := bumpF s (.opxFibreErrcnt f) F.opxFibreErrcnt_replays n

/-- Every unacknowledged flit of a channel is sent again, in order, on its active nibs. -/
def sendAgain (e c f : Nat) (s : State) : State :=
  let ch := chanAt s e c
  countReplays f (unacked ch) (each ch.replay (fun p s => emit (.packet e c p.seq p.packet p.acked (sendNibs s e c) true) s) s)

/-- A channel resends; where 8 resends in a row have brought no progress, the link returns to Dark instead (assumption 119). -/
def resend (e c l : Nat) (s : State) : State :=
  let ch := chanAt s e c
  if ch.replay.isEmpty then s
  else if 8 ≤ ch.resends then linkDark l (raise (linkErr s l 0x070B contQ 0) (modChan e c (fun ch => { ch with resends := 0 }) s))
  else sendAgain e c (fibreOf l) (modChan e c (fun ch => { ch with resends := ch.resends + 1 }) s)

/-- What an ack of a sequence leaves unacknowledged: packets with a flit after it, and how much of each it covers. An ack outside what was sent acknowledges nothing. -/
def afterAck (ch : Channel) (seq : Nat) : List SentPacket :=
  match ch.replay with
  | [] => []
  | p :: _ =>
    let n := (seq + 1 + 65536 - p.seq) % 65536
    if n ≤ sumOf (ch.replay.map (·.flits)) then
      (ch.replay.filter (fun q => decide (n < (q.seq + 65536 - p.seq) % 65536 + q.flits))).map (fun q =>
        { q with acked := Nat.max q.acked (n - (q.seq + 65536 - p.seq) % 65536) })
    else ch.replay

/-- A link ack or nak (R322, R323, Table 11.6). A nak is answered on the links that are not held (R356). -/
def linkAckIn (l seq : Nat) (nak : Bool) (back : List Nat) (s : State) : State :=
  if linkLive s l && (linkAt s l).state == .up then
    match chanOf s l with
    | none => s
    | some c =>
      let e := edOf l
      let ch := chanAt s e c
      let left := afterAck ch (seq % 65536)
      let s := modChan e c (fun q => { q with
        credits := (List.range 4).map (fun i => nth q.credits i + nth back i), replay := left,
        resends := if unacked { ch with replay := left } < unacked ch then 0 else q.resends }) s
      if nak && !(freeLinks s e c).isEmpty then resend e c l s else s
  else s

/-- A link ack goes out, on a link that is not held, with the buffers freed since the last one. -/
def sendAck (e c : Nat) (nak : Bool) (s : State) : State :=
  match freeLinks s e c with
  | [] => s
  | l :: _ =>
    let ch := chanAt s e c
    let s := emit (.linkAck l ((ch.expect + 65535) % 65536) nak (nth ch.freed 0) (nth ch.freed 1) (nth ch.freed 2)) s
    modChan e c (fun ch => { ch with freed := [0, 0, 0, 0], sinceAck := 0 }) s

/-- A whole packet is accepted in sequence order: its flits counted, and an ack sent after every 64 (R322). -/
def acceptPacket (e c flits cls : Nat) (free : Bool) (s : State) : State :=
  let s := modChan e c (fun ch => { ch with
    expect := (ch.expect + flits) % 65536, sinceAck := ch.sinceAck + flits, gap := !ch.early.isEmpty, failed := if ch.early.isEmpty then none else ch.failed,
    freed := if free then ch.freed.set cls (nth ch.freed cls + 1) else ch.freed }) s
  if (chanAt s e c).sinceAck ≥ 64 then sendAck e c false s else s

/-- How far a sequence lies ahead of the one a channel expects. -/
def ahead (ch : Channel) (seq : Nat) : Nat := (seq + 65536 - ch.expect) % 65536

/-- A channel's window in flits: its replay share (R322). -/
def window (s : State) (e c : Nat) : Nat := (chanEntry s e c).elim 0 (fun en => 256 * en.replay)

/-- A packet that arrives ahead of its turn is held, once, where it lies within the window (R322), and shows a gap. Where a flit had failed its CRC and every active receive nib has
now delivered a later sequence, a nak goes out (R323). A packet out of the window, or taken already, is discarded. -/
def holdEarly (e c l seq nibs : Nat) (p : Packet) (s : State) : State :=
  let ch := chanAt s e c
  if window s e c < ahead ch seq + flitsOf p then s
  else
    let mine := ((List.range 16).filter (fun n => nibs.testBit n)).map (fun n => (l, n))
    let later := ch.failed.map (fun q => q ++ mine)
    let s := modChan e c (fun ch => { ch with
      gap := true, failed := later, early := if ch.early.any (·.seq == seq) then ch.early else ch.early ++ [⟨seq, l, p⟩] }) s
    if later.any (fun q => (recvNibs s e c).all (fun n => q.contains n)) then sendAck e c true (modChan e c (fun ch => { ch with failed := none }) s) else s

/-! ### Reach (R330) -/

/-- The first reach entry of an edge die for a coordinate. -/
def reachOf (s : State) (e coord : Nat) : Option ReachEntry :=
  (sectionOf s e).bind (fun t => t.reaches.find? (·.coord == coord))

/-- A packet to a coordinate joins its channel's queue, or reports that no entry reaches it. -/
def queuePacket (e coord : Nat) (p : Packet) (s : State) : Option State :=
  (reachOf s e coord).map (fun r =>
    modChan e r.chan (fun ch => { ch with queue := ch.queue ++ [{ p with label := r.label, dest := some coord }] }) s)

/-! ### Lane plans (R326 to R328) -/

/-- Entries of a fixed size read by a function, `n` of them from an offset. -/
def entriesAt {α : Type} (bs : List Byte) (o size n : Nat) (f : List Byte → α) : List α :=
  (List.range n).map (fun i => f ((bs.drop (o + i * size)).take size))

/-- A coordinate in the form of bytes 0 and 1 of Table 8.5. -/
def readChan (b : List Byte) : ChanEntry :=
  ⟨(field b 0 1).testBit 0, field b 1 2, field b 3 1, field b 4 1, field b 6 2,
    (List.range 4).map (fun i => field b (8 + i) 1), field b 12 1⟩

def readNib (b : List Byte) : NibEntry := ⟨field b 0 1, field b 1 1, field b 2 1, field b 3 1, field b 4 1⟩

def readRoute (b : List Byte) : RouteEntry :=
  ⟨(field b 0 1).testBit 0, (field b 0 1).testBit 1, field b 1 1 % 4, field b 2 1, field b 3 1⟩

def readReach (b : List Byte) : ReachEntry := ⟨field b 0 2, field b 2 1, field b 3 1⟩

/-- Whether a coordinate has a reserved bit or a slot above 17 (Table 8.5). -/
def badCoord (c : Nat) : Bool := decide (17 < c / 256)

/-- Reserved bits and values of the entries (Tables 11.8 and 11.9). -/
def badChan (b : List Byte) : Bool :=
  badCoord (field b 1 2) || decide (1 < field b 0 1) || field b 5 1 != 0 || field b 13 19 != 0 || decide (63 < field b 4 1) ||
  ((field b 0 1).testBit 0 && (decide (17 < field b 3 1) || (field b 6 2 != 0xFFFF && decide (255 < field b 6 2)) ||
    field b 12 1 == 0 || decide (64 < field b 12 1)))

def badNib (b : List Byte) : Bool := decide (15 < field b 0 1) || field b 5 3 != 0

def badRoute (b : List Byte) : Bool := decide (3 < field b 0 1) || decide (3 < field b 1 1)

/-- One section of a plan as it lies in memory: its counts, whether it lies within the plan, whether a reserved bit or value stands in it, and where it ends. -/
structure RawSection where
  chans : Nat
  nibs : List Nat
  bad : Bool
  sec : Section
  next : Nat

/-- The section at an offset. -/
def readSection (bs : List Byte) (o : Nat) : RawSection :=
  let nc := field bs o 1
  let nn := (List.range 6).map (fun p => field bs (o + 1 + p) 1)
  let nr := field bs (o + 7) 2
  let nh := field bs (o + 9) 2
  let oc := o + 16
  let on := oc + nc * 32
  let total := sumOf nn
  let or := on + total * 8
  let oh := or + nr * 4
  let next := oh + nh * 4
  let fits := decide (next ≤ bs.length)
  let raw (o size n : Nat) : List (List Byte) := if fits then entriesAt bs o size n id else []
  let starts := (List.range 6).map (fun p => (sumOf (nn.take p), nth nn p))
  { chans := nc, nibs := nn, next := next,
    bad := !fits || field bs (o + 11) 5 != 0 || nr == 0 || decide (256 < nr) || decide (256 < nh) ||
      (raw oc 32 nc).any badChan || (raw on 8 total).any badNib || (raw or 4 nr).any badRoute || (raw oh 4 nh).any (fun b => badCoord (field b 0 2)),
    sec := ⟨(raw oc 32 nc).map readChan, starts.map (fun p => (raw (on + p.1 * 8) 8 p.2).map readNib),
      (raw or 4 nr).map readRoute, (raw oh 4 nh).map readReach⟩ }

/-- The four sections of a plan. -/
def readSections (bs : List Byte) : List RawSection :=
  ((List.range 4).foldl (fun (acc : List RawSection × Nat) _ =>
    let r := readSection bs acc.2
    (acc.1 ++ [r], r.next)) ([], 576)).1

/-- A lane plan of its bytes. -/
def readPlan (bs : List Byte) : LanePlan :=
  { job := field bs 6 2, crc := field bs 8 4,
    members := (List.range 4096).filterMap (fun i =>
      if ((bs.getD (64 + i / 8) 0).toNat).testBit (i % 8) then some (i / 256 + 16 * (i / 16 % 16) + 256 * (i % 16)) else none),
    sections := (readSections bs).map (·.sec) }

/-- Row 2 of Table 11.10. The plan's length is that of its contents (DEDUCED, assumption 85). -/
def planBad (s : State) (bs : List Byte) : Bool :=
  let raws := readSections bs
  field bs 0 4 != 0x4C504B5A || field bs 4 2 != 1 || field bs 16 48 != 0 || raws.any (·.bad) ||
  (raws.getLast?.elim 0 (·.next)) != bs.length || field bs 12 4 != bs.length || crc32c (bs.drop 64) != field bs 8 4 || !hasCoord s

/-- Whether a channel entry breaks row 3 of Table 11.10. -/
def wrongPeer (s : State) (p : LanePlan) (en : ChanEntry) : Bool :=
  let own := coordOf s
  !p.members.contains en.coord || en.coord == own ||
  (if en.mask &&& 15 != 0 then
    !([1, 2, 4, 8].contains en.mask) || en.coord != torusPeer own (([1, 2, 4, 8] : List Nat).idxOf en.mask)
  else en.mask == 0 || en.coord % 256 != own % 256)

/-- Row 3 of Table 11.10 for one section. -/
def wrapBad (s : State) (p : LanePlan) (t : Section) : Bool :=
  let valid (t : Section) (c : Nat) : Bool := (t.chans[c]?).any (·.valid)
  t.chans.any (fun en => en.valid && wrongPeer s p en) ||
  t.routes.any (fun r => r.valid && !r.deliver && !((p.sections[r.ed]?).any (fun u => valid u r.chan))) ||
  t.reaches.any (fun r => !valid t r.chan) || !((t.routes[0]?).any (fun r => r.valid && r.deliver))

/-- Whether a list of numbers repeats one. -/
def repeats : List Nat → Bool
  | [] => false
  | x :: xs => xs.contains x || repeats xs

/-- Row 4 of Table 11.10 for one section. -/
def linesBad (s : State) (t : Section) : Bool :=
  let chan (c : Nat) : Option ChanEntry := (t.chans[c]?).filter (·.valid)
  let off (p w c : Nat) (reach : Nat → Nat) : Bool := w != 255 &&
    (decide (71 < w) || !((chan c).any (fun en => en.mask.testBit p)) ||
      (decide (4 ≤ p) && (w % 18 == 0 || !((chan c).any (fun en => reach w == en.phys)))))
  let slot := physSlot s % 18
  let good := t.chans.filter (·.valid)
  (List.range 6).any (fun p =>
    let ns := (t.nibs[p]?).getD []
    repeats ((ns.map (·.tx)).filter (· != 255)) || repeats ((ns.map (·.rx)).filter (· != 255)) ||
    ns.any (fun n => off p n.tx n.txChan (fun w => (slot + w) % 18) || off p n.rx n.rxChan (fun w => (slot + 72 - w) % 18))) ||
  good.any (fun en => decide (nth en.bufs 0 < 2) || decide (nth en.bufs 3 < 2)) ||
  decide (1024 < sumOf (good.map (fun en => sumOf en.bufs))) ||
  decide (64 < sumOf (good.map (·.replay)))

/-- The first row of Table 11.10 that applies, as its code; 0 for a plan that is accepted. -/
def planVerdict (s : State) (bs : List Byte) : Nat :=
  let raws := readSections bs
  let p := readPlan bs
  if raws.any (fun r => decide (64 < r.chans) || r.nibs.any (fun n => decide (16 < n))) then 0x07F1
  else if planBad s bs then 0x0702
  else if p.sections.any (wrapBad s p) then 0x0703
  else if p.sections.any (linesBad s) then 0x0704
  else 0

/-- The nib entries of a plan's section that name a channel, by port position. -/
def chanNibs (t : Section) (c : Nat) : List (List NibEntry) :=
  t.nibs.map (fun ns => ns.filter (fun n => n.txChan == c || n.rxChan == c))

/-- The channels that a plan changes (R328), as (edge die, channel). -/
def changedChans (s : State) (p : LanePlan) : List (Nat × Nat) :=
  (List.range 4).flatMap (fun e => ((List.range 64).filter (fun c =>
    let new := ((p.sections[e]?).bind (fun t => (t.chans[c]?).filter (·.valid)))
    let old := chanEntry s e c
    new != old || (new.isSome && ((p.sections[e]?).map (chanNibs · c) != (sectionOf s e).map (chanNibs · c))))).map (fun c => (e, c)))

/-- The first plan that waits takes hold (R328 step 1): its changed channels accept no new packets. -/
def planBegins (s : State) : State :=
  match s.fabric.installing with
  | [] => setF s .opxPlanStatus F.opxPlanStatus_busy 0
  | (_, p) :: _ =>
    each (changedChans s p) (fun x => modChan x.1 x.2 (fun ch => { ch with stopped := true }))
      (setF s .opxPlanStatus F.opxPlanStatus_busy 1)

/-- Packets held on a channel look up their reach again (R328). One that no entry reaches is set aside, and what sent it learns of that (`stranded`, R330). -/
def requeue (e : Nat) (ps : List Packet) (s : State) : State :=
  each ps (fun p s => (p.dest.bind (fun d => queuePacket e d p s)).getD (modFab (fun b => { b with stranded := b.stranded ++ [(e, p)] }) s)) s

/-- Packets set aside look up their reach again. -/
def requeueStranded (s : State) : State :=
  each s.fabric.stranded (fun q => requeue q.1 [q.2]) (modFab (fun b => { b with stranded := [] }) s)

/-- A link's nibs after a retune: those whose lines stand stay as they were, and retuned transmit nibs are in use. -/
def retuned (old new : State) (l : Nat) (k : Link) : Link :=
  let keepTx := maskOf (((txNibs new l).filter (fun n => (txNibs old l).contains n)).map (·.1))
  let newTx := maskOf (((txNibs new l).filter (fun n => !(txNibs old l).contains n)).map (·.1))
  let keepRx := maskOf (((rxNibs new l).filter (fun n => (rxNibs old l).contains n)).map (·.1))
  { k with txActive := (k.txActive &&& keepTx) ||| (if k.txActive = 0 then 0 else newTx), rxActive := k.rxActive &&& keepRx, delin := k.delin &&& keepRx }

/-- What the drain leaves unacknowledged on a plan's changed channels is counted, and discarded (R328 step 2). -/
def discardUnacked (changed : List (Nat × Nat)) (s : State) : State :=
  each changed (fun x s => modChan x.1 x.2 (fun ch => { ch with replay := [] })
    (countReplays (((chanLinks s x.1 x.2).head?).elim 0 fibreOf) (unacked (chanAt s x.1 x.2)) s)) s

/-- The channels that a new plan starts afresh (R328, R329): those it changes, and those that are Refused. -/
def restarted (s : State) (p : LanePlan) : List (Nat × Nat) :=
  changedChans s p ++ (((List.range 4).flatMap (fun e => (List.range 64).map (fun c => (e, c)))).filter (fun x =>
    (chanAt s x.1 x.2).state == .refused && !(changedChans s p).contains x))

/-- The tables of a plan take effect (R328 steps 2 to 4). -/
def installTables (p : LanePlan) (s : State) : State :=
  let old := s
  let changed := restarted s p
  let s := discardUnacked changed s
  let s := modFab (fun b => { b with plan := some p }) s
  let s := modFab (fun b => { b with links := b.links.map (fun k => (k.1, retuned old s k.1 k.2)) }) s
  let s := modFab (fun b => { b with links := b.links.filter (fun k => isXY (fibreOf k.1) || !(txNibs s k.1).isEmpty || !(rxNibs s k.1).isEmpty) }) s
  let s := each (liveLinks s) (fun l s => each [0, 1] (fun par s =>
      let gone := ((txNibs old l).filter (fun n => n.1 % 2 == par && !(txNibs s l).contains n)).map (·.1)
      let come := ((txNibs s l).filter (fun n => n.1 % 2 == par && !(txNibs old l).contains n)).map (·.1)
      each come (fun n => sendControl l 7 n) (each gone (fun n => sendControl l 6 n) s)) s) s
  let s := each changed (fun x s =>
    let bufs := (chanEntry s x.1 x.2).elim [0, 0, 0, 0] (·.bufs)
    modChan x.1 x.2 (fun ch => { Channel.fresh bufs with transit := ch.transit }) s) s
  let s := requeueStranded (each changed (fun x => requeue x.1 (chanAt old x.1 x.2).queue) s)
  let s := setF (setF s .opxConfig F.opxConfig_job p.job) .opxPlanStatus F.opxPlanStatus_lane_valid 1
  setF s .opxPlanStatus F.opxPlanStatus_lane_crc p.crc

/-- The transmit nibs of a link that a plan would retune, of one parity. -/
def retunes (s : State) (p : LanePlan) (l par : Nat) : List Nat :=
  let new := modFab (fun b => { b with plan := some p }) s
  (((txNibs s l).filter (fun n => n.1 % 2 == par && !(txNibs new l).contains n)).map (·.1))

/-- A plan whose rings did not lock leaves the previous tables (R328): after the drain of step 2 each retuned nib leaves, returns to its line and joins again, and held packets
look up their reach under those tables. -/
def keepTables (p : LanePlan) (s : State) : State :=
  let s := discardUnacked (changedChans s p) s
  let s := each (liveLinks s) (fun l s => each [0, 1] (fun par s =>
    let ns := retunes s p l par
    each ns (fun n => sendControl l 7 n) (each ns (fun n => sendControl l 6 n) s)) s) s
  requeueStranded (each (changedChans s p) (fun x s =>
    let q := (chanAt s x.1 x.2).queue
    requeue x.1 q (modChan x.1 x.2 (fun ch => { ch with stopped := false, queue := [] }) s)) s)

/-! ### Cabling plans and coordinates (R338, R344) -/

/-- Whether a cabling plan of 144 bytes is well formed (R338). -/
def cablingGood (bs : List Byte) : Bool :=
  field bs 0 4 == 0x43504B5A && field bs 4 2 == 1 && field bs 6 2 == 0 && field bs 12 4 == 0 && field bs 8 4 == crc32c (bs.drop 16) &&
  (List.range 16).all (fun i => !badCoord (field bs (16 + i * 8) 2) && field bs (16 + i * 8 + 5) 3 == 0 && decide (field bs (16 + i * 8 + 4) 1 < 2) &&
    decide (field bs (16 + i * 8 + 2) 1 < 6) && decide (field bs (16 + i * 8 + 3) 1 < 4))

/-- A cabling plan replaces the last one, and quarantined links identify again (R336, R338). -/
def cablingInstall (bs : List Byte) (s : State) : State :=
  let es := entriesAt bs 16 8 16 (fun b => (⟨field b 0 2, field b 2 1, field b 3 1, (field b 4 1).testBit 0⟩ : CableEntry))
  let s := modFab (fun b => { b with cabling := es, cablingCrc := field bs 8 4 }) s
  requarantine (setF s .opxPlanStatus F.opxPlanStatus_cabling_valid 1)

/-- A coordinate is set, and links in Identify, Up or Quarantine return to Identify (R344). -/
def setCoord (coord : Nat) (s : State) : State :=
  let s := setF (setF s .opxConfig F.opxConfig_coord coord) .opxConfig F.opxConfig_coord_valid 1
  each ((liveLinks s).filter (fun l => [LState.identify, .up, .quarantine].contains (linkAt s l).state)) toIdentify s

/-- COORD_ADOPT (R344). -/
def coordAdopt (x y slot : Nat) (d : Desc) (s : State) : State :=
  if decide (15 < slot) || flag s .opxConfig F.opxConfig_mode || s.fabric.chans.any (fun c => c.2.state == .open) then failDesc d 0x070D s
  else succeed d (setCoord (x % 16 + y % 16 * 16 + slot * 256) s)

/-! ### The commands on channels -/

def execChannelOpenTimer (e c : Nat) (s : State) : Host.Outcome State Fault Refusal := .next (channelOpenTimer e c s)

/-- CHANNEL_OPEN (R329). The physical slot it carries is not compared. -/
def execChannelOpen (l : C3Link) (job coord : Nat) (peer : PeerSlot) (s : State) : Host.Outcome State Fault Refusal :=
  .next (takeC3 l (channelOpenIn l.link job coord peer.anew) s)

def execPacketSend (e c cls : Nat) (s : State) : Host.Outcome State Fault Refusal := .next (packetSend e c cls s)

def execLinkAck (l seq : Nat) (nak : Bool) (c0 c1 c2 : Nat) (s : State) : Host.Outcome State Fault Refusal :=
  .next (linkAckIn l seq nak [c0, c1, c2, 0] s)

def execLinkAckTimer (e c : Nat) (s : State) : Host.Outcome State Fault Refusal := .next (sendAck e c false s)

/-- NAK_GAP_TIMEOUT (R323), suspended while the peer holds the channel's fibres (R356). -/
def execNakGapTimeout (e c : Nat) (s : State) : Host.Outcome State Fault Refusal :=
  .next (if (chanAt s e c).gap && !((chanLinks s e c).all (fun l => s.fabric.peerHeld.contains (fibreOf l))) then sendAck e c true s else s)

/-- RESEND_TIMEOUT (R323), suspended while the channel's fibres are held (R356). The link that a replay limit takes Dark is the channel's lowest Up link. -/
def execResendTimeout (e c : Nat) (s : State) : Host.Outcome State Fault Refusal :=
  .next (match freeLinks s e c with
    | l :: _ => resend e c l s
    | [] => s)

/-- A flit that its channel has lost: a nak follows once every active receive nib has delivered a later sequence (R323). -/
def flitLost (l : Nat) (s : State) : State :=
  match chanOf s l with
  | some c => modChan (edOf l) c (fun ch => { ch with failed := some (ch.failed.getD []) }) s
  | none => s

/-- FLIT_CRC_FAIL (R311, R314 to R316, R323): what a nib delivered as a flit. A flit that does not read is discarded and counted, and so is a reserved command of one that does; a bad codeword makes every flit it touches bad. -/
def execFlitCrcFail (f : HeardFlit) (s : State) : Host.Outcome State Fault Refusal :=
  .next (if carriesFlits s f.link then
      let r := Reg.opxFibreErrcnt (fibreOf f.link)
      let s := bumpF s r F.opxFibreErrcnt_fec_ue f.words
      match readFlit f.image with
      | none => flitLost f.link (bumpF s r F.opxFibreErrcnt_crc_fail 1)
      | some g =>
        if f.touched then flitLost f.link s
        else if reservedControl g.control then bumpF s r F.opxFibreErrcnt_crc_fail 1 else s
    else s)

end Sys2Proof.Machine
end

