-- ==== Sys2Proof/Machine/HeatTable.lean ====
section
/-! DEFINITION. The heat table: stage entries, posts and the entries they take, queue headers, and what frees an entry (R268 to R277). -/

namespace Sys2Proof.Machine

/-! ### The stage table (R268) -/

/-- A stage-direction's number. -/
def sdOf (stage : Nat) (back : Bool) : Nat := stage * 2 + back.toNat

/-- Whether a die's table holds a valid entry for a stage. -/
def stageValid (s : State) (d stage : Nat) : Bool := flag s (.cmpStageCfg d stage) F.cmpStageCfg_valid

/-- The dies of a stage in a die's table, as a mask. -/
def stageDies (s : State) (d stage : Nat) : Nat := getF s (.cmpStageCfg d stage) F.cmpStageCfg_dies

/-- The base of a stage-direction's input queue, 0 for none. -/
def inQueue (s : State) (d stage : Nat) (back : Bool) : Nat :=
  getF s (.cmpStageQueue d stage (if back then 2 else 0)) F.cmpStageQueue_base * 4096

/-- The base of a stage-direction's output queue, 0 for none. -/
def outQueue (s : State) (d stage : Nat) (back : Bool) : Nat :=
  getF s (.cmpStageQueue d stage (if back then 3 else 1)) F.cmpStageQueue_base * 4096

/-- The reserve of a stage-direction in a die's table. -/
def reserveOf (s : State) (d sd : Nat) : Nat :=
  if stageValid s d (sd / 2) then
    getF s (.cmpStageCfg d (sd / 2)) (if sd % 2 = 0 then F.cmpStageCfg_f_reserve else F.cmpStageCfg_b_reserve)
  else 0

/-- Entries of the shared pool (R270). -/
def sharedSize (s : State) (d : Nat) : Nat := 64 - sumOf ((List.range 16).map (reserveOf s d))

/-- The lowest compute die of a mask. -/
def lowestDie (m : Nat) : Option Nat := (List.range 16).find? (fun d => m.testBit d)

/-- The die whose scheduler posts the pairs of a stage (R271): the lowest of its own entry's mask. -/
def postingDie (s : State) (stage : Nat) : Option Nat :=
  (List.range 16).find? (fun d => stageValid s d stage && lowestDie (stageDies s d stage) == some d)

/-! ### Entries and posts (R269, R270) -/

/-- The heat scheduler changed. -/
def modHeat (f : Heat → Heat) (s : State) : State := { s with heat := f s.heat }

/-- Entries that count under a pool. -/
def inPool (s : State) (p : Option Nat) : Nat := (s.heat.entries.filter (fun e => e.2.pool == p)).length

/-- The lowest entry number not in use. -/
def freeEntry (s : State) : Option Nat := (List.range 64).find? (fun n => (s.heat.entries.get? n).isNone)

/-- The pool from which a post of a stage-direction may take an entry now: its own reserve first. `d` is the die whose table is asked. -/
def poolFor (s : State) (d sd : Nat) : Option (Option Nat) :=
  if inPool s (some sd) < reserveOf s d sd then some (some sd)
  else if inPool s none < sharedSize s d then some none
  else none

/-- A post takes an entry of a pool; a runner that waited for it is let go. -/
def takeEntry (p : HeatPost) (pool : Option Nat) (s : State) : State :=
  match freeEntry s with
  | none => s
  | some n =>
    let s := modHeat (fun h => { h with
      entries := h.entries.set n ⟨p.stage, p.back, p.heat, p.seg, p.index, p.dies, [], [], pool, false, p.order⟩
      posts := h.posts.filter (·.order != p.order) }) s
    match p.runner with
    | some w => modRunner w (fun r => { r with posted := true }) s
    | none => s

/-- A post arrives: it takes an entry where one is free for it, and waits otherwise (R34). -/
def heatPost (d : Nat) (p : HeatPost) (s : State) : State :=
  match poolFor s d (sdOf p.stage p.back) with
  | some pool => takeEntry p pool s
  | none => modHeat (fun h => { h with posts := h.posts ++ [p] }) s

/-- The entry freed from a pool goes to the oldest post it may go to (R270). -/
def giveEntry (pool : Option Nat) (s : State) : State :=
  let own := s.heat.posts.find? (fun p => pool == some (sdOf p.stage p.back))
  match own.or s.heat.posts.head? with
  | some p => takeEntry p pool s
  | none => s

/-- An entry is freed, and its reservation with it (R274). -/
def freeHeatEntry (n : Nat) (s : State) : State :=
  match s.heat.entries.get? n with
  | none => s
  | some e => giveEntry e.pool (modHeat (fun h => { h with entries := h.entries.del n }) s)

/-- Entries that a condition picks are freed. -/
def freeEntries (p : HeatEntry → Bool) (s : State) : State :=
  each ((s.heat.entries.filter (fun e => p e.2)).map (·.1)) freeHeatEntry s

/-- A runner that becomes Free is forgotten: its posts and waits end, and every entry it left unreported is freed (R274). -/
def heatForget (w : Nat) (s : State) : State :=
  let s := modHeat (fun h => { h with waiters := h.waiters.filter (· != w), posts := h.posts.filter (·.runner != some w) }) s
  freeEntries (fun e => e.assigned.any (fun p => p.2 == w && !e.reported.contains p.1)) s

/-- A die's report of an entry as done; the entry is freed once every die of its mask has reported it (R274). -/
def heatDone (d n : Nat) (s : State) : State :=
  match s.heat.entries.get? n with
  | none => s
  | some e =>
    let e := { e with reported := d :: e.reported }
    let s := modHeat (fun h => { h with entries := h.entries.set n e }) s
    if (List.range 16).all (fun i => !e.dies.testBit i || e.reported.contains i) then freeHeatEntry n s else s

/-! ### Queues (R275 to R277) -/

/-- A queue header (Table 9.2): head, tail, slot size, slots, offset of slot 0. -/
structure QHeader where
  head : Nat
  tail : Nat
  seg : Nat
  slots : Nat
  off : Nat

/-- The header at a base. -/
def qHeader (s : State) (b : Nat) : QHeader := ⟨rdN s b 8, rdN s (b + 8) 8, rdN s (b + 0x10) 4, rdN s (b + 0x14) 4, rdN s (b + 0x18) 8⟩

/-- Whether a header breaks R277. -/
def badHeader (s : State) (b : Nat) : Bool :=
  let h := qHeader s b
  let room := match placeOf s b with
    | .well _ _ o => decide (o + h.off + h.slots * h.seg ≤ 0x100_0000)
    | .lpddr .. => false
    | .folio .. => false
    | .tiles .. => false
    | .host _ => false
    | .unmapped => false
  h.slots == 0 || decide (4096 < h.slots) || h.seg == 0 || h.seg % 4096 != 0 || !room || decide (h.head < h.tail) || decide (h.slots < h.head - h.tail)

/-- The address of a segment's slot. -/
def slotAddr (s : State) (b n : Nat) : Nat :=
  let h := qHeader s b
  b + h.off + n % h.slots * h.seg

/-- A queue is found bad: recorded once, and not used (R277). -/
def markBad (d b : Nat) (s : State) : State :=
  if s.heat.bad.contains b then s
  else raise { code := 0x0122, cont := contL, die := d, addr := b } (modHeat (fun h => { h with bad := b :: h.bad }) s)

/-- Whether a queue lies in a die in reset, and so cannot be read. -/
def queueLost (s : State) (b : Nat) : Bool := (ownerOf s b).any (inReset s)

/-- A queue's header is read, and checked before it is used; 0 names no queue. -/
def checkQueue (d b : Nat) (s : State) : State :=
  if b = 0 then s
  else
    let s := probe [(b, 64)] [] s
    if !queueLost s b && badHeader s b then markBad d b s else s

/-- The scheduler forgets how far it has got with queues that a die's reset has taken: those that the die posts from, and those in its wells. -/
def forgetQueues (d : Nat) (s : State) : State :=
  let here (b : Nat) : Bool := rangeMeets b 1 (dieSpans d)
  let taken (sd : Nat) : Bool := (postingDie s (sd / 2)).any (fun p => p == d || here (inQueue s p (sd / 2) (sd % 2 == 1)))
  modHeat (fun h => { h with next := h.next.filter (fun p => !taken p.1), carried := h.carried.filter (fun p => !here p.1), carrying := h.carrying.filter (fun b => !here b) }) s

/-- Whether a queue may be used. -/
def queueGood (s : State) (b : Nat) : Bool := b == 0 || (!s.heat.bad.contains b && !queueLost s b)

/-- Entries that hold a reservation in an output queue, as a die's table names it. -/
def reservedIn (s : State) (d b : Nat) : Nat :=
  (s.heat.entries.filter (fun e => e.2.slot && outQueue s d e.2.stage e.2.back == b)).length

/-- Whether an output queue has a free slot (R272). -/
def slotFree (s : State) (d b : Nat) : Bool :=
  let h := qHeader s b
  decide (h.head - h.tail + reservedIn s d b < h.slots)

/-- Whether an entry is ready in a die (R272). -/
def entryReady (s : State) (d : Nat) (e : HeatEntry) : Bool :=
  let b := outQueue s d e.stage e.back
  e.dies.testBit d && !e.assigned.any (·.1 == d) && queueGood s b && queueGood s (inQueue s d e.stage e.back) &&
  (e.slot || b == 0 || slotFree s d b)

/-- The packed word of a pair (Table 3.15). -/
def pairWord (n : Nat) (e : HeatEntry) : Nat := n + e.stage * 2 ^ 8 + e.back.toNat * 2 ^ 16 + e.heat * 2 ^ 32 + e.seg * 2 ^ 48

end Sys2Proof.Machine
end

