-- ==== Sys2Proof/Machine/Laps.lean ====
section
/-! DEFINITION. The lap block's own operations: regions, write admission, reports, the lap record, the scale state and its tables, commit
and wipe (R176 to R184, R196 to R221). -/

namespace Sys2Proof.Machine

/-- The lap block changed. -/
def modLap (f : LapBlock → LapBlock) (s : State) : State := { s with lap := f s.lap }

/-- Lap numbers wrap at 2^32 (R196). -/
def lapPlus (n i : Nat) : Nat := (n + i) % 2 ^ 32

/-! ### Regions (R199 to R202) -/

/-- Whether region `r` is registered. -/
def regionValid (s : State) (r : Nat) : Bool := flag s (.lapRegionCfg r) F.lapRegionCfg_valid

/-- A region's kind (Table 7.1). -/
def regionKind (s : State) (r : Nat) : Nat := getF s (.lapRegionCfg r) F.lapRegionCfg_kind

/-- The address of a copy of a region. -/
def regionBase (s : State) (r copy : Nat) : Nat := getF s (.lapRegionBase r copy) F.lapRegionBase_base * 4096

/-- The length of each copy. -/
def regionLen (s : State) (r : Nat) : Nat := getF s (.lapRegionCfg r) F.lapRegionCfg_pages * 4096

/-- The copy that is dry (R204). -/
def dryCopy (s : State) (r : Nat) : Nat := getF s (.lapRegionCfg r) F.lapRegionCfg_dry

/-- The registered regions. -/
def validRegions (s : State) : List Nat := (List.range 64).filter (regionValid s)

/-- The kinds whose copies swap at commit (Table 7.1). -/
def swaps (kind : Nat) : Bool := [0, 1, 2, 3, 5, 6].contains kind

/-- How many copies a region has: a watched region has one. -/
def copiesOf (s : State) (r : Nat) : Nat := if regionKind s r = 7 then 1 else 2

/-- The (region, copy) pairs that a range touches. -/
def copiesAt (s : State) (a n : Nat) : List (Nat × Nat) :=
  (validRegions s).flatMap (fun r =>
    ((List.range (copiesOf s r)).filter (fun c => overlap a n (regionBase s r c) (regionLen s r))).map (fun c => (r, c)))

/-! ### Write admission (R207, R208) -/

/-- The lap block is sealed (Table 7.22). -/
def isSealed (s : State) : Bool := flag s .lapCtl F.lapCtl_sealed

/-- Table 7.5 for one copy: 0 where the write is admitted, otherwise the code it is refused with. `lapSource` marks a runner, data mover or relay landing. -/
def copyCode (s : State) (lapSource : Bool) (r c : Nat) : Nat :=
  let kind := regionKind s r
  let seals := s.lap.state = 0 ∧ isSealed s ∧ lapSource
  if kind = 7 then 0
  else if kind = 4 then 0x0603
  else if s.lap.state = 0 then (if seals then 0x0603 else 0)
  else if kind = 5 then 0x0603
  else if c = dryCopy s r then 0x0603
  else if s.lap.state = 1 then 0 else 0x0604

/-- Table 7.5 for a write to a range: the first refusal, or 0. -/
def lapCode (s : State) (lapSource : Bool) (a n : Nat) : Nat :=
  ((copiesAt s a n).map (fun p => copyCode s lapSource p.1 p.2)).foldl (fun x y => if x = 0 then y else x) 0

/-! ### Open laps and reports (R212 to R214) -/

/-- The open laps, older first. -/
def openLaps (s : State) : List OpenLap := s.lap.older.toList ++ s.lap.spec.toList

/-- Whether a lap is open. -/
def isOpen (s : State) (n : Nat) : Bool := (openLaps s).any (·.lap == n)

/-- The lap that is Writing. -/
def writingLap (s : State) : Option Nat := if s.lap.state = 1 then s.lap.older.map (·.lap) else none

/-- What an access admitted now remembers of the lap block (R207, R215). -/
def lapSeen (s : State) : LapSeen := ⟨writingLap s, (openLaps s).map (·.lap), s.lap.state == 0⟩

/-- What an access that writes nothing remembers. -/
def LapSeen.unseen : LapSeen := ⟨none, [], true⟩

/-- An open lap changed. -/
def modOpen (n : Nat) (f : OpenLap → OpenLap) (s : State) : State :=
  let g (o : OpenLap) : OpenLap := if o.lap = n then f o else o
  modLap (fun l => { l with older := l.older.map g, spec := l.spec.map g }) s

/-- The flags of an open lap. -/
def flagsOf (s : State) (n : Nat) : Nat := ((openLaps s).find? (·.lap == n)).elim 0 (·.flags)

/-- A flag of Table 7.6 is set on an open lap. The first report to set flag 0 or 1 makes the lap's record (R214); `e` names its source and address. The first address reported is kept for
LAP_FIRST_FAULT (DEDUCED from Table 7.17, assumption 17). -/
def reportOn (n b : Nat) (e : Err) (s : State) : State :=
  if isOpen s n then
    let old := flagsOf s n
    let new := old ||| 2 ^ b
    let s := modOpen n (fun o => { o with flags := new, fault := if o.fault = 0 then e.addr else o.fault }) s
    if b ≤ 1 ∧ !old.testBit b then raise { e with code := 0x0601 + b, cont := contV, lap := n, detail := new } s else s
  else s

/-- A report that no lap number carries sets its flag on every open lap (R213). -/
def reportAll (b : Nat) (e : Err) (s : State) : State :=
  each ((openLaps s).map (·.lap)) (fun n s => reportOn n b e s) s

/-- A core has reported a tally saturation (R130, R148): bit 3 of the offending-kind mask of every open lap (R191). -/
def markSaturated (s : State) : State :=
  let mark (o : OpenLap) : OpenLap := { o with saturated := true }
  modLap (fun l => { l with older := l.older.map mark, spec := l.spec.map mark }) s

/-! ### The lap record (R204) -/

/-- The newest copies that are dry, as a mask. -/
def dryMask (s : State) : Nat := ((List.range 64).map (fun r => dryCopy s r * 2 ^ r)).foldl (· + ·) 0

/-- The newest lap opened is open and not yet Writing. -/
def awaitsWriting (s : State) : Bool := s.lap.spec.isSome || (s.lap.older.isSome && s.lap.state == 0)

/-- The lap record is written at a change of state (R204, Table 7.3); while LAP_RECORD_BASE is 0 none is. -/
def writeLapRecord (s : State) : State :=
  let base := getF s .lapRecordBase F.lapRecordBase_base * 64
  if base = 0 then s
  else
    store base (bytesLE 4 s.lap.ready ++ bytesLE 4 s.lap.newest ++ bytesLE 4 s.lap.settled ++ bytesLE 1 s.lap.outcome ++
      bytesLE 1 s.lap.state ++ bytesLE 1 (awaitsWriting s).toNat ++ bytesLE 1 0 ++ bytesLE 8 (dryMask s) ++ bytesLE 40 0) s

/-- The lap block enters a state, and the record shows it. -/
def lapEnter (st : Nat) (s : State) : State := writeLapRecord (modLap (fun l => { l with state := st }) s)

/-! ### The census (R186 to R192) -/

/-- The key of a census counter. -/
def binKey (d slot bank bin : Nat) : Nat := ((d * 4096 + slot) * 2 + bank) * 128 + bin

/-- The key of a die's account of a slot and bank. -/
def bankKey (d slot bank : Nat) : Nat := (d * 4096 + slot) * 2 + bank

/-- The sum of a bin over the 20 dies. -/
def binSum (s : State) (slot bank bin : Nat) : Nat :=
  ((List.range 20).map (fun d => s.census.bins.get (binKey d slot bank bin) 0)).foldl (· + ·) 0

/-- Whether a slot is installed. -/
def slotDef (s : State) (slot : Nat) : Option SlotDef := s.census.slots.get? slot

/-- One element counted in a die's bin, with the record of the first saturation of its slot and bank there (R189). -/
def countBin (d slot bank bin n : Nat) (s : State) : State :=
  let k := binKey d slot bank bin
  let v := s.census.bins.get k 0 + n
  let top := 2 ^ 40 - 1
  let c := s.census
  let s := { s with census := { c with bins := c.bins.set k (Nat.min v top) } }
  let b := bankKey d slot bank
  if top ≤ v ∧ !s.census.saturated.contains b then
    raise { code := 0x0305, cont := contL, die := d }
      { s with census := { s.census with saturated := b :: s.census.saturated } }
  else s

/-- A census bank cleared in every die, for a lap (R189, R211): bins, relay tops, and what has been recorded of saturation. -/
def clearBank (n : Nat) (s : State) : State :=
  let bank := n % 2
  { s with census := { s.census with
    bins := s.census.bins.filter (fun p => p.1 / 128 % 2 != bank)
    tops := s.census.tops.filter (fun p => p.1 % 2 != bank)
    saturated := s.census.saturated.filter (fun k => k % 2 != bank)
    bankLap := s.census.bankLap.set bank n } }

/-- Whether a store counted for lap `n` still finds its bank open for that lap (R189). -/
def bankHolds (s : State) (n : Nat) : Bool := s.census.bankLap.get? (n % 2) == some n

/-- An exponent clamped to -127 to 127. -/
def clampTop (i : Int) : Int := max (-127) (min 127 i)

/-- The greatest relay top of a slot and bank over the 20 dies (R191), none where all are empty. -/
def relayTop (s : State) (slot bank : Nat) : Option Int :=
  ((List.range 20).filterMap (fun d => s.census.tops.get? (bankKey d slot bank))).foldl
    (fun m v => some (m.elim v (max v))) none

/-- The exponent that the bins of a slot and bank give (R191): the greatest e with a count in bin e + 42, or -40 where only subnormals were counted. -/
def binTop (s : State) (slot bank : Nat) : Option Int :=
  let es := (List.range 64).filter (fun i => binSum s slot bank (i + 2) != 0)
  match es.getLast? with
  | some i => some ((i : Int) - 40)
  | none => if binSum s slot bank 1 != 0 then some (-40) else none

/-- A slot's local top exponent before σ is subtracted (R191, R192). -/
def localTop (s : State) (slot : Nat) (d : SlotDef) (bank : Nat) : Option Int :=
  if d.kind = 3 then relayTop s slot bank else binTop s slot bank

/-- An operation of the lap block over memory: the codes of what it reads, and of what it writes in part, are checked before it, and what it writes whole has fresh codes after it
(R288, R298). Table 10.5 gives it no outcome at a listed unit (assumption 116). -/
def blockMemory (reads writes : List (Nat × Nat)) (f : State → State) (s : State) : State :=
  each writes (fun p s => inject p.1 p.2 (freshen p.1 p.2 s)) (f (probe reads writes s))

/-! ### Scale state and tables (R176 to R184) -/

/-- The job's scale-state region, if one is registered (R179, R200). -/
def scaleRegion (s : State) : Option Nat := (validRegions s).find? (fun r => regionKind s r == 5)

/-- The scale-state area's dry copy. -/
def scaleDry (s : State) : Option Nat := (scaleRegion s).map (fun r => regionBase s r (dryCopy s r))

/-- The scale-state area's wet copy. -/
def scaleWet (s : State) : Option Nat := (scaleRegion s).map (fun r => regionBase s r (1 - dryCopy s r))

/-- The scale table's base. -/
def tableBase (s : State) : Nat := getF s .lapScaleTableBase F.lapScaleTableBase_base * 65536

/-- The address of the table copy of a lap (R180). -/
def tableOf (s : State) (n : Nat) : Nat := tableBase s + n % 2 * 0x8000

/-- The backoff of a kind in an area (Table 6.4). -/
def backoff (s : State) (area k : Nat) : Nat := rdN s (area + 0x2_0000 + k * 32) 1

/-- The history entries of a slot in an area, newest first (Table 6.4). -/
def history (s : State) (area slot : Nat) : List Int :=
  let a := area + slot * 32
  let held := Nat.min (rdN s (a + 16) 1) 16
  let next := rdN s (a + 17) 1 % 16
  (List.range held).map (fun i => sint 8 (rdN s (a + (next + 15 - i) % 16) 1))

/-- The greatest of a list of integers, or a value where it is empty. -/
def greatest (d : Int) : List Int → Int
  | [] => d
  | x :: xs => xs.foldl max x

/-- What a table entry publishes for a slot (R176 to R178): the value and whether it came from the history. -/
def published (s : State) (area slot : Nat) (d : SlotDef) : Int × Bool :=
  let h := history s area slot
  let b : Int := backoff s area d.kind
  let fromHistory := !h.isEmpty
  let amax := greatest d.init h
  let last := h.headD d.init
  match d.kind with
  | 1 => (clampTop (8 - amax - 1 - b), fromHistory)
  | 2 => (clampTop (15 - amax - 1 - b), fromHistory)
  | 3 => (max (-128) (min 127 (last + 1 + 1 + b)), fromHistory)
  | _ => (0, fromHistory)

/-- The table computed from an area is written as the table of lap `n`, header last (R180, R181). -/
def writeTable (area n : Nat) (s : State) : State :=
  if tableBase s = 0 then s
  else blockMemory [(area, 0x2_1000)] [(tableOf s n, 0x4040)] (fun s =>
    let t := tableOf s n
    let s0 := s
    let s := { s with mem := Mem.zero s.mem t 0x4000 }
    let s := each (s0.census.slots.map (·.1)) (fun i s =>
      match slotDef s0 i with
      | some d =>
        let (v, h) := published s0 area i d
        wrB s (t + i * 4) (bytesLE 1 (wrap 8 v) ++ bytesLE 1 (h.toNat + 2))
      | none => s) s
    wrB s (t + 0x4000) (bytesLE 4 n ++ bytesLE 60 0)) s

/-- The table of a lap computed from the dry state; where no scale-state region is registered there is none to compute it from (assumption 18). -/
def writeTableDry (n : Nat) (s : State) : State := (scaleDry s).elim s (fun a => writeTable a n s)

/-- The address of a slot's entry in the table of lap `n`: an open lap's table lies where it lay when the lap opened (R194). -/
def entryAddr (s : State) (n slot : Nat) : Nat := ((openLaps s).find? (·.lap == n)).elim (tableBase s) (·.table) + n % 2 * 0x8000 + slot * 4

/-- The σ or E that the table of lap `n` holds for a slot. -/
def tableEntry (s : State) (n slot : Nat) : Int := sint 8 (rdN s (entryAddr s n slot) 1)

/-- The census exchange at the vote (R191): the tops that are not empty, and the offending-kind mask. -/
def exchangeOf (n : Nat) (vote : Bool) (s : State) : Exchange :=
  let bank := n % 2
  let tops := s.census.slots.filterMap (fun p =>
    (localTop s p.1 p.2 bank).map (fun t =>
      (p.1, clampTop (if p.2.kind = 1 ∨ p.2.kind = 2 then t - tableEntry s n p.1 else t))))
  let off (k : Nat) : Bool := s.census.slots.any (fun p => p.2.kind == k &&
    (binSum s p.1 bank 66 + binSum s p.1 bank 67 + binSum s p.1 bank 68 != 0))
  let saturated := (openLaps s).any (fun o => o.lap == n && o.saturated)
  let mask := ((List.range 8).filter (fun k => off k || (k == 3 && saturated))).foldl (fun m k => m + 2 ^ k) 0
  ⟨vote, tops, mask⟩

/-- A top exponent enters a slot's history in an area (R181 step 2). -/
def addHistory (area slot : Nat) (top : Int) (s : State) : State :=
  let a := area + slot * 32
  let s := probe [(a, 32)] [] s
  let held := Nat.min (rdN s (a + 16) 1) 16
  let next := rdN s (a + 17) 1 % 16
  let s := store (a + next) (bytesLE 1 (wrap 8 top)) s
  store (a + 16) (bytesLE 1 (Nat.min (held + 1) 16) ++ bytesLE 1 ((next + 1) % 16)) s

/-- A clean lap counted for a kind (R181 step 3). -/
def addClean (area k : Nat) (s : State) : State :=
  let a := area + 0x2_0000 + k * 32
  let s := probe [(a, 32)] [] s
  let n := (rdN s (a + 4) 4 + 1) % 2 ^ 32
  let pol := Reg.lapScalePolicy k
  let lim := if 1 ≤ k ∧ k ≤ 3 then getF s pol F.lapScalePolicy_clean_laps else 0
  if lim ≠ 0 ∧ lim ≤ n then
    let b := rdN s a 1
    let low := Nat.max (getF s pol F.lapScalePolicy_b_min) (b - getF s pol F.lapScalePolicy_up_log2)
    store (a + 4) (bytesLE 4 0) (store a (bytesLE 1 (Nat.min b low)) s)
  else store (a + 4) (bytesLE 4 n) s

/-- An offending kind's backoff raised and its skip counted (R182 step 2). -/
def addBackoff (area k : Nat) (s : State) : State :=
  let a := area + 0x2_0000 + k * 32
  let s := probe [(a, 32)] [] s
  let b := rdN s a 1
  let new := Nat.min 31 (b + getF s (.lapScalePolicy k) F.lapScalePolicy_down_log2)
  let s := store (a + 8) (bytesLE 4 ((rdN s (a + 8) 4 + 1) % 2 ^ 32)) (store a (bytesLE 1 new) s)
  if new = b then s else note 0x0307 s

/-! ### Settling -/

/-- A LAP_VOTE or LAP_ABORT result (Table 14.6): outcome in byte 16, lap in bytes 20 to 23. -/
def voteResult (outcome n : Nat) : List Byte := bytesLE 1 outcome ++ bytesLE 3 0 ++ bytesLE 4 n

/-- Every pending LAP_VOTE and LAP_ABORT of a lap completes with a status and an outcome (R215, R218, R219). -/
def endVotes (n status outcome : Nat) (s : State) : State :=
  let mine := s.lap.votes.filter (·.lap == n)
  let s := modLap (fun l => { l with votes := l.votes.filter (·.lap != n) }) s
  each mine (fun v s => (descOf s v.desc).elim s (fun d => complete d status 0 (voteResult outcome n) s)) s

/-- Writes held back to the settle take effect (R194). -/
def settlePending (s : State) : State :=
  match s.lap.pendTable with
  | some w => modLap (fun l => { l with pendTable := none }) (setReg s .lapScaleTableBase w)
  | none => s

/-- The older lap settles with an outcome: the record's numbers, LAP_VOTE, and the younger lap in its place. -/
def settled (n outcome : Nat) (s : State) : State :=
  let s := modLap (fun l => { l with
    older := l.spec, spec := none, settled := n, outcome := outcome, history := l.history.set n outcome, exchange := none, state := 0 }) s
  endVotes n 0 outcome (writeLapRecord s)

/-- Commit of lap `n` (R181, R218): histories and clean counts in the wet copy, the pointer swap, the table two laps ahead, counts and record. -/
def commitLap (n : Nat) (x : Exchange) (s : State) : State :=
  let s := settlePending (modLap (fun l => { l with state := 3 }) s)
  let s := (scaleWet s).elim s (fun a =>
    each (List.range 8) (addClean a) (each (x.tops.filter (fun p => (slotDef s p.1).isSome)) (fun p s => addHistory a p.1 p.2 s) s))
  let s := each ((validRegions s).filter (fun r => swaps (regionKind s r)))
    (fun r s => setF s (.lapRegionCfg r) F.lapRegionCfg_dry (1 - dryCopy s r)) s
  let s := modLap (fun l => { l with dries := (n, dryMask s) :: l.dries.take 1 }) s
  let s := writeTableDry (lapPlus n 2) s
  let s := setF s .lapCount F.lapCount_dried (getF s .lapCount F.lapCount_dried + 1)
  settled n 1 s

/-- A speculative lap is discarded (R219 step 2): no vote, its pending descriptors end without settling. -/
def discardSpec (s : State) : State :=
  match s.lap.spec with
  | none => s
  | some o =>
    let s := modLap (fun l => { l with spec := none }) s
    let s := setF s .lapCountDiscard F.lapCountDiscard_discarded (getF s .lapCountDiscard F.lapCountDiscard_discarded + 1)
    endVotes o.lap 5 3 (raise { code := 0x060B, cont := contL, lap := o.lap, detail := o.flags } s)

/-- An order that each core of every compute die takes at its next bundle boundary (R163 to R165): one of a die in reset, once that has ended. -/
def orderCores (b : Boundary) (s : State) : State :=
  each (List.range 1024) (fun k => modCore k (fun c => { c with boundary := c.boundary ++ [b] })) s

/-- Wipe of lap `n` (R182, R219); `mask` is the job-wide offending-kind mask. -/
def wipeLap (n mask : Nat) (s : State) : State :=
  let flags := flagsOf s n
  let s := settlePending (modLap (fun l => { l with state := 3 }) s)
  let s := discardSpec s
  let s := orderCores (.restore n) s
  let s := (scaleDry s).elim s (fun a =>
    let s := each ([1, 2, 3].filter (fun k => mask.testBit k)) (addBackoff a) s
    each (List.range 8) (fun k s => store (a + 0x2_0000 + k * 32 + 4) (bytesLE 4 0) (probe [(a + 0x2_0000 + k * 32, 32)] [] s)) s)
  let s := writeTableDry (lapPlus n 1) (writeTableDry (lapPlus n 2) s)
  let s := setF s .lapNext F.lapNext_next (lapPlus n 1)
  let s := setF s .lapCount F.lapCount_skipped (getF s .lapCount F.lapCount_skipped + 1)
  let s := setReg s .lapLastWipe (BitVec.ofNat 64 (flags + mask * 2 ^ 8 + n * 2 ^ 32))
  let s := raise { code := 0x060A, cont := contL, lap := n, detail := flags + mask * 256 } s
  let s := setF s .lapCtl F.lapCtl_sealed 1
  settled n 2 (modLap (fun l => { l with wipes := l.wipes + 1 }) s)

/-- The carry copies of R205: every valid region with carry set and the scale-state region, dry into wet. -/
def carryCopies (s : State) : State :=
  each ((validRegions s).filter (fun r => swaps (regionKind s r) && (flag s (.lapRegionCfg r) F.lapRegionCfg_carry || regionKind s r == 5)))
    (fun r s =>
      let wet := regionBase s r (1 - dryCopy s r)
      let dry := regionBase s r (dryCopy s r)
      blockMemory [(dry, regionLen s r)] [(wet, regionLen s r)] (fun s => { s with mem := Mem.copy s.mem wet dry (regionLen s r) }) s) s

/-- A LAP_OPEN cancelled while it waits (R197, R403, R445): it opens nothing, and LAP_NEXT returns to its lap if that still reads one more. -/
def cancelOpen (r : OpenReq) (s : State) : State :=
  let s := modLap (fun l => { l with opens := l.opens.filter (·.desc != r.desc) }) s
  let s := if getF s .lapNext F.lapNext_next = lapPlus r.lap 1 then setF s .lapNext F.lapNext_next r.lap else s
  (descOf s r.desc).elim s (fun d => complete d 5 0 [] s)

/-! ### Tested writes (R202, R213) -/

/-- Whether an element of a check type, as stored, is non-finite (Table 7.2); the widths of the types in bytes. -/
def checkWidth (c : Nat) : Nat := if c = 1 then 4 else if c = 2 ∨ c = 3 then 2 else 1

def nonfinite (c v : Nat) : Bool :=
  match c with
  | 1 => v / 2 ^ 23 % 256 == 255
  | 2 => v / 2 ^ 7 % 256 == 255
  | 3 => v / 2 ^ 10 % 32 == 31
  | 4 => v % 128 == 127
  | 5 => v / 4 % 32 == 31
  | 6 => v == 255
  | _ => false

/-- The address of the first non-finite element of a copy that any byte of a write touches. -/
def badElement (s : State) (r c a n : Nat) : Option Nat :=
  let check := getF s (.lapRegionCfg r) F.lapRegionCfg_check
  let base := regionBase s r c
  let w := checkWidth check
  let lo := (Nat.max a base - base) / w
  let hi := (Nat.min (a + n) (base + regionLen s r) - base + w - 1) / w
  if check = 0 ∨ check = 7 then none
  else ((List.range (hi - lo)).map (fun i => base + (lo + i) * w)).find? (fun x => nonfinite check (rdN s x w))

/-- The wet copies that a write to a range admitted while a lap was Writing touches, and so can report to that lap (Table 7.5). -/
def touchesWet (s : State) (a n : Nat) : Bool := (copiesAt s a n).any (fun p => swaps (regionKind s p.1) && regionKind s p.1 != 5)

/-- Whether a range touches a watched region. -/
def touchesWatched (s : State) (a n : Nat) : Bool := (copiesAt s a n).any (fun p => regionKind s p.1 == 7)

/-- Whether a write to ranges can report to lap `n` (R215 step 1): into a wet copy and admitted while `n` was Writing, or into a watched region and admitted while `n` was open. -/
def reportsTo (s : State) (n : Nat) (seen : LapSeen) (l : List (Nat × Nat)) : Bool :=
  (seen.writing == some n && l.any (fun p => touchesWet s p.1 p.2)) || (seen.opened.contains n && l.any (fun p => touchesWatched s p.1 p.2))

/-- A write that has landed is tested, as the lap block stood when it was admitted (R202, Table 7.5): in a wet copy for the lap that was Writing, whatever its source; in a watched region
unless the lap block was Idle, for every open lap, or for its relay's lap (R213). -/
def testWrite (seen : LapSeen) (relay : Option Nat) (e : Err) (a n : Nat) (s : State) : State :=
  each (copiesAt s a n) (fun p s =>
    let kind := regionKind s p.1
    if kind = 7 then
      if seen.idle then s
      else
        match badElement s p.1 p.2 a n with
        | some x => relay.elim (reportAll 0 { e with addr := x } s) (fun l => reportOn l 0 { e with addr := x } s)
        | none => s
    else if swaps kind = true ∧ kind ≠ 5 then
      match seen.writing, badElement s p.1 p.2 a n with
      | some l, some x => reportOn l 0 { e with addr := x } s
      | _, _ => s
    else s) s

end Sys2Proof.Machine
end

