-- ==== Sys2Proof/Machine/Numerics.lean ====
section
/-! DEFINITION. Numbers: the storage formats and their values, exact arithmetic, one rounding for every destination, and the approximate functions within the
error the spec allows (R112 to R118, R126 to R129, R144 to R147, R168 to R174). -/

namespace Sys2Proof.Machine

/-! ### Values -/

/-- A value: NaN, an infinity, or (-1)^neg × m × 2^e. -/
inductive Val where
  | nan
  | inf (neg : Bool)
  | fin (neg : Bool) (m : Nat) (e : Int)
  deriving DecidableEq, Repr

/-- An integer as a value. -/
def Val.ofInt (i : Int) : Val := .fin (decide (i < 0)) i.natAbs 0

/-- The value 2^k. -/
def Val.pow2 (k : Int) : Val := .fin false 1 k

def Val.neg : Val → Val
  | .nan => .nan
  | .inf n => .inf !n
  | .fin n m e => .fin (!n) m e

def Val.abs : Val → Val
  | .nan => .nan
  | .inf _ => .inf false
  | .fin _ m e => .fin false m e

/-- The significand as a signed integer of units 2^k, for k at most the value's own exponent. -/
def Val.units (neg : Bool) (m : Nat) (e k : Int) : Int :=
  let u : Nat := m <<< (e - k).toNat
  if neg then -(u : Int) else (u : Int)

/-- The exact sum. Opposite infinities give NaN; a zero sum is +0 unless both terms are -0 (R63, R146). -/
def Val.add : Val → Val → Val
  | .nan, _ => .nan
  | .inf _, .nan => .nan
  | .fin .., .nan => .nan
  | .inf a, .inf b => if a = b then .inf a else .nan
  | .inf a, .fin .. => .inf a
  | .fin .., .inf b => .inf b
  | .fin n1 m1 e1, .fin n2 m2 e2 =>
    let k := min e1 e2
    let i := Val.units n1 m1 e1 k + Val.units n2 m2 e2 k
    .fin (if i = 0 then n1 && n2 else decide (i < 0)) i.natAbs k

/-- The exact product: NaN for 0 × ∞. -/
def Val.mul : Val → Val → Val
  | .nan, _ => .nan
  | .inf _, .nan => .nan
  | .fin .., .nan => .nan
  | .inf a, .inf b => .inf (a != b)
  | .inf a, .fin b m _ => if m = 0 then .nan else .inf (a != b)
  | .fin a m _, .inf b => if m = 0 then .nan else .inf (a != b)
  | .fin a m1 e1, .fin b m2 e2 => .fin (a != b) (m1 * m2) (e1 + e2)

def Val.isNan : Val → Bool
  | .nan => true
  | _ => false

def Val.isInf : Val → Bool
  | .inf _ => true
  | _ => false

def Val.isFin : Val → Bool
  | .fin .. => true
  | _ => false

def Val.isZero : Val → Bool
  | .fin _ m _ => m == 0
  | _ => false

def Val.sign : Val → Bool
  | .nan => false
  | .inf n => n
  | .fin n _ _ => n

/-- Whether a value is below another, neither being NaN; both zeros are equal. -/
def Val.lt (a b : Val) : Bool :=
  match a, b with
  | .inf x, .inf y => x && !y
  | .inf x, .fin .. => x
  | .fin .., .inf y => !y
  | .fin n1 m1 e1, .fin n2 m2 e2 => decide (Val.units n1 m1 e1 (min e1 e2) < Val.units n2 m2 e2 (min e1 e2))
  | .nan, _ => false
  | .inf _, .nan => false
  | .fin .., .nan => false

/-- Whether two values are equal, neither being NaN; both zeros are equal. -/
def Val.eq (a b : Val) : Bool := !a.isNan && !b.isNan && !a.lt b && !b.lt a

/-- The lesser, with -0 below +0; NaN where either is (R82, R146). -/
def Val.min (a b : Val) : Val :=
  if a.isNan || b.isNan then .nan
  else if a.lt b then a else if b.lt a then b else if a.sign then a else b

/-- The greater, with -0 below +0; NaN where either is. -/
def Val.max (a b : Val) : Val :=
  if a.isNan || b.isNan then .nan
  else if a.lt b then b else if b.lt a then a else if a.sign then b else a

/-! ### Magnitudes to be rounded -/

/-- A positive real: a ratio, or the square root of one. -/
inductive Mag where
  | rat (n d : Nat)
  | root (n d : Nat)

/-- The integer square root. -/
def isqrt (n : Nat) : Nat :=
  ((List.range (Nat.log2 n / 2 + 1)).reverse).foldl (fun r b => if (r + 2 ^ b) * (r + 2 ^ b) ≤ n then r + 2 ^ b else r) 0

/-- m × 2^e as a ratio. -/
def Mag.dy (m : Nat) (e : Int) : Mag := if 0 ≤ e then .rat (m <<< e.toNat) 1 else .rat m (2 ^ (-e).toNat)

/-- floor(v × 2^k) for a ratio, and whether it is exact. -/
def ratFloor (n d : Nat) (k : Int) : Nat × Bool :=
  let (n, d) := if 0 ≤ k then (n <<< k.toNat, d) else (n, d <<< (-k).toNat)
  (n / d, n % d == 0)

/-- floor(v × 2^k), and whether it is exact. -/
def Mag.floorAt (k : Int) : Mag → Nat × Bool
  | .rat n d => ratFloor n d k
  | .root n d =>
    let (q, ex) := ratFloor n d (2 * k)
    let r := isqrt q
    (r, ex && r * r == q)

/-- floor(log2 v) of a ratio. -/
def ratExp (n d : Nat) : Int :=
  let e : Int := (Nat.log2 n : Int) - (Nat.log2 d : Int)
  if (ratFloor n d (-e)).1 = 0 then e - 1 else e

/-- floor(log2 v). -/
def Mag.exp : Mag → Int
  | .rat n d => ratExp n d
  | .root n d => ratExp n d / 2

/-- floor(log2 |v|) of a finite non-zero value. -/
def finExp (m : Nat) (e : Int) : Int := (Nat.log2 m : Int) + e

/-! ### Rounding (R173, R174) -/

/-- A rounding mode; stochastic rounding carries its draw. -/
inductive Rnd where
  | rne
  | rtz
  | sr (u : Nat)
  deriving DecidableEq, Repr

/-- The rounding field (Table 3.13), with a draw for value 2. -/
def Rnd.of (field draw : Nat) : Rnd := if field = 1 then .rtz else if field = 2 then .sr draw else .rne

/-- A magnitude in units of 2^u, rounded to an integer. -/
def roundUnits (mode : Rnd) (v : Mag) (u : Int) : Nat :=
  let (q, exact) := v.floorAt (-u)
  if exact then q
  else
    match mode with
    | .rtz => q
    | .rne =>
      let (h, half) := v.floorAt (-u + 1)
      if h % 2 = 0 then q else if half then q + q % 2 else q + 1
    | .sr d => if d < (v.floorAt (-u + 32)).1 - q * 2 ^ 32 then q + 1 else q

/-! ### Formats (Table 6.1) -/

/-- A storage format: bits, fraction bits, bias, the codes of the largest finite magnitude, of infinity and of the canonical NaN where it has them. -/
structure Fmt where
  w : Nat
  m : Nat
  bias : Int
  top : Nat
  inf : Option Nat
  nan : Option Nat
  deriving DecidableEq, Repr

def Fmt.fp32 : Fmt := ⟨32, 23, 127, 0x7F7FFFFF, some 0x7F800000, some 0x7FC00000⟩
def Fmt.bf16 : Fmt := ⟨16, 7, 127, 0x7F7F, some 0x7F80, some 0x7FC0⟩
def Fmt.fp16 : Fmt := ⟨16, 10, 15, 0x7BFF, some 0x7C00, some 0x7E00⟩
def Fmt.e4m3 : Fmt := ⟨8, 3, 7, 0x7E, none, some 0x7F⟩
def Fmt.e5m2 : Fmt := ⟨8, 2, 15, 0x7B, some 0x7C, some 0x7E⟩
def Fmt.e3m2 : Fmt := ⟨6, 2, 3, 0x1F, none, none⟩
def Fmt.e2m3 : Fmt := ⟨6, 3, 1, 0x1F, none, none⟩
def Fmt.e2m1 : Fmt := ⟨4, 1, 1, 0x7, none, none⟩

/-- The float format of an element type code (Table 3.10). -/
def fmtOf : Nat → Option Fmt
  | 0 => some .fp32
  | 1 => some .bf16
  | 2 => some .fp16
  | 3 => some .e4m3
  | 4 => some .e5m2
  | 5 => some .e3m2
  | 6 => some .e2m3
  | 7 => some .e2m1
  | _ => none

/-- Bits of an element of a type. -/
def typeBits (ty : Nat) : Nat :=
  match fmtOf ty with
  | some f => f.w
  | none => if ty = 8 ∨ ty = 10 then 8 else 32

/-- The value of a finite magnitude code. -/
def Fmt.finite (f : Fmt) (neg : Bool) (mag : Nat) : Val :=
  let ex := mag / 2 ^ f.m
  let fr := mag % 2 ^ f.m
  if ex = 0 then .fin neg fr (1 - f.bias - f.m) else .fin neg (2 ^ f.m + fr) (ex - f.bias - f.m)

/-- The value of a code (R168, R169). -/
def Fmt.decode (f : Fmt) (code : Nat) : Val :=
  let c := code % 2 ^ f.w
  let neg := decide (2 ^ (f.w - 1) ≤ c)
  let mag := c % 2 ^ (f.w - 1)
  if mag ≤ f.top then f.finite neg mag else if f.inf = some mag then .inf neg else .nan

/-- The exponent of the format's top binade. -/
def Fmt.topExp (f : Fmt) : Int := (f.top / 2 ^ f.m : Nat) - f.bias

/-- The sign bit in place. -/
def Fmt.signed (f : Fmt) (neg : Bool) (mag : Nat) : Nat := if neg then 2 ^ (f.w - 1) + mag else mag

/-- The code of a NaN result: the canonical NaN, or +0 in a format without one (Table 4.7). -/
def Fmt.nanCode (f : Fmt) : Nat := f.nan.getD 0

/-- The code of an infinite result, or one too large under RNE or SR (Table 4.7). -/
def Fmt.infCode (f : Fmt) (neg : Bool) : Nat :=
  match f.inf, f.nan with
  | some i, _ => f.signed neg i
  | none, some n => n
  | none, none => f.signed neg f.top

/-- A non-zero magnitude rounded to the format's grid, as a magnitude code; codes above the top stand for the continuation of R173. -/
def Fmt.roundMag (f : Fmt) (mode : Rnd) (v : Mag) : Nat :=
  let e := Max.max (1 - f.bias) (Min.min v.exp f.topExp)
  let q := roundUnits mode v (e - f.m)
  ((e + f.bias - 1).toNat <<< f.m) + q

/-- A non-zero magnitude with its sign, rounded once to the format, with the outcomes of Table 4.7; `sat` makes a result too large the largest finite one. -/
def Fmt.encodeMag (f : Fmt) (mode : Rnd) (sat neg : Bool) (v : Mag) : Nat :=
  let c := f.roundMag mode v
  if c ≤ f.top then f.signed neg c
  else if sat || mode = .rtz then f.signed neg f.top
  else f.infCode neg

/-- A value rounded once to a format (R126, R150, Table 4.7). -/
def Fmt.encode (f : Fmt) (mode : Rnd) (sat : Bool) : Val → Nat
  | .nan => f.nanCode
  | .inf neg => if sat then f.signed neg f.top else f.infCode neg
  | .fin neg m e => if m = 0 then f.signed neg 0 else f.encodeMag mode sat neg (Mag.dy m e)

/-- A value rounded to an integer between bounds, and whether a finite value was clamped (Table 4.7: NaN gives 0). -/
def toInteger (mode : Rnd) (lo hi : Int) : Val → Int × Bool
  | .nan => (0, false)
  | .inf neg => (if neg then lo else hi, false)
  | .fin neg m e =>
    let q : Nat := if m = 0 then 0 else roundUnits mode (Mag.dy m e) 0
    let i : Int := if neg then -(q : Int) else q
    if i < lo then (lo, true) else if hi < i then (hi, true) else (i, false)

/-- The bound of a tally word (R172). -/
def tallyTop : Int := 2 ^ 31 - 1

/-- A stored tally word's value (R172). -/
def tallyOf (w : Nat) : Int := max (-tallyTop) (sint 32 w)

/-- An integer clamped to the tally range, and whether it was. -/
def tallyClamp (i : Int) : Int × Bool :=
  if i < -tallyTop then (-tallyTop, true) else if tallyTop < i then (tallyTop, true) else (i, false)

/-- The scale of an E8M0 byte (R170). -/
def e8m0 (b : Nat) : Val := if b % 256 = 255 then .nan else .pow2 ((b % 256 : Nat) - 127)

/-- The value of an element code of a type: floats, integers, tally words and E8M0 bytes. -/
def elemVal (ty code : Nat) : Val :=
  match fmtOf ty with
  | some f => f.decode code
  | none =>
    if ty = 8 then .ofInt (sint 8 code) else if ty = 9 then .ofInt (sint 32 code)
    else if ty = 10 then e8m0 code else .ofInt (tallyOf code)

/-- FP32 rounding to nearest. -/
def rne32 (v : Val) : Nat := Fmt.fp32.encode .rne false v

/-- The value of an FP32 word. -/
def f32 (w : Nat) : Val := Fmt.fp32.decode w

/-- The quotient of two values rounded to a format (Table 5.4). -/
def divTo (f : Fmt) (mode : Rnd) (a b : Val) : Nat :=
  match a, b with
  | .nan, _ => f.nanCode
  | .inf _, .nan => f.nanCode
  | .fin .., .nan => f.nanCode
  | .inf _, .inf _ => f.nanCode
  | .inf x, .fin y _ _ => f.infCode (x != y)
  | .fin x _ _, .inf y => f.signed (x != y) 0
  | .fin x m1 e1, .fin y m2 e2 =>
    if m2 = 0 then (if m1 = 0 then f.nanCode else f.infCode (x != y))
    else if m1 = 0 then f.signed (x != y) 0
    else
      let (n, d) := if e1 - e2 ≥ 0 then (m1 <<< (e1 - e2).toNat, m2) else (m1, m2 <<< (e2 - e1).toNat)
      f.encodeMag mode false (x != y) (.rat n d)

/-- The square root of a value rounded to a format (Table 5.4). -/
def sqrtTo (f : Fmt) (mode : Rnd) (a : Val) : Nat :=
  match a with
  | .nan => f.nanCode
  | .inf neg => if neg then f.nanCode else f.infCode false
  | .fin neg m e =>
    if m = 0 then f.signed neg 0
    else if neg then f.nanCode
    else
      match Mag.dy m e with
      | .rat n d => f.encodeMag mode false false (.root n d)
      | .root n d => f.encodeMag mode false false (.root n d)

/-! ### FP20 partials (R115, R116) -/

/-- The value of an FP20 partial. -/
def fp20Val (p : BitVec 20) : Val :=
  let c := p.toNat
  let neg := decide (2 ^ 19 ≤ c)
  let ex : Nat := c % 2 ^ 19 / 2 ^ 11
  let fr : Nat := c % 2 ^ 11
  if ex = 0 then .fin false 0 0
  else if ex = 255 then (if fr = 0 then .inf neg else .nan)
  else .fin neg (2 ^ 11 + fr) ((ex : Int) - 138)

/-- The FP20 add of a block term (R116). -/
def fp20Add (p : BitVec 20) (x : Val) : BitVec 20 :=
  match (fp20Val p).add x with
  | .nan => 0x7FC00
  | .inf neg => if neg then 0xFF800 else 0x7F800
  | .fin neg m e =>
    if m = 0 then 0
    else
      let ex := finExp m e
      let q := roundUnits .rne (Mag.dy m e) (ex - 11)
      let (q, ex) := if q = 2 ^ 12 then (2 ^ 11, ex + 1) else (q, ex)
      if ex ≥ 128 then (if neg then 0xFF800 else 0x7F800)
      else if ex < -126 then 0
      else BitVec.ofNat 20 ((if neg then 2 ^ 19 else 0) + (ex + 127).toNat * 2 ^ 11 + (q - 2 ^ 11))

/-! ### Approximate functions (R144, R147)

Each is evaluated in fixed point with 256 fraction bits, whose error lies far below the least unit of FP32 that matters. -/

/-- 2^256, the fixed-point one. -/
def fxOne : Int := 2 ^ 256

/-- ln 2 in units of 2^-256. -/
def fxLn2 : Int := 0xb17217f7d1cf79abc9e3b39803f2f6af40f343267298b62d8a0d175b8baafa2b

/-- π in units of 2^-512. -/
def fxPi : Int := 0x3243f6a8885a308d313198a2e03707344a4093822299f31d0082efa98ec4e6c89452821e638d01377be5466cf34e90c6cc0ac29b7c97c50dd3f84d5b5b5470917

/-- 2 / √π in units of 2^-256. -/
def fxTwoOverSqrtPi : Int := 0x120dd750429b6d11ae3a914fed7fd8688281341d7587cea2e7342b06199cc4161

/-- A finite value in units of 2^-k. -/
def fxAt (k : Int) (neg : Bool) (m : Nat) (e : Int) : Int :=
  let u : Int := if 0 ≤ e + k then (m <<< (e + k).toNat : Nat) else (m >>> (-(e + k)).toNat : Nat)
  if neg then -u else u

/-- A fixed-point number as a value. -/
def ofFx (i : Int) : Val := .fin (decide (i < 0)) i.natAbs (-256)

/-- The sum of a series: terms t, from the first, each a function of its number and the one before. -/
def series (n : Nat) (t0 : Int) (next : Nat → Int → Int) (weight : Nat → Int → Int) : Int :=
  ((List.range n).foldl (fun (acc : Int × Int) i => (acc.1 + weight i acc.2, next (i + 1) acc.2)) (0, t0)).1

/-- e^x for fixed-point x, as significand and exponent. -/
def fxExp (x : Int) : Nat × Int :=
  let k := x / fxLn2
  let r := x - k * fxLn2
  ((series 70 fxOne (fun i t => t * r / fxOne / i) (fun _ t => t)).toNat, k - 256)

/-- e^x as a value; beyond the range of FP32 a value of like size stands for it. -/
def expVal (x : Int) : Val :=
  if x > 200 * fxOne then .pow2 280 else if x < -(200 * fxOne) then .pow2 (-280)
  else
    let (m, e) := fxExp x
    .fin false m e

/-- ln v for v = m × 2^e, in fixed point. -/
def fxLn (m : Nat) (e : Int) : Int :=
  let l := Nat.log2 m
  let f : Int := if l ≤ 256 then (m <<< (256 - l) : Nat) else (m >>> (l - 256) : Nat)
  let y := (f - fxOne) * fxOne / (f + fxOne)
  let y2 := y * y / fxOne
  (e + l) * fxLn2 + 2 * series 90 y (fun _ t => t * y2 / fxOne) (fun i t => t / (2 * i + 1))

/-- Sine and cosine of a finite value, in fixed point. -/
def fxSinCos (neg : Bool) (m : Nat) (e : Int) : Int × Int :=
  let x := fxAt 512 neg m e
  let n := x / fxPi
  let r := (x - n * fxPi) / fxOne
  let r2 := r * r / fxOne
  let sn := series 90 r (fun i t => -(t * r2 / fxOne / ((2 * i) * (2 * i + 1)))) (fun _ t => t)
  let cs := series 90 fxOne (fun i t => -(t * r2 / fxOne / ((2 * i - 1) * (2 * i)))) (fun _ t => t)
  if n % 2 = 0 then (sn, cs) else (-sn, -cs)

/-- e^-a for a not negative, in fixed point. -/
def fxExpNeg (a : Int) : Int :=
  if a > 170 * fxOne then 0
  else
    let (m, e) := fxExp (-a)
    fxAt 256 false m e

/-- tanh of a finite value. -/
def tanhVal (neg : Bool) (m : Nat) (e : Int) : Val :=
  let t := if e + Nat.log2 m > 10 then 0 else fxExpNeg (2 * fxAt 256 false m e)
  let v := ofFx ((fxOne - t) * fxOne / (fxOne + t))
  let v := if t = 0 then ofFx (fxOne - 1) else v
  if neg then v.neg else v

/-- The logistic sigmoid of a finite value. -/
def sigmVal (neg : Bool) (m : Nat) (e : Int) : Val :=
  if m != 0 && decide (e + Nat.log2 m > 8) then (if neg then .pow2 (-280) else ofFx (fxOne - 1))
  else
    match expVal (fxAt 256 (!neg) m e) with
    | .fin _ q k =>
      let (n, d) := if 0 ≤ k then (1, 1 + q <<< k.toNat) else (2 ^ (-k).toNat, 2 ^ (-k).toNat + q)
      .fin false ((n <<< 450) / d) (-450)
    | v => v

/-- The error function of a finite value. -/
def erfVal (neg : Bool) (m : Nat) (e : Int) : Val :=
  if m != 0 && decide (e + Nat.log2 m > 2) then (let v := ofFx (fxOne - 1); if neg then v.neg else v)
  else
    let x := fxAt 256 neg m e
    let x2 := x * x / fxOne
    ofFx (series 320 x (fun i t => -(t * x2 / fxOne / i)) (fun i t => t / (2 * i + 1)) * fxTwoOverSqrtPi / fxOne)

/-- Whether an FP32 word lies within `n` units in the last place of a value, of its sign. -/
def nearVal (n : Nat) (v : Val) (w : Nat) : Bool :=
  match v, f32 w with
  | .fin neg m e, .fin neg' m' e' =>
    let u := Max.max (finExp m e) (-126) - 23
    m != 0 && neg == neg' && (f32 (rne32 v)).isFin &&
    (match Val.add (.fin neg' m' e') (.fin (!neg) m e) with
      | .fin _ d k => d == 0 || Val.lt (.fin false d k) (.fin false (n * (2 ^ 60 - 1)) (u - 60))
      | .nan => false
      | .inf _ => false)
  | _, _ => false

/-- An approximate result: the part's own candidate where it lies within `n` units in the last place, otherwise the value correctly rounded. -/
def approxTo (n func ctx bits : Nat) (v : Val) : Nat :=
  let c := (Config.approx func ctx (BitVec.ofNat 32 bits)).toNat
  if nearVal n v c then c else rne32 v

/-- VRCP at FP32 (Table 5.4, within 1 ulp). -/
def rcp32 (w : Nat) : Nat :=
  match f32 w with
  | .nan => 0x7FC00000
  | .inf neg => Fmt.fp32.signed neg 0
  | .fin neg m e =>
    if m = 0 then Fmt.fp32.infCode neg
    else
      let q := 2 ^ (Nat.log2 m + 300) / m
      approxTo 1 0x0B 0 w (.fin neg q (-e - (Nat.log2 m : Int) - 300))

/-- VRSQRT at FP32 (Table 5.4, within 1 ulp). -/
def rsqrt32 (w : Nat) : Nat :=
  match f32 w with
  | .nan => 0x7FC00000
  | .inf neg => if neg then 0x7FC00000 else 0
  | .fin neg m e =>
    if m = 0 then Fmt.fp32.infCode neg
    else if neg then 0x7FC00000
    else
      let (m, e) := if e % 2 = 0 then (m, e) else (2 * m, e - 1)
      let q := isqrt (2 ^ 600 / m)
      approxTo 1 0x0C 0 w (.fin false q (-(e / 2) - 300))

/-- The transcendentals at FP32 by opcode (Table 3.13), with the fixed values of Table 5.5. -/
def transc32 (op w : Nat) : Nat :=
  let one := 0x3F800000
  match f32 w with
  | .nan => 0x7FC00000
  | .inf neg =>
    match op with
    | 0x30 => if neg then 0 else w
    | 0x31 => if neg then 0 else w
    | 0x32 => if neg then 0x7FC00000 else w
    | 0x33 => if neg then 0x7FC00000 else w
    | 0x34 => 0x7FC00000
    | 0x35 => 0x7FC00000
    | 0x36 => Fmt.fp32.signed neg one
    | 0x37 => if neg then 0 else one
    | _ => Fmt.fp32.signed neg one
  | .fin neg m e =>
    if m = 0 then
      match op with
      | 0x30 => one
      | 0x31 => one
      | 0x32 => 0xFF800000
      | 0x33 => 0xFF800000
      | 0x34 => w
      | 0x35 => one
      | 0x36 => w
      | 0x37 => 0x3F000000
      | _ => w
    else
      let big := decide (finExp m e > 8)
      match op with
      | 0x30 => approxTo 2 op 0 w (expVal (if big then (if neg then -(300 * fxOne) else 300 * fxOne) else fxAt 256 neg m e))
      | 0x31 =>
        if big then approxTo 2 op 0 w (.pow2 (if neg then -300 else 300))
        else
          let x := fxAt 256 neg m e
          if x % fxOne = 0 then rne32 (.pow2 (x / fxOne))
          else
            let (q, k) := fxExp (x % fxOne * fxLn2 / fxOne)
            approxTo 2 op 0 w (.fin false q (k + x / fxOne))
      | 0x32 =>
        if neg then 0x7FC00000 else if w = one then 0 else approxTo 2 op 0 w (ofFx (fxLn m e))
      | 0x33 =>
        if neg then 0x7FC00000
        else if m = 2 ^ Nat.log2 m then rne32 (.ofInt (finExp m e))
        else approxTo 2 op 0 w (ofFx (fxLn m e * fxOne / fxLn2))
      | 0x34 => approxTo 2 op 0 w (ofFx (fxSinCos neg m e).1)
      | 0x35 => approxTo 2 op 0 w (ofFx (fxSinCos neg m e).2)
      | 0x36 => approxTo 2 op 0 w (tanhVal neg m e)
      | 0x37 => approxTo 2 op 0 w (sigmVal neg m e)
      | _ => approxTo 2 op 0 w (erfVal neg m e)

/-! ### Generators (R159, R160) -/

/-- A 32-bit rotation to the left. -/
def rotl32 (x k : Nat) : Nat := (x <<< k ||| x >>> (32 - k)) % 2 ^ 32

/-- One draw: its value and the next state (R159). The state's words stand least significant first. -/
def draw (g : BitVec 128) : Nat × BitVec 128 :=
  let w (i : Nat) : Nat := bits g.toNat (32 * i) 32
  let s0 := w 0
  let s1 := w 1
  let r := (rotl32 ((s0 + w 3) % 2 ^ 32) 7 + s0) % 2 ^ 32
  let t := s1 <<< 9 % 2 ^ 32
  let s2 := w 2 ^^^ s0
  let s3 := w 3 ^^^ s1
  let s1 := s1 ^^^ s2
  let s0 := s0 ^^^ s3
  (r, BitVec.ofNat 128 (s0 + s1 <<< 32 + (s2 ^^^ t) <<< 64 + (rotl32 s3 11) <<< 96))

/-- One step of splitmix64 (R160): the value for a state word already advanced. -/
def splitmix (sm : Nat) : Nat :=
  let z := (sm ^^^ sm >>> 30) * 0xBF58476D1CE4E5B9 % 2 ^ 64
  let z := (z ^^^ z >>> 27) * 0x94D049BB133111EB % 2 ^ 64
  z ^^^ z >>> 31

/-- The seeded state of a lane, from the job seed and its global coordinate (R160). -/
def seedLane (seed g : Nat) : BitVec 128 :=
  let a := (seed ^^^ g) + 0x9E3779B97F4A7C15
  let z0 := splitmix (a % 2 ^ 64)
  let z1 := splitmix ((a + 0x9E3779B97F4A7C15) % 2 ^ 64)
  let v := z0 + z1 <<< 64
  BitVec.ofNat 128 (if v = 0 then 1 else v)

end Sys2Proof.Machine
end

