-- ==== Sys2Proof/Machine/Store.lean ====
section
/-! DEFINITION. The counting of stores (R186, R189). -/

namespace Sys2Proof.Machine

/-! ### Counted stores (R186, R189) -/

/-- A floor of log2, clamped to the census bins 2 to 65 (Table 6.6). -/
def binExp (e : Int) : Nat := (max 2 (min 65 (e + 42))).toNat

/-- The census bin of an element of a type (Table 6.6). -/
def binOf (ty code : Nat) : Nat :=
  match elemVal ty code with
  | .nan => 68
  | .inf neg => if neg then 67 else 66
  | .fin _ m e =>
    if m = 0 then 0
    else
      match fmtOf ty with
      | some f => if code % 2 ^ (f.w - 1) < 2 ^ f.m then 1 else binExp (finExp m e)
      | none => binExp (finExp m e)

/-- The storage type of a slot's elements, by its kind (Table 6.3). A store has no type of its own, so a counted one takes its slot's; which of the formats of kind 0 a slot of that kind
counts is a free value (DESIGN CHOICE, assumption 26). -/
def kindType (slot : Nat) : Nat → Nat
  | 0 => match Config.weightType slot with
    | 0 => 3
    | 1 => 7
    | 2 => 1
  | 1 => 3
  | 2 => 4
  | 3 => 11
  | 4 => 3
  | 5 => 1
  | 6 => 1
  | _ => 0

/-- The elements of bytes in a type: FP6 in 8-bit slots, FP4 two to a byte, low first. -/
def elements (ty : Nat) (bs : List Byte) : List Nat :=
  match typeBits ty with
  | 4 => bs.flatMap (fun b => [b.toNat % 16, b.toNat / 16])
  | 6 => bs.map (fun b => b.toNat % 64)
  | 8 => bs.map (·.toNat)
  | w => (pieces (w / 8) (bs.length / (w / 8)) bs).map natLE

/-- Bins added to a slot, bank and die. -/
def countBins (d slot bank : Nat) (bs : List Nat) (s : State) : State :=
  each ((List.range 69).filter bs.contains) (fun b s => countBin d slot bank b (bs.count b) s) s

/-- Counted bins of a store for lap `n`: only in an installed slot that counts stores, and while the bank is that lap's (R188, R189). -/
def countStore (d slot n : Nat) (bs : List Nat) (s : State) : State :=
  if (slotDef s slot).any (·.stores) && bankHolds s n then countBins d slot (n % 2) bs s else s

/-- A counted store of bytes in a type. -/
def countBytes (d : Nat) (c : Option Counted) (bs : List Byte) (s : State) : State :=
  match c with
  | some c => countStore d c.slot c.lap ((elements c.type bs).map (binOf c.type)) s
  | none => s

end Sys2Proof.Machine
end

