-- ==== Sys2Proof/Machine/Runners.lean ====
section
/-! DEFINITION. Runners: their registers, what holds a bundle, freezing, ending, and the issue of a bundle from its slots (R65 to R79). -/

namespace Sys2Proof.Machine

/-! ### Registers (Table 3.1) -/

/-- A scalar register: s0 reads 0. -/
def sReg (s : State) (w n : Nat) : Word := if n = 0 then 0 else (runnerAt s w).s.get n 0

/-- A scalar register written: s0 discards writes. -/
def setS (w n : Nat) (v : Word) (s : State) : State := if n = 0 then s else modRunner w (fun r => { r with s := r.s.set n v }) s

/-- An address register. -/
def aReg (s : State) (w n : Nat) : Word := (runnerAt s w).a.get n 0

/-- An address register written. -/
def setA (w n : Nat) (v : Word) (s : State) : State := modRunner w (fun r => { r with a := r.a.set n v }) s

/-- A predicate: p0 reads 1. -/
def pReg (s : State) (w n : Nat) : Bool := n == 0 || (runnerAt s w).p.testBit n

/-- A predicate written: p0 discards writes. -/
def setP (w n : Nat) (v : Bool) (s : State) : State :=
  if n = 0 then s
  else modRunner w (fun r => { r with p := if v then r.p ||| 2 ^ n else r.p ^^^ (r.p &&& 2 ^ n) }) s

/-- Whether a guard lets its slot perform (R77). -/
def guardOn (s : State) (w g : Nat) : Bool := pReg s w (g / 2 % 8) != (g % 2 == 1)

/-- The lap whose bank a runner's counted stores use, read at issue (R189). -/
def countLap (s : State) (w : Nat) : Nat :=
  let r := runnerAt s w
  if r.censusLap = 0xFFFFFFFF then (coreAt s (coreOf w)).lap else r.censusLap

/-- How a store with its census bit set is counted (R94): none while CENSUS_SLOT holds 0xFFFF. -/
def counted (s : State) (w : Nat) (bit : Bool) (ty : Nat → Nat) : Option Counted :=
  let slot := (runnerAt s w).census
  if bit && decide (slot < 4096) then some ⟨slot, countLap s w, ty slot⟩ else none

/-- The storage type of a slot's kind; E4M3 for a slot that is not installed (its stores are not counted). -/
def slotType (s : State) (slot : Nat) : Nat := kindType slot ((slotDef s slot).elim 0 (·.kind))

/-! ### What is in flight -/

/-- The ranges an access reads or writes. -/
def Access.ranges (a : Access) : List (Nat × Nat) :=
  match a.kind with
  | .copyIn dest => (dest, sumOf (a.chunks.map (·.2))) :: a.chunks
  | .load .. => a.chunks
  | .store _ => a.chunks
  | .atomic .. => a.chunks

/-- The rows of a transfer from a base. -/
def rowsAt (base rows n : Nat) (stride : Int) : List (Nat × Nat) :=
  (List.range rows).map (fun (i : Nat) => (wrap 64 (base + stride * i), n))

/-- The ranges a transfer writes. -/
def Transfer.written (t : Transfer) : List (Nat × Nat) := rowsAt t.dst t.rows t.rowBytes t.dstr

/-- The ranges a transfer reads: a fill reads none. -/
def Transfer.read (t : Transfer) : List (Nat × Nat) := if t.pat.isSome then [] else rowsAt t.src t.rows t.rowBytes t.sstr

/-- The ranges a transfer reads or writes. -/
def Transfer.ranges (t : Transfer) : List (Nat × Nat) := t.read ++ t.written

/-- Bytes of a K-step record (Table 4.2). -/
def recordSize (ty : Nat) : Nat :=
  match ty with
  | 0 => 16384
  | 1 => 8192
  | 2 => 8192
  | 3 => 4224
  | 4 => 4224
  | 5 => 3200
  | 6 => 3200
  | 7 => 2176
  | _ => 4096

/-- Bytes a drain writes (R127). -/
def drainBytes (ty : Nat) : Nat := 128 * 128 * typeBits ty / 8

/-- The memory ranges an array operation reads or writes, its tile apart. -/
def ArrKind.ranges : ArrKind → List (Nat × Nat)
  | .mmac a b n ta tb _ _ => [(a, n * recordSize ta), (b, n * recordSize tb)]
  | .drain dest _ ty _ _ _ _ => [(dest, drainBytes ty)]
  | .setp _ => []
  | .scale .. => []
  | .zero _ => []

/-- Whether an array operation names a tile: MSETP promotes both (R119). -/
def ArrKind.names (t : Nat) : ArrKind → Bool
  | .mmac _ _ _ _ _ tile _ => tile == t
  | .drain _ _ _ _ tile _ _ => tile == t
  | .scale _ _ tile => tile == t
  | .zero tile => tile == t
  | .setp _ => true

/-- Whether two lists of ranges meet. -/
def meet (l m : List (Nat × Nat)) : Bool := l.any (fun p => m.any (fun q => overlap p.1 p.2 q.1 q.2))

/-- The array operations of a core, an out-of-band drain among them. -/
def arrayOps (s : State) (k : Nat) : List ArrOp := (coreAt s k).array ++ (coreAt s k).odrain.toList

/-- Whether a runner of core `k` has in flight an access or transfer to a range, numbered below `id` where one is given. -/
def rangeBusy (s : State) (k : Nat) (id : Option Nat) (rs : List (Nat × Nat)) : Bool :=
  let early (i : Nat) : Bool := id.all (fun n => decide (i < n))
  s.accesses.any (fun a => coreOf a.runner == k && early a.id && meet a.ranges rs) ||
  (coreAt s k).mover.any (fun t => early t.id && meet t.ranges rs)

/-- Whether a register of a runner awaits an earlier write, or an earlier access to its addresses by its own core (R73, R123, R140). -/
def busy (s : State) (w : Nat) : RegName → Bool
  | .s n => n != 0 && s.accesses.any (fun a => a.runner == w && (match a.kind with
      | .load rd _ _ => rd == n
      | .atomic _ _ _ _ rd => rd == n
      | .store _ => false
      | .copyIn _ => false))
  | .v n =>
    let k := coreOf w
    let r := [(vregAddr k n, 4096)]
    rangeBusy s k none r || (arrayOps s k).any (fun o => meet o.kind.ranges r)
  | .t n =>
    let k := coreOf w
    (arrayOps s k).any (·.kind.names n) || rangeBusy s k none [(tileAddr k n, 65536)]
  | .a _ => false
  | .p _ => false
  | .m _ => false
  | .gen => false

/-- The registers of a runner's own core that ranges touch by address. -/
def ownRegs (k : Nat) (rs : List (Nat × Nat)) : List RegName :=
  ((List.range 2).filter (fun t => meet rs [(tileAddr k t, 65536)])).map .t ++
  ((List.range 32).filter (fun v => meet rs [(vregAddr k v, 4096)])).map .v

/-- Whether an access, transfer or array operation has not been performed. -/
def outstanding (s : State) (id : Nat) : Bool :=
  s.accesses.any (·.id == id) ||
  s.cores.any (fun p => p.2.mover.any (·.id == id) || p.2.array.any (·.id == id))

/-- Accesses, transfers and array operations of a runner that have not been performed (R71): an array operation counts for the memory it reads or writes. -/
def runnerBusy (s : State) (w : Nat) : Bool :=
  let c := coreAt s (coreOf w)
  s.accesses.any (·.runner == w) || c.mover.any (·.runner == w) ||
  c.array.any (fun o => o.runner == w && !o.kind.ranges.isEmpty)

/-- Whether a baton's relay has completed. -/
def batonDone (s : State) (w b : Nat) : Bool := (runnerAt s w).batons.any (fun t => t.value == b && t.status.isSome)

/-! ### Holds (Table 3.5) -/

/-- Whether what holds a runner's next bundle still does. -/
def waitHolds (s : State) (w : Nat) : Wait → Bool
  | .source regs => regs.any (busy s w)
  | .operand ids => ids.any (outstanding s)
  | .arrayFull => decide (4 ≤ (coreAt s (coreOf w)).array.length)
  | .moverFull => decide (32 ≤ (coreAt s (coreOf w)).mover.length)
  | .genLoad => (coreAt s (coreOf w)).loading
  | .fence ids => ids.any (outstanding s)
  | .hurdle => s.hurdles.any (fun h => h.2.waiting.contains w)
  | .baton b => !batonDone s w b
  | .heatPost => !(runnerAt s w).posted
  | .heatNext => (runnerAt s w).given.isNone
  | .transfers ids => ids.any (outstanding s)
  | .arrayOps ids => ids.any (outstanding s)
  | .posts e => decide (1024 ≤ waitingPosts s e)

/-- A hold on which the runner joins an order (R34, R96). -/
def Wait.joins : Wait → Bool
  | .heatPost => true
  | .heatNext => true
  | .source _ => false
  | .operand _ => false
  | .arrayFull => false
  | .moverFull => false
  | .genLoad => false
  | .fence _ => false
  | .hurdle => false
  | .baton _ => false
  | .transfers _ => false
  | .arrayOps _ => false
  | .posts _ => false

/-- The wait cause of what holds a bundle (Table 3.5). -/
def Wait.cause : Wait → Nat
  | .source _ => 1
  | .operand _ => 1
  | .arrayFull => 2
  | .moverFull => 2
  | .genLoad => 2
  | .fence _ => 3
  | .hurdle => 4
  | .baton _ => 5
  | .heatPost => 6
  | .heatNext => 6
  | .transfers _ => 7
  | .arrayOps _ => 8
  | .posts _ => 10

/-- A Waiting runner whose hold has cleared is Ready (Table 3.4). -/
def wake (w : Nat) (s : State) : State :=
  let r := runnerAt s w
  if r.state = .waiting ∧ !(r.wait.any (waitHolds s w)) then setRunner s w { r with state := .ready, wait := none } else s

/-- Every Waiting runner whose hold has cleared is Ready. -/
def wakeAll (s : State) : State := each ((s.runners.filter (·.2.state == .waiting)).map (·.1)) wake s

/-! ### Freezing, halting and ending -/

/-- The error of a runner: its number, its PC, and for an access fault the address (R106, Table 18.2). -/
def runnerErr (w pc code addr : Nat) : Err :=
  { code := code, cont := contF, die := dieOfRunner w, mkind := 1, midx := w, addr := addr, detail := pc }

/-- CMP_CORE_k_FREEZE names the runner most recently frozen (Table 3.21). -/
def noteFreeze (w pc code : Nat) (s : State) : State :=
  setReg s (.cmpCoreFreeze (coreOf w)) (BitVec.ofNat 64 (w % 16 + code * 2 ^ 8 + pc % 2 ^ 17 * 2 ^ 24))

/-- A step whose bundle has issued is done, whatever ends it: step_done sets (R103). -/
def stepEnds (w : Nat) (s : State) : State :=
  if (runnerAt s w).stepIssued then
    modCore (coreOf w) (fun c => { c with stepDone := true }) (modRunner w (fun r => { r with stepIssued := false }) s) else s

/-- Whether a runner can be frozen (Table 3.4). -/
def freezable (r : Runner) : Bool := r.state == .ready || r.state == .waiting || r.state == .halted

/-- A violation freezes a runner and is recorded (R106). The record is made even where the runner is no longer there to be frozen (R70). `pc` is that of the bundle that made the access. -/
def freezeAt (w pc code addr : Nat) (s : State) : State :=
  let s := raise (runnerErr w pc code addr) s
  let r := runnerAt s w
  if freezable r then
    noteFreeze w pc code (modRunner w (fun r => { r with state := .frozen, cause := 0, wait := none, stepArm := false }) (stepEnds w s)) else s

/-- A violation of a runner's next bundle. -/
def freezeRunner (w code addr : Nat) (s : State) : State := freezeAt w (runnerAt s w).pc code addr s

/-- The number of bundles in a die's program store. -/
def bundleCount (s : State) (d : Nat) : Nat := ((s.progs.get? d).elim [] (·.bundles)).length

/-- A runner that has reached a bundle index outside the program, by a branch or past its last bundle, is frozen (R83). -/
def fetchAt (w : Nat) (next : Int) (s : State) : State :=
  let r := runnerAt s w
  if freezable r && !r.ending && !decide (0 ≤ next ∧ next < bundleCount s (dieOfRunner w)) then freezeRunner w 0x0109 0 s else s

/-- A runner at or past the end of the program is frozen (R83). -/
def fetchCheck (w : Nat) (s : State) : State := fetchAt w (runnerAt s w).pc s

/-- A runner is halted with a cause (R69); its hold is remembered. -/
def haltRunner (w cause : Nat) (s : State) : State :=
  let r := runnerAt s w
  if r.state = .ready ∨ r.state = .waiting then
    modRunner w (fun r => { r with state := .halted, cause := cause, stepArm := false }) (stepEnds w s) else s

/-- A Halted runner resumes: Waiting where its hold remains, otherwise Ready (Table 3.4). -/
def resumeRunner (w : Nat) (s : State) : State :=
  let r := runnerAt s w
  if r.state = .halted ∧ !flag s .hifEmergencyHalt F.hifEmergencyHalt_active then
    fetchCheck w (wake w (setRunner s w { r with state := if r.wait.isSome then .waiting else .ready, cause := 0 })) else s

/-- A LAUNCH with every share started completes: with notify once its runners are Free again (R101). -/
def launchCheck (s : State) : State :=
  each (s.launches.filter (fun l => (l.runners.isEmpty || !l.notify) && !s.shares.any (·.launch == l.id))) (fun l s =>
    let s := { s with launches := s.launches.filter (·.id != l.id) }
    (descOf s l.desc).elim s (fun d => complete d 0 0 (bytesLE 8 l.lid.toNat) s)) s

/-- Whether a runner has reached what a HALT_RUNNERS asks (R502): only a kill, and a resume that an out-of-band drain holds, take time. -/
def haltReached (s : State) (action w : Nat) : Bool :=
  match action with
  | 0 => true
  | 1 => !(coreAt s (coreOf w)).held.contains w || (runnerAt s w).state == .free
  | _ => (runnerAt s w).state == .free

/-- Runners that have reached what a HALT_RUNNERS asks are waited for no more, and one that waits for none completes (R502). -/
def haltCheck (s : State) : State :=
  let s := { s with halts := s.halts.map (fun h => { h with runners := h.runners.filter (fun w => !haltReached s h.action w) }) }
  each (s.halts.filter (·.runners.isEmpty)) (fun h s =>
    let s := { s with halts := s.halts.filter (·.desc != h.desc) }
    (descOf s h.desc).elim s (fun d => succeed d s)) s

/-- A runner becomes Free, with no register left of its program. -/
def freeRunner (w : Nat) (s : State) : State :=
  let s := setRunner (stepEnds w s) w Runner.free
  let s := { s with
    launches := s.launches.map (fun l => { l with runners := l.runners.filter (· != w) })
    hurdles := s.hurdles.map (fun h => (h.1, { h.2 with waiting := h.2.waiting.filter (· != w) })) }
  haltCheck (launchCheck (heatForget w s))

/-- An ending runner with nothing outstanding becomes Free (R71). -/
def runnerFreed (w : Nat) (s : State) : State :=
  if (runnerAt s w).ending && !runnerBusy s w then freeRunner w s else s

/-- A runner ends by EXIT or kill: it issues nothing more, and is Free once what it issued has been performed (R71, R84); until then its last state stands
(DESIGN CHOICE, assumption 104). -/
def endRunner (w : Nat) (s : State) : State :=
  let r := runnerAt s w
  if r.state = .free then s
  else runnerFreed w { setRunner s w { r with ending := true, batons := [] } with
    hurdles := s.hurdles.map (fun h => (h.1, { h.2 with waiting := h.2.waiting.filter (· != w) }))
    heat := { s.heat with waiters := s.heat.waiters.filter (· != w), posts := s.heat.posts.filter (·.runner != some w) } }

/-- A stepped bundle has issued: the runner halts again with cause 12, and step_done sets (R103). -/
def stepDone (w : Nat) (s : State) : State :=
  let r := runnerAt s w
  if r.stepIssued then (if r.ending then stepEnds w s else haltRunner w 12 (stepEnds w s)) else s

/-! ### Generators (R160 to R165) -/

/-- The state of a lane's generator. A lane that has not been set since the last seeding is as its core was seeded (R160). -/
def genOf (s : State) (k lane : Nat) : BitVec 128 :=
  let c := coreAt s k
  c.gens.get lane (seedLane c.genSeed.toNat (k * 256 + lane))

/-- A core's lanes seeded from its die's CMP_VEC_SEED. -/
def seedCore (k : Nat) (s : State) : State :=
  modCore k (fun c => { c with gens := [], genSeed := regVal s (.cmpVecSeed (k / 64)) }) s

/-- `n` draws of a state, and the state they leave. -/
def drawsOf : Nat → BitVec 128 → List Nat × BitVec 128
  | 0, g => ([], g)
  | n + 1, g =>
    let (v, g') := draw g
    let (l, g'') := drawsOf n g'
    (v :: l, g'')

/-- Every lane of a core draws `n` values: the draws by lane, and the state afterwards. -/
def drawLanes (k n : Nat) (s : State) : List (List Nat) × State :=
  let l := (List.range 256).map (fun i => drawsOf n (genOf s k i))
  (l.map (·.1), modCore k (fun c => { c with gens := (List.range 256).zip (l.map (·.2)) }) s)

/-- The generators of a core in the layout of GENSAVE (R91). -/
def genBytes (s : State) (k : Nat) : List Byte := (List.range 256).flatMap (fun i => bytesLE 16 (genOf s k i).toNat)

/-- A core's generators set from that layout. -/
def loadGens (k : Nat) (bs : List Byte) (s : State) : State :=
  modCore k (fun c => { c with gens := (List.range 256).zip ((pieces 16 256 bs).map (fun l => BitVec.ofNat 128 (natLE l))) }) s

/-! ### Bundle boundaries (R163 to R165) -/

/-- The snapshot area of a die: its base. -/
def snapBase (s : State) (d : Nat) : Nat := getF s (.cmpVecSnap d) F.cmpVecSnap_base * 65536

/-- The flag that a snapshot copy is complete. -/
def snapValid (d n : Nat) : Reg × Fld :=
  (.cmpVecGenCtl d, if n % 2 = 0 then F.cmpVecGenCtl_snap_valid_0 else F.cmpVecGenCtl_snap_valid_1)

/-- The address of a core's block in the snapshot copy of a lap. -/
def snapBlock (s : State) (k n : Nat) : Nat := snapBase s (k / 64) + n % 2 * 0x4_0000 + k % 64 * 4096

/-- A core takes the snapshot of lap `n`, where snapshots are enabled, and its LAP reads n from then on (R163). -/
def takeSnapshot (k n : Nat) (s : State) : State :=
  let s := modCore k (fun c => { c with lap := n, snaps := c.snaps.del (n % 2) }) s
  if flag s (.cmpVecSnap (k / 64)) F.cmpVecSnap_enable then
    let s := modCore k (fun c => { c with snaps := c.snaps.set (n % 2) n }) s
    setF (store (snapBlock s k n) (genBytes s k) s) (snapValid (k / 64) n).1 (snapValid (k / 64) n).2 0
  else s

/-- Whether the snapshot of a lap can be restored in a die (R164). -/
def snapUsable (s : State) (d n : Nat) : Bool :=
  flag s (.cmpVecSnap d) F.cmpVecSnap_enable && flag s (snapValid d n).1 (snapValid d n).2

/-- A core restores its lanes after the abort of lap `n`, or reseeds them where there is no snapshot (R164), or its block lies in a listed unit (DESIGN CHOICE, assumption 116). The die's
one record of that is made by its core 0. -/
def restoreGens (k n : Nat) (s : State) : State :=
  let s := if snapUsable s (k / 64) n then probe [(snapBlock s k n, 4096)] [] s else s
  if snapUsable s (k / 64) n && (poisonHit s (snapBlock s k n) 4096).isNone then
    modCore k (fun c => { c with loading := true }) (loadGens k (Mem.read s.mem (snapBlock s k n) 4096) s)
  else seedCore k (if k % 64 = 0 then raise { code := 0x0302, cont := contL, die := k / 64, lap := n } s else s)

/-- What a core does at a bundle boundary. -/
def doBoundary (k : Nat) (b : Boundary) (s : State) : State :=
  match b with
  | .snapshot n => takeSnapshot k n s
  | .restore n => restoreGens k n s
  | .reseed => seedCore k s

/-- A bundle boundary of a core: everything it was ordered to do is done, in order. -/
def boundary (k : Nat) (s : State) : State :=
  match (coreAt s k).boundary with
  | [] => s
  | l => each l (doBoundary k) (modCore k (fun c => { c with boundary := [] }) s)

/-! ### Slots and the issue of a bundle (R72 to R79, R83) -/

/-- What an instruction in a slot asks and does: the registers it reads and writes, the ranges beside them whose codes its issue checks (R298), what can hold it, the error that stops its bundle with
the address it names, what it writes (`old` is the state at issue, from which it reads; the second state carries what the slots before it wrote), what it writes after every slot, and where it branches. -/
structure Slot where
  srcs : List RegName := []
  dsts : List RegName := []
  reads : State → List (Nat × Nat) := fun _ => []
  holds : State → Option Wait := fun _ => none
  enter : State → State := id
  fault : State → Option (Nat × Nat) := fun _ => none
  act : State → State → State := fun _ s => s
  late : State → State → State := fun _ s => s
  branch : State → Option Int := fun _ => none

/-- A slot that performs nothing. -/
def Slot.nop : Slot := {}

/-- A register whose writes two slots of a bundle may not share: s0 and p0 are written by none (R78). -/
def shared : RegName → Bool
  | .s n => n != 0
  | .p n => n != 0
  | .a _ => true
  | .v _ => true
  | .m _ => true
  | .t _ => true
  | .gen => true

/-- Whether two performing slots write one target (R78). -/
def conflict : List Slot → Bool
  | [] => false
  | x :: xs => xs.any (fun y => x.dsts.any (fun r => shared r && y.dsts.contains r)) || conflict xs

/-- Whether a runner's next bundle can issue. -/
def canIssue (s : State) (w : Nat) : Bool :=
  let r := runnerAt s w
  r.state == .ready && !r.ending && !r.stepIssued && !inReset s (dieOfRunner w)

/-- The first hold of slots, with its slot. One on which the runner joins an order comes after every other (DESIGN CHOICE, assumption 102). -/
def firstHold (s : State) (w : Nat) (l : List Slot) : Option (Wait × Slot) :=
  let waits := (l.flatMap (fun x => x.srcs ++ x.dsts)).filter (busy s w)
  let holds := l.filterMap (fun x => (x.holds s).map (fun h => (h, x)))
  if waits.isEmpty then (holds.find? (fun p => !p.1.joins)).or holds.head? else some (.source waits, Slot.nop)

/-- The first check of window, alignment or operand that a slot fails, in the order S, V, M (assumption 101). -/
def firstFault (s : State) (l : List Slot) : Option (Nat × Nat) := l.findSome? (fun x => x.fault s)

/-- A bundle issues: the PC, 17 bits, moves on, the slots act in the order S, V, M from the state at issue, then what follows every slot. -/
def perform (w : Nat) (l : List Slot) (old : State) : State :=
  let r := runnerAt old w
  let n := (coreAt old (coreOf w)).issues + 1
  let next : Int := (l.findSome? (fun x => x.branch old)).getD (r.pc + 1)
  let s := setRunner old w { r with pc := wrap 17 next, issued := n, stepIssued := r.stepArm, stepArm := false }
  let s := modCore (coreOf w) (fun c => { c with issues := n }) s
  let s := each l (fun x s => x.act old s) s
  fetchAt w next (each l (fun x s => x.late old s) s)

/-- Where a register of a core lies in coded storage. -/
def regRange (k : Nat) : RegName → List (Nat × Nat)
  | .v n => [(vregAddr k n, 4096)]
  | .t n => [(tileAddr k n, 65536)]
  | .s _ => []
  | .a _ => []
  | .p _ => []
  | .m _ => []
  | .gen => []

/-- The codes of what slots read at issue are checked (R298, R301). -/
def probeSlots (w : Nat) (l : List Slot) (s : State) : State :=
  probe (l.flatMap (fun x => x.srcs.flatMap (regRange (coreOf w)) ++ x.reads s)) [] s

/-- Slots with nothing left to hold them perform, unless a check stops them or what they read shows that their die must be reset (R74, R301). -/
def performChecked (w : Nat) (l : List Slot) (s : State) : State :=
  match firstFault s l with
  | some (code, a) => freezeRunner w code a s
  | none =>
    let s := probeSlots w l s
    if inReset s (dieOfRunner w) then s
    else
      match firstFault s l with
      | some (code, a) => freezeRunner w code a s
      | none => perform w l s

/-- The issue of a bundle, from its slots with their guards; a slot that is not legal is none (R74, R77 to R79). Which of several failed checks is recorded: assumption 101. -/
def issue (w : Nat) (slots : List (Nat × Option Slot)) (s : State) : State :=
  let s := wake w s
  if !canIssue s w then s
  else
    let s := boundary (coreOf w) s
    if slots.any (·.2.isNone) then freezeRunner w 0x0101 0 s
    else
      let l := (slots.filter (fun p => guardOn s w p.1)).filterMap (·.2)
      if conflict l then freezeRunner w 0x0102 0 s
      else
        match firstHold s w l with
        | some (h, x) =>
          match if h.joins then firstFault s l else none with
          | some (code, a) => freezeRunner w code a s
          | none => x.enter (modRunner w (fun r => { r with state := .waiting, wait := some h }) s)
        | none => performChecked w l s

/-- An instruction alone in its bundle. -/
def issue1 (w g : Nat) (x : Option Slot) (s : State) : State := issue w [(g, x)] s

/-- A slot legal where a condition holds. -/
def legal (b : Bool) (x : Slot) : Option Slot := if b then some x else none

end Sys2Proof.Machine
end

