-- ==== Sys2Proof/Machine/Scalar.lean ====
section
/-! DEFINITION. The scalar and control slot's register instructions: integer, floating point, predicates, moves, branches, special registers
(R79 to R85). Opcodes are those of Table 3.11. -/

namespace Sys2Proof.Machine

/-! ### Integers (R80, R81) -/

/-- Leading zeros of a 64-bit value. -/
def clz64 (x : Word) : Nat := if x = 0 then 64 else 63 - Nat.log2 x.toNat

/-- Trailing zeros of a 64-bit value. -/
def ctz64 (x : Word) : Nat := ((List.range 64).find? (fun i => x.getLsbD i)).getD 64

/-- Set bits of a 64-bit value. -/
def popc64 (x : Word) : Nat := ((List.range 64).filter (fun i => x.getLsbD i)).length

/-- The result of an integer operation by its opcode (R81). -/
def aluVal (op : Nat) (x y : Word) : Word :=
  match op with
  | 0x01 => x + y
  | 0x02 => x - y
  | 0x03 => x * y
  | 0x04 => BitVec.ofInt 64 (x.toInt * y.toInt / 2 ^ 64)
  | 0x05 => BitVec.ofNat 64 (x.toNat * y.toNat / 2 ^ 64)
  | 0x06 => if y = 0 then -1 else x.sdiv y
  | 0x07 => if y = 0 then -1 else x / y
  | 0x08 => if y = 0 then x else x.srem y
  | 0x09 => if y = 0 then x else x % y
  | 0x0A => x &&& y
  | 0x0B => x ||| y
  | 0x0C => x ^^^ y
  | 0x0D => x <<< (y.toNat % 64)
  | 0x0E => x >>> (y.toNat % 64)
  | 0x0F => x.sshiftRight (y.toNat % 64)
  | 0x10 => if x.slt y then x else y
  | 0x11 => if x.slt y then y else x
  | 0x12 => if x < y then x else y
  | 0x13 => if x < y then y else x
  | 0x14 => BitVec.ofNat 64 (clz64 x)
  | 0x15 => BitVec.ofNat 64 (ctz64 x)
  | _ => BitVec.ofNat 64 (popc64 x)

/-- The register operation that an immediate form performs (R80). -/
def immOp (op : Nat) : Nat :=
  match op with
  | 0x20 => 0x01
  | 0x21 => 0x0A
  | 0x22 => 0x0B
  | 0x23 => 0x0C
  | 0x24 => 0x0D
  | 0x25 => 0x0E
  | 0x26 => 0x0F
  | _ => 0x0B

/-- A comparison by its opcode (R81). -/
def cmpVal (op : Nat) (x y : Word) : Bool :=
  match op with
  | 0x40 => x == y
  | 0x41 => x != y
  | 0x42 => x.slt y
  | 0x43 => decide (x < y)
  | 0x44 => !y.slt x
  | _ => !decide (y < x)

/-- A predicate operation by its opcode; PANDN complements its second operand (DEDUCED, assumption 27). -/
def predVal (op : Nat) (x y : Bool) : Bool :=
  match op with
  | 0x46 => x && y
  | 0x47 => x || y
  | 0x48 => x != y
  | _ => x && !y

/-! ### Binary32 (R82) -/

/-- The bits of a binary32 source. -/
def lo32 (x : Word) : Nat := x.toNat % 2 ^ 32

/-- Whether a floating-point relation holds of two words. -/
def fcmp (op : Nat) (x y : Val) : Bool :=
  match op with
  | 0x58 => x.eq y
  | 0x59 => !x.isNan && !y.isNan && x.lt y
  | _ => !x.isNan && !y.isNan && !y.lt x

/-- The result of a scalar floating-point operation by its opcode, as 64 bits (R82). -/
def fpuVal (op : Nat) (x y z : Word) : Word :=
  let a := f32 (lo32 x)
  let b := f32 (lo32 y)
  let w (n : Nat) : Word := BitVec.ofNat 64 n
  match op with
  | 0x50 => w (rne32 (a.add b))
  | 0x51 => w (rne32 (a.add b.neg))
  | 0x52 => w (rne32 (a.mul b))
  | 0x53 => w (rne32 ((a.mul b).add (f32 (lo32 z))))
  | 0x54 => w (divTo .fp32 .rne a b)
  | 0x55 => w (sqrtTo .fp32 .rne a)
  | 0x56 => w (rne32 (a.min b))
  | 0x57 => w (rne32 (a.max b))
  | 0x58 => w (fcmp op a b).toNat
  | 0x59 => w (fcmp op a b).toNat
  | 0x5A => w (fcmp op a b).toNat
  | 0x5B => w (rne32 (.ofInt x.toInt))
  | _ => BitVec.ofInt 64 (toInteger .rtz (-(2 ^ 63)) (2 ^ 63 - 1) a).1

/-! ### Slots -/

/-- An instruction that writes a scalar register with a function of scalar registers. -/
def scalarSlot (w rd : Nat) (rs : List Nat) (f : State → Word) : Option Slot :=
  legal (rd < 64 && rs.all (· < 64))
    { srcs := rs.map .s, dsts := [.s rd], act := fun old s => setS w rd (f old) s }

/-- An integer instruction of form SR. -/
def aluSlot (w op rd rs1 rs2 : Nat) : Option Slot :=
  scalarSlot w rd [rs1, rs2] (fun s => aluVal op (sReg s w rs1) (sReg s w rs2))

/-- An integer instruction of form SI; LI reads no register (R80). -/
def immSlot (w op rd rs1 : Nat) (imm : BitVec 56) : Option Slot :=
  scalarSlot w rd [rs1] (fun s => aluVal (immOp op) (sReg s w rs1) (imm.signExtend 64))

/-- A comparison. -/
def cmpSlot (w op pd rs1 rs2 : Nat) : Option Slot :=
  legal (pd < 8 && rs1 < 64 && rs2 < 64)
    { srcs := [.s rs1, .s rs2], dsts := [.p pd], act := fun old s => setP w pd (cmpVal op (sReg old w rs1) (sReg old w rs2)) s }

/-- A predicate instruction. -/
def predSlot (w op pd p1 p2 : Nat) : Option Slot :=
  legal (pd < 8 && p1 < 8 && p2 < 8)
    { srcs := [.p p1, .p p2], dsts := [.p pd], act := fun old s => setP w pd (predVal op (pReg old w p1) (pReg old w p2)) s }

/-- A floating-point instruction. -/
def fpuSlot (w op rd rs1 rs2 rs3 : Nat) : Option Slot :=
  scalarSlot w rd [rs1, rs2, rs3] (fun s => fpuVal op (sReg s w rs1) (sReg s w rs2) (sReg s w rs3))

/-- MOVA. -/
def movaSlot (w rd rs1 : Nat) : Option Slot :=
  legal (rd < 16 && rs1 < 64) { srcs := [.s rs1], dsts := [.a rd], act := fun old s => setA w rd (sReg old w rs1) s }

/-- MOVS. -/
def movsSlot (w rd rs1 : Nat) : Option Slot :=
  legal (rd < 64 && rs1 < 16) { srcs := [.a rs1], dsts := [.s rd], act := fun old s => setS w rd (aReg old w rs1) s }

/-- ADDA. -/
def addaSlot (w rd rs1 rs2 : Nat) : Option Slot :=
  legal (rd < 16 && rs1 < 16 && rs2 < 64)
    { srcs := [.a rs1, .s rs2], dsts := [.a rd], act := fun old s => setA w rd (aReg old w rs1 + sReg old w rs2) s }

/-- The bundle index at an offset from a runner's PC (R83). -/
def pcPlus (s : State) (w : Nat) (off : BitVec 22) : Int := (runnerAt s w).pc + off.toInt

/-- BR. -/
def brSlot (w : Nat) (off : BitVec 22) : Option Slot := some { branch := fun s => some (pcPlus s w off) }

/-- CALL. -/
def callSlot (w : Nat) (off : BitVec 22) : Option Slot :=
  some { dsts := [.s 63], branch := fun s => some (pcPlus s w off),
         act := fun old s => setS w 63 (BitVec.ofNat 64 ((runnerAt old w).pc + 1)) s }

/-- BRX; RET is its form on s63. -/
def brxSlot (w r : Nat) : Option Slot :=
  legal (r < 64) { srcs := [.s r], branch := fun s => some (bits (sReg s w r).toNat 0 17 : Nat) }

/-- EXIT: the runner ends once its bundle's other slots have performed (R84). -/
def exitSlot (w : Nat) : Option Slot := some { late := fun _ s => endRunner w s }

/-- Whether debug access of a scope bit is unlocked (R469, R470: bit 0 core debug, bit 1 out-of-band drain). -/
def debugOpen (s : State) (b : Nat) : Bool :=
  flag s .secDebugStatus F.secDebugStatus_unlocked && (getF s .secDebugStatus F.secDebugStatus_scope).testBit b

/-- BREAK (R84). -/
def breakSlot (w : Nat) : Option Slot :=
  some { late := fun old s => if debugOpen old 0 then haltRunner w 13 s else s }

/-- CYCLES of a runner as it reads now: counted from its launch, it never falls, and has grown by a free value since it was last read (assumption 2): the model has no clock of a
core. -/
def cyclesNow (s : State) (w : Nat) : Nat := Nat.min ((runnerAt s w).cycles + (freeOf s).toNat) (2 ^ 64 - 1)

/-- CYCLES has been read. -/
def cyclesRead (w : Nat) (old s : State) : State := freeTaken (modRunner w (fun r => { r with cycles := cyclesNow old w }) s)

/-- A special register (Table 3.12). -/
def specialReg (s : State) (w idx : Nat) : Word :=
  let k := coreOf w
  let r := runnerAt s w
  match idx with
  | 0 => BitVec.ofNat 64 w
  | 1 => BitVec.ofNat 64 k
  | 2 => BitVec.ofNat 64 (cyclesNow s w)
  | 3 => BitVec.ofNat 64 (dieNs s (dieOfRunner w))
  | 4 => BitVec.ofNat 64 (coreAt s k).lap
  | 5 => BitVec.ofNat 64 (jobOf s)
  | 6 => r.arg
  | 7 => r.launchId
  | 8 => BitVec.ofNat 64 r.census
  | _ => BitVec.ofNat 64 r.censusLap

/-- RDSR. -/
def rdsrSlot (w rd idx : Nat) : Option Slot :=
  legal (rd < 64 && idx < 10)
    { dsts := [.s rd], act := fun old s => (if idx = 2 then cyclesRead w old else id) (setS w rd (specialReg old w idx) s) }

/-- Whether a value may be written to CENSUS_SLOT or CENSUS_LAP (Table 3.12). -/
def specialFits (idx v : Nat) : Bool := if idx = 8 then decide (v < 4096 ∨ v = 0xFFFF) else decide (v < 2 ^ 32)

/-- CENSUS_SLOT or CENSUS_LAP written. -/
def setSpecial (w idx v : Nat) (s : State) : State :=
  modRunner w (fun r => if idx = 8 then { r with census := v } else { r with censusLap := v }) s

/-- WRSR. -/
def wrsrSlot (w rs idx : Nat) : Option Slot :=
  legal (rs < 64 && (idx == 8 || idx == 9))
    { srcs := [.s rs],
      fault := fun s => if specialFits idx (sReg s w rs).toNat then none else some (0x0101, 0),
      act := fun old s => setSpecial w idx (sReg old w rs).toNat s }

/-! ### The commands -/

def execNop (w g : Nat) (s : State) : Host.Outcome State Fault Refusal := .next (issue1 w g (some Slot.nop) s)

def execAdd (w g rd rs1 rs2 : Nat) (s : State) : Host.Outcome State Fault Refusal := .next (issue1 w g (aluSlot w 0x01 rd rs1 rs2) s)

def execSub (w g rd rs1 rs2 : Nat) (s : State) : Host.Outcome State Fault Refusal := .next (issue1 w g (aluSlot w 0x02 rd rs1 rs2) s)

def execMul (w g rd rs1 rs2 : Nat) (s : State) : Host.Outcome State Fault Refusal := .next (issue1 w g (aluSlot w 0x03 rd rs1 rs2) s)

def execMulh (w g rd rs1 rs2 : Nat) (s : State) : Host.Outcome State Fault Refusal := .next (issue1 w g (aluSlot w 0x04 rd rs1 rs2) s)

def execMulhu (w g rd rs1 rs2 : Nat) (s : State) : Host.Outcome State Fault Refusal := .next (issue1 w g (aluSlot w 0x05 rd rs1 rs2) s)

def execDiv (w g rd rs1 rs2 : Nat) (s : State) : Host.Outcome State Fault Refusal := .next (issue1 w g (aluSlot w 0x06 rd rs1 rs2) s)

def execDivu (w g rd rs1 rs2 : Nat) (s : State) : Host.Outcome State Fault Refusal := .next (issue1 w g (aluSlot w 0x07 rd rs1 rs2) s)

def execRem (w g rd rs1 rs2 : Nat) (s : State) : Host.Outcome State Fault Refusal := .next (issue1 w g (aluSlot w 0x08 rd rs1 rs2) s)

def execRemu (w g rd rs1 rs2 : Nat) (s : State) : Host.Outcome State Fault Refusal := .next (issue1 w g (aluSlot w 0x09 rd rs1 rs2) s)

def execAnd (w g rd rs1 rs2 : Nat) (s : State) : Host.Outcome State Fault Refusal := .next (issue1 w g (aluSlot w 0x0A rd rs1 rs2) s)

def execOr (w g rd rs1 rs2 : Nat) (s : State) : Host.Outcome State Fault Refusal := .next (issue1 w g (aluSlot w 0x0B rd rs1 rs2) s)

def execXor (w g rd rs1 rs2 : Nat) (s : State) : Host.Outcome State Fault Refusal := .next (issue1 w g (aluSlot w 0x0C rd rs1 rs2) s)

def execShl (w g rd rs1 rs2 : Nat) (s : State) : Host.Outcome State Fault Refusal := .next (issue1 w g (aluSlot w 0x0D rd rs1 rs2) s)

def execShr (w g rd rs1 rs2 : Nat) (s : State) : Host.Outcome State Fault Refusal := .next (issue1 w g (aluSlot w 0x0E rd rs1 rs2) s)

def execSra (w g rd rs1 rs2 : Nat) (s : State) : Host.Outcome State Fault Refusal := .next (issue1 w g (aluSlot w 0x0F rd rs1 rs2) s)

def execMin (w g rd rs1 rs2 : Nat) (s : State) : Host.Outcome State Fault Refusal := .next (issue1 w g (aluSlot w 0x10 rd rs1 rs2) s)

def execMax (w g rd rs1 rs2 : Nat) (s : State) : Host.Outcome State Fault Refusal := .next (issue1 w g (aluSlot w 0x11 rd rs1 rs2) s)

def execMinu (w g rd rs1 rs2 : Nat) (s : State) : Host.Outcome State Fault Refusal := .next (issue1 w g (aluSlot w 0x12 rd rs1 rs2) s)

def execMaxu (w g rd rs1 rs2 : Nat) (s : State) : Host.Outcome State Fault Refusal := .next (issue1 w g (aluSlot w 0x13 rd rs1 rs2) s)

def execClz (w g rd rs1 : Nat) (s : State) : Host.Outcome State Fault Refusal := .next (issue1 w g (aluSlot w 0x14 rd rs1 0) s)

def execCtz (w g rd rs1 : Nat) (s : State) : Host.Outcome State Fault Refusal := .next (issue1 w g (aluSlot w 0x15 rd rs1 0) s)

def execPopc (w g rd rs1 : Nat) (s : State) : Host.Outcome State Fault Refusal := .next (issue1 w g (aluSlot w 0x16 rd rs1 0) s)

def execAddi (w g rd rs1 : Nat) (imm : BitVec 56) (s : State) : Host.Outcome State Fault Refusal := .next (issue1 w g (immSlot w 0x20 rd rs1 imm) s)

def execAndi (w g rd rs1 : Nat) (imm : BitVec 56) (s : State) : Host.Outcome State Fault Refusal := .next (issue1 w g (immSlot w 0x21 rd rs1 imm) s)

def execOri (w g rd rs1 : Nat) (imm : BitVec 56) (s : State) : Host.Outcome State Fault Refusal := .next (issue1 w g (immSlot w 0x22 rd rs1 imm) s)

def execXori (w g rd rs1 : Nat) (imm : BitVec 56) (s : State) : Host.Outcome State Fault Refusal := .next (issue1 w g (immSlot w 0x23 rd rs1 imm) s)

def execShli (w g rd rs1 : Nat) (imm : BitVec 56) (s : State) : Host.Outcome State Fault Refusal := .next (issue1 w g (immSlot w 0x24 rd rs1 imm) s)

def execShri (w g rd rs1 : Nat) (imm : BitVec 56) (s : State) : Host.Outcome State Fault Refusal := .next (issue1 w g (immSlot w 0x25 rd rs1 imm) s)

def execSrai (w g rd rs1 : Nat) (imm : BitVec 56) (s : State) : Host.Outcome State Fault Refusal := .next (issue1 w g (immSlot w 0x26 rd rs1 imm) s)

def execLi (w g rd : Nat) (imm : BitVec 56) (s : State) : Host.Outcome State Fault Refusal := .next (issue1 w g (immSlot w 0x27 rd 0 imm) s)

def execCmpeq (w g pd rs1 rs2 : Nat) (s : State) : Host.Outcome State Fault Refusal := .next (issue1 w g (cmpSlot w 0x40 pd rs1 rs2) s)

def execCmpne (w g pd rs1 rs2 : Nat) (s : State) : Host.Outcome State Fault Refusal := .next (issue1 w g (cmpSlot w 0x41 pd rs1 rs2) s)

def execCmplt (w g pd rs1 rs2 : Nat) (s : State) : Host.Outcome State Fault Refusal := .next (issue1 w g (cmpSlot w 0x42 pd rs1 rs2) s)

def execCmpltu (w g pd rs1 rs2 : Nat) (s : State) : Host.Outcome State Fault Refusal := .next (issue1 w g (cmpSlot w 0x43 pd rs1 rs2) s)

def execCmple (w g pd rs1 rs2 : Nat) (s : State) : Host.Outcome State Fault Refusal := .next (issue1 w g (cmpSlot w 0x44 pd rs1 rs2) s)

def execCmpleu (w g pd rs1 rs2 : Nat) (s : State) : Host.Outcome State Fault Refusal := .next (issue1 w g (cmpSlot w 0x45 pd rs1 rs2) s)

def execPand (w g pd p1 p2 : Nat) (s : State) : Host.Outcome State Fault Refusal := .next (issue1 w g (predSlot w 0x46 pd p1 p2) s)

def execPor (w g pd p1 p2 : Nat) (s : State) : Host.Outcome State Fault Refusal := .next (issue1 w g (predSlot w 0x47 pd p1 p2) s)

def execPxor (w g pd p1 p2 : Nat) (s : State) : Host.Outcome State Fault Refusal := .next (issue1 w g (predSlot w 0x48 pd p1 p2) s)

def execPandn (w g pd p1 p2 : Nat) (s : State) : Host.Outcome State Fault Refusal := .next (issue1 w g (predSlot w 0x49 pd p1 p2) s)

def execFadd (w g rd rs1 rs2 : Nat) (s : State) : Host.Outcome State Fault Refusal := .next (issue1 w g (fpuSlot w 0x50 rd rs1 rs2 0) s)

def execFsub (w g rd rs1 rs2 : Nat) (s : State) : Host.Outcome State Fault Refusal := .next (issue1 w g (fpuSlot w 0x51 rd rs1 rs2 0) s)

def execFmul (w g rd rs1 rs2 : Nat) (s : State) : Host.Outcome State Fault Refusal := .next (issue1 w g (fpuSlot w 0x52 rd rs1 rs2 0) s)

def execFfma (w g rd rs1 rs2 rs3 : Nat) (s : State) : Host.Outcome State Fault Refusal := .next (issue1 w g (fpuSlot w 0x53 rd rs1 rs2 rs3) s)

def execFdiv (w g rd rs1 rs2 : Nat) (s : State) : Host.Outcome State Fault Refusal := .next (issue1 w g (fpuSlot w 0x54 rd rs1 rs2 0) s)

def execFsqrt (w g rd rs1 : Nat) (s : State) : Host.Outcome State Fault Refusal := .next (issue1 w g (fpuSlot w 0x55 rd rs1 0 0) s)

def execFmin (w g rd rs1 rs2 : Nat) (s : State) : Host.Outcome State Fault Refusal := .next (issue1 w g (fpuSlot w 0x56 rd rs1 rs2 0) s)

def execFmax (w g rd rs1 rs2 : Nat) (s : State) : Host.Outcome State Fault Refusal := .next (issue1 w g (fpuSlot w 0x57 rd rs1 rs2 0) s)

def execFcmpeq (w g rd rs1 rs2 : Nat) (s : State) : Host.Outcome State Fault Refusal := .next (issue1 w g (fpuSlot w 0x58 rd rs1 rs2 0) s)

def execFcmplt (w g rd rs1 rs2 : Nat) (s : State) : Host.Outcome State Fault Refusal := .next (issue1 w g (fpuSlot w 0x59 rd rs1 rs2 0) s)

def execFcmple (w g rd rs1 rs2 : Nat) (s : State) : Host.Outcome State Fault Refusal := .next (issue1 w g (fpuSlot w 0x5A rd rs1 rs2 0) s)

def execFcvtif (w g rd rs1 : Nat) (s : State) : Host.Outcome State Fault Refusal := .next (issue1 w g (fpuSlot w 0x5B rd rs1 0 0) s)

def execFcvtfi (w g rd rs1 : Nat) (s : State) : Host.Outcome State Fault Refusal := .next (issue1 w g (fpuSlot w 0x5C rd rs1 0 0) s)

def execMova (w g rd rs1 : Nat) (s : State) : Host.Outcome State Fault Refusal := .next (issue1 w g (movaSlot w rd rs1) s)

def execMovs (w g rd rs1 : Nat) (s : State) : Host.Outcome State Fault Refusal := .next (issue1 w g (movsSlot w rd rs1) s)

def execAdda (w g rd rs1 rs2 : Nat) (s : State) : Host.Outcome State Fault Refusal := .next (issue1 w g (addaSlot w rd rs1 rs2) s)

def execBr (w g : Nat) (off : BitVec 22) (s : State) : Host.Outcome State Fault Refusal := .next (issue1 w g (brSlot w off) s)

def execCall (w g : Nat) (off : BitVec 22) (s : State) : Host.Outcome State Fault Refusal := .next (issue1 w g (callSlot w off) s)

def execBrx (w g r : Nat) (s : State) : Host.Outcome State Fault Refusal := .next (issue1 w g (brxSlot w r) s)

def execRet (w g : Nat) (s : State) : Host.Outcome State Fault Refusal := .next (issue1 w g (brxSlot w 63) s)

def execExit (w g : Nat) (s : State) : Host.Outcome State Fault Refusal := .next (issue1 w g (exitSlot w) s)

def execBreakInstr (w g : Nat) (s : State) : Host.Outcome State Fault Refusal := .next (issue1 w g (breakSlot w) s)

def execRdsr (w g rd idx : Nat) (s : State) : Host.Outcome State Fault Refusal := .next (issue1 w g (rdsrSlot w rd idx) s)

def execWrsr (w g rs idx : Nat) (s : State) : Host.Outcome State Fault Refusal := .next (issue1 w g (wrsrSlot w rs idx) s)

end Sys2Proof.Machine
end

