-- ==== Sys2Proof/Machine/MemSlots.lean ====
section
/-! DEFINITION. Instructions that access memory: loads, stores, atomics, fences, and the transfers of vector registers and tiles (R52 to R63, R86 to R88, R92, R123). -/

namespace Sys2Proof.Machine

/-! ### Admission (R52, R55, R207) -/

/-- Whether a right changes memory. -/
def Right.writes : Right → Bool
  | .r => false
  | .w => true
  | .a => true

/-- Why an access of a runner or its data mover is refused: the code and the address (R55, R207). An atomic counts as a write (assumption 29). -/
def accessFault (s : State) (right : Right) (rs : List (Nat × Nat)) : Option (Nat × Nat) :=
  match rs.find? (fun p => !permits s none right p.1 p.2) with
  | some p => some (0x0111, p.1)
  | none =>
    if right.writes then (rs.find? (fun p => lapCode s true p.1 p.2 != 0)).map (fun p => (lapCode s true p.1 p.2, p.1)) else none

/-- A refusal of a runner's access to unmapped addresses comes before any other ground for refusing it (R45); `rest` is that other ground (assumption 101). -/
def unlessUnmapped (s : State) (rs : List (Nat × Nat)) (rest : Option (Nat × Nat)) : Option (Nat × Nat) :=
  match rs.find? (fun p => p.2 != 0 && !mapped s p.1 p.2) with
  | some p => some (0x0111, p.1)
  | none => rest

/-- The windows that admit a runner's access. -/
def windowsOf (s : State) (right : Right) (rs : List (Nat × Nat)) : List Nat := rs.flatMap (fun p => admitting s none right p.1 p.2)

/-- An access is issued: its number, and what was read and decided at issue (`old`). -/
def addAccess (w : Nat) (kind : AccKind) (right : Right) (chunks : List (Nat × Nat)) (c : Option Counted) (old s : State) : State :=
  { s with
    nextId := s.nextId + 1
    accesses := s.accesses ++ [⟨s.nextId, w, (runnerAt old w).pc, kind, chunks, windowsOf old right chunks,
      if right.writes then lapSeen old else .unseen, c, right.writes⟩] }

/-- An access by address waits for the registers of its own core that it touches (R73, R123, R140). -/
def holdOwn (w : Nat) (rs : State → List (Nat × Nat)) (s : State) : Option Wait :=
  let l := (ownRegs (coreOf w) (rs s)).filter (busy s w)
  if l.isEmpty then none else some (.source l)

/-! ### Scalar loads and stores (R86) -/

/-- The address of form SM. -/
def smAddr (s : State) (w base : Nat) (postInc : Bool) (off : BitVec 17) : Nat :=
  (if postInc then aReg s w base else aReg s w base + off.signExtend 64).toNat

/-- The base register of form SM after the access. -/
def smStep (w base : Nat) (postInc : Bool) (off : BitVec 17) (old s : State) : State :=
  if postInc then setA w base (aReg old w base + off.signExtend 64) s else s

/-- A scalar load of `n` bytes. -/
def loadSlot (w n : Nat) (signed : Bool) (rd base : Nat) (postInc : Bool) (off : BitVec 17) : Option Slot :=
  let rs (s : State) := [(smAddr s w base postInc off, n)]
  legal (rd < 64 && base < 16)
    { srcs := [.a base], dsts := .s rd :: (if postInc then [.a base] else []), holds := holdOwn w rs,
      fault := fun s => unlessUnmapped s (rs s) (if smAddr s w base postInc off % n ≠ 0 then some (0x0114, smAddr s w base postInc off) else accessFault s .r (rs s)),
      act := fun old s => smStep w base postInc off old (addAccess w (.load rd n signed) .r (rs old) none old s) }

/-- A scalar store of `n` bytes. -/
def storeSlot (w n src base : Nat) (postInc : Bool) (off : BitVec 17) : Option Slot :=
  let rs (s : State) := [(smAddr s w base postInc off, n)]
  legal (src < 64 && base < 16)
    { srcs := [.s src, .a base], dsts := if postInc then [.a base] else [], holds := holdOwn w rs,
      fault := fun s => unlessUnmapped s (rs s) (if smAddr s w base postInc off % n ≠ 0 then some (0x0114, smAddr s w base postInc off) else accessFault s .w (rs s)),
      act := fun old s => smStep w base postInc off old (addAccess w (.store (bytesLE n (sReg old w src).toNat)) .w (rs old) none old s) }

/-! ### Atomics (R61 to R63, R87) -/

/-- The address of form SA. -/
def saAddr (s : State) (w base : Nat) (off : BitVec 12) : Nat := (aReg s w base + off.signExtend 64).toNat

/-- Whether an atomic may act at an address: a folio, a well or LPDDR6 (R62). -/
def atomicPlace (s : State) (a : Nat) : Bool :=
  match placeOf s a with
  | .lpddr .. => true
  | .well .. => true
  | .folio .. => true
  | .tiles .. => false
  | .host _ => false
  | .unmapped => true

/-- An atomic of `n` bytes. -/
def atomicSlot (w : Nat) (op : AtomOp) (n rd base rs : Nat) (off : BitVec 12) : Option Slot :=
  let r (s : State) := [(saAddr s w base off, n)]
  legal (rd < 64 && base < 16 && rs < 64)
    { srcs := [.a base, .s rs] ++ (if op = .cas then [.s rd] else []), dsts := [.s rd], holds := holdOwn w r,
      fault := fun s =>
        let a := saAddr s w base off
        unlessUnmapped s (r s) (if a % n ≠ 0 then some (0x0112, a) else if !atomicPlace s a then some (0x0113, a) else accessFault s .a (r s)),
      act := fun old s => addAccess w (.atomic op n (sReg old w rs) (sReg old w rd) rd) .a (r old) none old s }

/-- The value an atomic stores, from the old value, of `n` bytes (Table 2.7, R63). -/
def atomicVal (op : AtomOp) (n : Nat) (old x cmp : Nat) : Nat :=
  let w := 8 * n
  let x := x % 2 ^ w
  match op with
  | .add => (old + x) % 2 ^ w
  | .min => if sint w x < sint w old then x else old
  | .minu => Nat.min x old
  | .max => if sint w old < sint w x then x else old
  | .maxu => Nat.max x old
  | .swap => x
  | .cas => if old = cmp % 2 ^ w then x else old
  | .fadd => rne32 ((f32 old).add (f32 x))

/-- The old value as an atomic returns it (R87). -/
def atomicOld (op : AtomOp) (n old : Nat) : Word :=
  let signed := n = 4 ∧ (op = .add ∨ op = .min ∨ op = .max)
  if signed then BitVec.ofInt 64 (sint 32 old) else BitVec.ofNat 64 old

/-! ### Fences (R59, R60, R88) -/

/-- The device addresses inside a fence scope of a runner (Table 2.6), as spans. -/
def scopeSpans (w scope : Nat) : List (Nat × Nat) :=
  let k := coreOf w
  let d := dieOfRunner w
  let c := k / 8 * 8
  match scope with
  | 0 => [(folioAddr k, 0x20_0000), (tileBlock k, 0x4_0000)]
  | 1 => [(0x1000_0000_0000 + d * 0x800_0000 + k % 64 / 8 * 0x100_0000, 0x100_0000), (folioAddr c, 8 * 0x20_0000), (tileBlock c, 8 * 0x4_0000)]
  | 2 => dieSpans d
  | 3 => [(0, hostBase)]
  | _ => [(0, 2 ^ 64)]

/-- Whether any byte of ranges lies in a scope. -/
def rangesInScope (w scope : Nat) (rs : List (Nat × Nat)) : Bool := meet rs (scopeSpans w scope)

/-- What a fence of a scope and pairs waits for: the runner's accesses and array operations of a predecessor kind in scope (R59), and every transfer it issued earlier (R60). Pairs bits are
RR, RW, WR, WW. -/
def fenceIds (s : State) (w scope pairs : Nat) : List Nat :=
  let c := coreAt s (coreOf w)
  let rd := pairs % 4 != 0
  let wr := decide (4 ≤ pairs)
  let hit (r x : Bool) (l : List (Nat × Nat)) : Bool := ((r && rd) || (x && wr)) && rangesInScope w scope l
  ((s.accesses.filter (fun a => a.runner == w && (match a.kind with
      | .load .. => hit true false a.chunks
      | .copyIn _ => hit true false a.chunks
      | .store _ => hit false true a.chunks
      | .atomic .. => hit true true a.chunks))).map (·.id)) ++
  ((c.mover.filter (·.runner == w)).map (·.id)) ++
  ((c.array.filter (fun o => o.runner == w && (match o.kind with
      | .mmac .. => hit true false o.kind.ranges
      | .drain .. => hit false true o.kind.ranges
      | .setp _ => false
      | .scale .. => false
      | .zero _ => false))).map (·.id))

/-- A runner that has issued waits, unless what it would wait for is over or it is no longer Ready. -/
def waitOn (w : Nat) (h : Wait) (s : State) : State :=
  if (runnerAt s w).state = .ready ∧ waitHolds s w h then modRunner w (fun r => { r with state := .waiting, wait := some h }) s else s

/-- FENCE: the runner then waits for what its scope and pairs name. -/
def fenceSlot (w scope pairs : Nat) : Option Slot :=
  legal (scope < 5 && pairs != 0 && pairs < 16)
    { late := fun old s => waitOn w (.fence (fenceIds old w scope pairs)) s }

/-! ### Vector registers and tiles (R92, R123) -/

/-- The stride a register holds: 0 means 128. -/
def strideOf (s : State) (w r : Nat) : Word := if sReg s w r = 0 then 128 else sReg s w r

/-- The 32 rows of a vector transfer. -/
def vecRows (s : State) (w a r : Nat) : List (Nat × Nat) :=
  (List.range 32).map (fun i => ((aReg s w a + BitVec.ofNat 64 i * strideOf s w r).toNat, 128))

/-- The misalignment of a vector transfer. -/
def vecBad (s : State) (w a r : Nat) : Bool := (aReg s w a).toNat % 128 != 0 || (strideOf s w r).toNat % 128 != 0

/-- The base after a vector transfer. -/
def vecStep (w a r : Nat) (postInc : Bool) (old s : State) : State :=
  if postInc then setA w a (aReg old w a + 32 * strideOf old w r) s else s

/-- VLD. -/
def vldSlot (w vd a r : Nat) (postInc : Bool) : Option Slot :=
  legal (vd < 32 && a < 16 && r < 64)
    { srcs := [.a a, .s r], dsts := .v vd :: (if postInc then [.a a] else []), holds := holdOwn w (fun s => vecRows s w a r),
      fault := fun s => unlessUnmapped s (vecRows s w a r) (if vecBad s w a r then some (0x0114, (aReg s w a).toNat) else accessFault s .r (vecRows s w a r)),
      act := fun old s => vecStep w a r postInc old (addAccess w (.copyIn (vregAddr (coreOf w) vd)) .r (vecRows old w a r) none old s) }

/-- VST. -/
def vstSlot (w vs a r : Nat) (postInc census : Bool) : Option Slot :=
  legal (vs < 32 && a < 16 && r < 64)
    { srcs := [.v vs, .a a, .s r], dsts := if postInc then [.a a] else [], holds := holdOwn w (fun s => vecRows s w a r),
      fault := fun s => unlessUnmapped s (vecRows s w a r) (if vecBad s w a r then some (0x0114, (aReg s w a).toNat) else accessFault s .w (vecRows s w a r)),
      act := fun old s => vecStep w a r postInc old (addAccess w (.store (Mem.read old.mem (vregAddr (coreOf w) vs) 4096)) .w (vecRows old w a r)
        (counted old w census (slotType old)) old s) }

/-- The one range of a tile transfer. -/
def tileRange (s : State) (w a : Nat) : List (Nat × Nat) := [((aReg s w a).toNat, 65536)]

/-- The misalignment of a tile transfer, or why it is refused. -/
def tileFault (s : State) (w a : Nat) (right : Right) : Option (Nat × Nat) :=
  unlessUnmapped s (tileRange s w a) (if (aReg s w a).toNat % 128 ≠ 0 then some (0x0114, (aReg s w a).toNat) else accessFault s right (tileRange s w a))

/-- TLD. -/
def tldSlot (w a tile : Nat) : Option Slot :=
  legal (a < 16 && tile < 2)
    { srcs := [.a a], dsts := [.t tile], holds := holdOwn w (fun s => tileRange s w a), fault := fun s => tileFault s w a .r,
      act := fun old s => addAccess w (.copyIn (tileAddr (coreOf w) tile)) .r (tileRange old w a) none old s }

/-- A tile's control state; class float, scales 1.0, nothing pending where it is as after a reset (Table 4.6). -/
def tileCtl (s : State) (k t : Nat) : TileCtl := (coreAt s k).tiles.get t ⟨false, 0, [], [], 0x3F800000, 0x3F800000⟩

/-- The element type of a tile's words. -/
def tileType (s : State) (k t : Nat) : Nat := if (tileCtl s k t).integer then 9 else 0

/-- TST. -/
def tstSlot (w a tile : Nat) (census : Bool) : Option Slot :=
  legal (a < 16 && tile < 2)
    { srcs := [.a a, .t tile], holds := holdOwn w (fun s => tileRange s w a), fault := fun s => tileFault s w a .w,
      act := fun old s => addAccess w (.store (Mem.read old.mem (tileAddr (coreOf w) tile) 65536)) .w (tileRange old w a)
        (counted old w census (fun _ => tileType old (coreOf w) tile)) old s }

/-! ### The commands -/

def execLd8 (w g rd base : Nat) (postInc : Bool) (off : BitVec 17) (s : State) : Host.Outcome State Fault Refusal := .next (issue1 w g (loadSlot w 1 true rd base postInc off) s)

def execLd8u (w g rd base : Nat) (postInc : Bool) (off : BitVec 17) (s : State) : Host.Outcome State Fault Refusal := .next (issue1 w g (loadSlot w 1 false rd base postInc off) s)

def execLd16 (w g rd base : Nat) (postInc : Bool) (off : BitVec 17) (s : State) : Host.Outcome State Fault Refusal := .next (issue1 w g (loadSlot w 2 true rd base postInc off) s)

def execLd16u (w g rd base : Nat) (postInc : Bool) (off : BitVec 17) (s : State) : Host.Outcome State Fault Refusal := .next (issue1 w g (loadSlot w 2 false rd base postInc off) s)

def execLd32 (w g rd base : Nat) (postInc : Bool) (off : BitVec 17) (s : State) : Host.Outcome State Fault Refusal := .next (issue1 w g (loadSlot w 4 true rd base postInc off) s)

def execLd32u (w g rd base : Nat) (postInc : Bool) (off : BitVec 17) (s : State) : Host.Outcome State Fault Refusal := .next (issue1 w g (loadSlot w 4 false rd base postInc off) s)

def execLd64 (w g rd base : Nat) (postInc : Bool) (off : BitVec 17) (s : State) : Host.Outcome State Fault Refusal := .next (issue1 w g (loadSlot w 8 true rd base postInc off) s)

def execSt8 (w g rs base : Nat) (postInc : Bool) (off : BitVec 17) (s : State) : Host.Outcome State Fault Refusal := .next (issue1 w g (storeSlot w 1 rs base postInc off) s)

def execSt16 (w g rs base : Nat) (postInc : Bool) (off : BitVec 17) (s : State) : Host.Outcome State Fault Refusal := .next (issue1 w g (storeSlot w 2 rs base postInc off) s)

def execSt32 (w g rs base : Nat) (postInc : Bool) (off : BitVec 17) (s : State) : Host.Outcome State Fault Refusal := .next (issue1 w g (storeSlot w 4 rs base postInc off) s)

def execSt64 (w g rs base : Nat) (postInc : Bool) (off : BitVec 17) (s : State) : Host.Outcome State Fault Refusal := .next (issue1 w g (storeSlot w 8 rs base postInc off) s)

def execAadd32 (w g rd base rs : Nat) (off : BitVec 12) (s : State) : Host.Outcome State Fault Refusal := .next (issue1 w g (atomicSlot w .add 4 rd base rs off) s)

def execAadd64 (w g rd base rs : Nat) (off : BitVec 12) (s : State) : Host.Outcome State Fault Refusal := .next (issue1 w g (atomicSlot w .add 8 rd base rs off) s)

def execAmin32 (w g rd base rs : Nat) (off : BitVec 12) (s : State) : Host.Outcome State Fault Refusal := .next (issue1 w g (atomicSlot w .min 4 rd base rs off) s)

def execAmin64 (w g rd base rs : Nat) (off : BitVec 12) (s : State) : Host.Outcome State Fault Refusal := .next (issue1 w g (atomicSlot w .min 8 rd base rs off) s)

def execAminu32 (w g rd base rs : Nat) (off : BitVec 12) (s : State) : Host.Outcome State Fault Refusal := .next (issue1 w g (atomicSlot w .minu 4 rd base rs off) s)

def execAminu64 (w g rd base rs : Nat) (off : BitVec 12) (s : State) : Host.Outcome State Fault Refusal := .next (issue1 w g (atomicSlot w .minu 8 rd base rs off) s)

def execAmax32 (w g rd base rs : Nat) (off : BitVec 12) (s : State) : Host.Outcome State Fault Refusal := .next (issue1 w g (atomicSlot w .max 4 rd base rs off) s)

def execAmax64 (w g rd base rs : Nat) (off : BitVec 12) (s : State) : Host.Outcome State Fault Refusal := .next (issue1 w g (atomicSlot w .max 8 rd base rs off) s)

def execAmaxu32 (w g rd base rs : Nat) (off : BitVec 12) (s : State) : Host.Outcome State Fault Refusal := .next (issue1 w g (atomicSlot w .maxu 4 rd base rs off) s)

def execAmaxu64 (w g rd base rs : Nat) (off : BitVec 12) (s : State) : Host.Outcome State Fault Refusal := .next (issue1 w g (atomicSlot w .maxu 8 rd base rs off) s)

def execAswap32 (w g rd base rs : Nat) (off : BitVec 12) (s : State) : Host.Outcome State Fault Refusal := .next (issue1 w g (atomicSlot w .swap 4 rd base rs off) s)

def execAswap64 (w g rd base rs : Nat) (off : BitVec 12) (s : State) : Host.Outcome State Fault Refusal := .next (issue1 w g (atomicSlot w .swap 8 rd base rs off) s)

def execAcas32 (w g rd base rs : Nat) (off : BitVec 12) (s : State) : Host.Outcome State Fault Refusal := .next (issue1 w g (atomicSlot w .cas 4 rd base rs off) s)

def execAcas64 (w g rd base rs : Nat) (off : BitVec 12) (s : State) : Host.Outcome State Fault Refusal := .next (issue1 w g (atomicSlot w .cas 8 rd base rs off) s)

def execAfadd32 (w g rd base rs : Nat) (off : BitVec 12) (s : State) : Host.Outcome State Fault Refusal := .next (issue1 w g (atomicSlot w .fadd 4 rd base rs off) s)

def execFence (w g scope pairs : Nat) (s : State) : Host.Outcome State Fault Refusal := .next (issue1 w g (fenceSlot w scope pairs) s)

def execVld (w g vd a stride : Nat) (postInc : Bool) (s : State) : Host.Outcome State Fault Refusal := .next (issue1 w g (vldSlot w vd a stride postInc) s)

def execVst (w g vs a stride : Nat) (postInc census : Bool) (s : State) : Host.Outcome State Fault Refusal := .next (issue1 w g (vstSlot w vs a stride postInc census) s)

def execTld (w g a tile : Nat) (s : State) : Host.Outcome State Fault Refusal := .next (issue1 w g (tldSlot w a tile) s)

def execTst (w g a tile : Nat) (census : Bool) (s : State) : Host.Outcome State Fault Refusal := .next (issue1 w g (tstSlot w a tile census) s)

end Sys2Proof.Machine
end

