-- ==== Sys2Proof/Machine/Routes.lean ====
section
/-! DEFINITION. The paths of messages between dies, and which accesses a die in reset turns away (R364, R388, R390). Dies 0 to 15 are compute dies, 16 to 19
edge dies. -/

namespace Sys2Proof.Machine

/-- The numbers from `a` to `b` in order, either way. -/
def span (a b : Nat) : List Nat :=
  if a ≤ b then (List.range (b - a + 1)).map (a + ·) else (List.range (a - b + 1)).map (a - ·)

/-- The compute dies from one to another: along the row, then along the column, each once (R364). -/
def gridPath (x y : Nat) : List Nat :=
  (span (x % 4) (y % 4)).map (fun c => x / 4 * 4 + c) ++ ((span (x / 4) (y / 4)).drop 1).map (fun r => r * 4 + y % 4)

/-- The border die through which a compute die and an edge die reach each other (R364). -/
def borderOf (cd e : Nat) : Nat :=
  match e with
  | 0 => cd % 4
  | 1 => cd / 4 * 4 + 3
  | 2 => 12 + cd % 4
  | _ => cd / 4 * 4

/-- The compute dies between two edge dies, in order from the lower-numbered (Table 13.1). -/
def edgePathUp (a b : Nat) : List Nat :=
  match a, b with
  | 0, 1 => [3]
  | 1, 2 => [15]
  | 2, 3 => [12]
  | 0, 3 => [0]
  | 0, 2 => [1, 5, 9, 13]
  | 1, 3 => [7, 6, 5, 4]
  | _, _ => []

/-- The compute dies between two edge dies, in order. -/
def edgePath (a b : Nat) : List Nat := if a ≤ b then edgePathUp a b else (edgePathUp b a).reverse

/-- Every die on the path from one die to another, both ends included. -/
def pathDies (x y : Nat) : List Nat :=
  if x < 16 then
    if y < 16 then gridPath x y else gridPath x (borderOf x (y - 16)) ++ [y]
  else if y < 16 then x :: gridPath (borderOf y (x - 16)) y
  else x :: (edgePath (x - 16) (y - 16) ++ [y])

/-- Whether messages between two dies cannot pass (R388): the path, or the path back, crosses a die in reset, or one whose links are not all Active again after one. -/
def cutOff (s : State) (x y : Nat) : Bool :=
  (pathDies x y ++ pathDies y x).any (fun d => inReset s d || (x != y && s.sweyr.awaiting.contains d))

/-- Whether a core reset is in progress on a core (R446). -/
def coreResetting (s : State) (k : Nat) : Bool := s.power.resetCore == some k

/-- Whether an address lies in the folio or tiles of a core that is being reset (R446). -/
def inResetCore (s : State) (a : Nat) : Bool :=
  match placeOf s a with
  | .folio d k _ => coreResetting s (d * 64 + k)
  | .tiles d k _ => coreResetting s (d * 64 + k)
  | _ => false

/-- Whether a range meets the folio or tiles of the core that is being reset, if one is. -/
def meetsResetCore (s : State) (a n : Nat) : Bool :=
  s.power.resetCore.any (fun k => rangeMeets a n [(folioAddr k, 0x20_0000), (tileBlock k, 0x4_0000)])

/-- Whether an access from a die to an address has status TARGET_RESET (R388, R390, R446). -/
def targetReset (s : State) (die a : Nat) : Bool := (ownerOf s a).any (cutOff s die) || inResetCore s a

/-- Whether a die cannot reach some byte of a range. -/
def rangeCut (s : State) (die a n : Nat) : Bool :=
  (List.range 17).any (fun d => rangeMeets a n (dieSpans d) && cutOff s die d) || meetsResetCore s a n

/-- The first of some ranges that a die cannot reach whole. -/
def rangesReset (s : State) (die : Nat) (rs : List (Nat × Nat)) : Option Nat := (rs.find? (fun p => p.2 != 0 && rangeCut s die p.1 p.2)).map (·.1)

end Sys2Proof.Machine
end

