-- ==== Sys2Proof/Machine/Matrix.lean ====
section
/-! DEFINITION. The matrix array: its queue, K-steps, FP20 partials, promotion, and drains in band and out of band (R107 to R134). -/

namespace Sys2Proof.Machine

/-! ### Tiles -/

/-- A tile's control state changed. -/
def modTile (k t : Nat) (f : TileCtl → TileCtl) (s : State) : State :=
  modCore k (fun c => { c with tiles := c.tiles.set t (f (tileCtl s k t)) }) s

/-- The 16,384 words of a tile, row-major (R122). -/
def tileWords (s : State) (k t : Nat) : List Nat := (pieces 4 16384 (Mem.read s.mem (tileAddr k t) 65536)).map natLE

/-- A tile's words written. -/
def setTile (k t : Nat) (ws : List Nat) (s : State) : State := store (tileAddr k t) (ws.flatMap (bytesLE 4)) s

/-- Partials, zero where the list is empty. -/
def partials {w : Nat} (l : List (BitVec w)) : List (BitVec w) := if l.isEmpty then List.replicate 16384 0 else l

/-- A float tile element with sA × sB × x added and rounded once (R113, R118). -/
def scaledAdd (c : TileCtl) (t : Nat) (x : Val) : Nat :=
  rne32 ((f32 t).add (((f32 c.sa.toNat).mul (f32 c.sb.toNat)).mul x))

/-- Promotion of a tile whose pending count is not 0 (R118), in one step (DESIGN CHOICE, assumption 110). -/
def promote (k t : Nat) (s : State) : State :=
  let c := tileCtl s k t
  if c.pending = 0 then s
  else
    let ws := tileWords s k t
    let new := if c.integer then List.zipWith (fun x p => (x + p.toNat) % 2 ^ 32) ws (partials c.ip)
      else List.zipWith (fun x p => scaledAdd c x (fp20Val p)) ws (partials c.fp)
    modTile k t (fun c => { c with pending := 0, fp := [], ip := [] }) (setTile k t new s)

/-- K-steps between promotions (Table 4.5). -/
def interval (s : State) (k : Nat) : Nat := 8 * 2 ^ (coreAt s k).interval

/-! ### K-steps (R107 to R116) -/

/-- Elements of `w` bits packed little-endian, `n` of them. -/
def packedElems (w n : Nat) (bs : List Byte) : List Nat :=
  let v := natLE bs
  (List.range n).map (fun i => bits v (w * i) w)

/-- The 128 vectors of a record with their E8M0 scales (R109). -/
def recordAt (s : State) (a ty : Nat) : List (List Nat × Nat) :=
  let w := typeBits ty
  let data := pieces (4 * w) 128 (Mem.read s.mem a (512 * w))
  let scales := if 3 ≤ ty ∧ ty ≤ 7 then (Mem.read s.mem (a + 512 * w) 128).map (·.toNat) else List.replicate 128 0x7F
  List.zipWith (fun b e => (packedElems w 32 b, e)) data scales

/-- The three-pass product of FP32 elements (R113). -/
def threePass (a b : Nat) : Val :=
  let x := f32 a
  let y := f32 b
  if !x.isFin || !y.isFin then x.mul y
  else
    let hi (n : Nat) : Val := f32 (n / 2 ^ 16 * 2 ^ 16)
    let lo (n : Nat) : Val := Fmt.bf16.decode (Fmt.bf16.encode .rne false ((f32 n).add (hi n).neg))
    (((hi a).mul (hi b)).add ((hi a).mul (lo b))).add ((lo a).mul (hi b))

/-- The exact sum of values. -/
def sumVals (l : List Val) : Val := l.foldl Val.add (.fin false 0 0)

/-- The block term of a cell (R111 to R113, Table 4.3). -/
def blockTerm (ta tb : Nat) (a b : List Nat × Nat) : Val :=
  let ps := List.zipWith (fun x y => if ta = 0 then threePass x y else (elemVal ta x).mul (elemVal tb y)) a.1 b.1
  ((sumVals ps).mul (e8m0 a.2)).mul (e8m0 b.2)

/-- The block term of INT8 vectors (R114). -/
def intTerm (a b : List Nat × Nat) : Int := (List.zipWith (fun x y => sint 8 x * sint 8 y) a.1 b.1).foldl (· + ·) 0

/-- A term with zero taken as +0 (R113). -/
def plusZero (x : Val) : Val := if x.isZero then .fin false 0 0 else x

/-- One K-step of an MMAC on a tile (R111 to R118). -/
def kstepTile (k tile ta tb a b : Nat) (s : State) : State :=
  let ra := recordAt s a ta
  let rb := recordAt s b tb
  let cells {α : Type} (f : List Nat × Nat → List Nat × Nat → α) : List α := ra.flatMap (fun x => rb.map (fun y => f x y))
  if ta = 0 then
    let c := tileCtl s k tile
    setTile k tile (List.zipWith (fun t x => scaledAdd c t (plusZero x)) (tileWords s k tile) (cells (blockTerm ta tb))) s
  else
    let s := modTile k tile (fun c =>
      if c.integer then
        { c with pending := c.pending + 1, ip := List.zipWith (fun p x => p + BitVec.ofInt 32 x) (partials c.ip) (cells intTerm) }
      else
        { c with pending := c.pending + 1, fp := List.zipWith fp20Add (partials c.fp) (cells (blockTerm ta tb)) }) s
    if (tileCtl s k tile).pending = interval s k then promote k tile s else s

/-! ### Drains (R126 to R131) -/

/-- Whether a drain may convert to a type (Table 4.7). -/
def drainType (ty : Nat) : Bool := decide (ty ≤ 7) || ty == 9 || ty == 11

/-- Whether a drain's range lies in one folio, one well or one core's vector registers (R127). -/
def drainPlace (s : State) (a n : Nat) : Bool :=
  match placeOf s a with
  | .folio _ _ o => decide (o + n ≤ 0x20_0000)
  | .well _ _ o => decide (o + n ≤ 0x100_0000)
  | .tiles _ _ o => decide (0x2_0000 ≤ o ∧ o + n ≤ 0x4_0000)
  | .lpddr .. => false
  | .host _ => false
  | .unmapped => false

/-- A converted element: its code, whether it makes a non-finite report and whether a tally clamped, and its census bin (R128, R130, R131). -/
structure Drained where
  code : Nat
  bad : Bool
  clamped : Bool
  bin : Nat

/-- The bin of a non-finite value. -/
def classBin : Val → Nat
  | .inf neg => if neg then 67 else 66
  | .nan => 68
  | .fin .. => 0

/-- A value converted to a destination type (Table 4.7). -/
def drainTo (ty : Nat) (mode : Rnd) (v : Val) : Drained :=
  match fmtOf ty with
  | some f =>
    let c := f.encode mode false v
    let held := match v with
      | .nan => f.nan.isSome
      | .inf _ => f.inf.isSome
      | .fin .. => true
    ⟨c, !v.isFin || !(f.decode c).isFin, false, if held then binOf ty c else classBin v⟩
  | none =>
    let (i, cl) := if ty = 11 then toInteger mode (-tallyTop) tallyTop v else toInteger mode (-(2 ^ 31)) (2 ^ 31 - 1) v
    ⟨wrap 32 i, !v.isFin, ty == 11 && cl, if v.isFin then binOf ty (wrap 32 i) else classBin v⟩

/-- A tile element converted (R126, R128): an integer tile to INT32 is copied. -/
def drainElem (integer : Bool) (c : Option (BitVec 32)) (ty rnd t u : Nat) : Drained :=
  if integer ∧ ty = 9 then ⟨t, false, false, binOf 9 t⟩
  else drainTo ty (Rnd.of rnd u) ((if integer then .ofInt (sint 32 t) else f32 t).mul (f32 (c.getD 0x3F800000).toNat))

/-- Codes packed little-endian at the width of a type (R127). -/
def packCodes (ty : Nat) (l : List Nat) : List Byte :=
  match typeBits ty with
  | 4 => (pieces 2 (l.length / 2) l).map (fun p => BitVec.ofNat 8 (p.headD 0 + p.getLastD 0 * 16))
  | 6 => (pieces 4 (l.length / 4) l).flatMap (fun p => bytesLE 3 (p.foldr (fun x a => x + a * 64) 0))
  | w => l.flatMap (bytesLE (w / 8))

/-- Draws in element order: element e takes from lane e mod 256 (R129). -/
def drawOrder (l : List (List Nat)) (n : Nat) : List (BitVec 32) :=
  (List.range n).flatMap (fun j => l.map (fun x => BitVec.ofNat 32 (x.getD j 0)))

/-- Whether a range lies in the wet copy of a lap-scoped region or in a watched region (Table 7.6). -/
def inWet (s : State) (a n : Nat) : Bool := (copiesAt s a n).any (fun p => regionKind s p.1 == 7 || p.2 != dryCopy s p.1)

/-- A drain converts and writes its tile in one step (assumption 110), and makes its reports and counts. `e` names its source. -/
def drainTile (k : Nat) (o : ArrOp) (e : Err) (s : State) : State :=
  match o.kind with
  | .drain dest c ty rnd tile draws cnt =>
    let s := promote k tile s
    let us := if draws.isEmpty then List.replicate 16384 0 else draws.map (·.toNat)
    let l := List.zipWith (fun t u => drainElem (tileCtl s k tile).integer c ty rnd t u) (tileWords s k tile) us
    let s := testWrite o.seen none e dest (drainBytes ty) (store dest (packCodes ty (l.map (·.code))) s)
    let at' (p : Drained → Bool) : Option Nat := (List.range 16384 |>.zip l).find? (fun x => p x.2) |>.map (fun x => dest + x.1 * typeBits ty / 8)
    let s := if inWet s dest (drainBytes ty) then (at' (·.bad)).elim s (fun a => reportAll 0 { e with addr := a } s) else s
    let s := (at' (fun x => x.clamped || (ty == 11 && x.bad))).elim s (fun a => reportAll 1 { e with addr := a } s)
    let s := if l.any (·.clamped) then markSaturated s else s
    match cnt with
    | some q => countStore (k / 64) q.slot q.lap (l.map (·.bin)) s
    | none => s
  | .mmac .. => s
  | .setp _ => s
  | .scale .. => s
  | .zero _ => s

/-! ### The queue (R125) -/

/-- The front operation is taken off the queue. -/
def arrayPop (k : Nat) (s : State) : State := modCore k (fun c => { c with array := c.array.drop 1 }) s

/-- The tiles an operation names. -/
def opTiles (o : ArrOp) : List Nat := (List.range 2).filter o.kind.names

/-- Whether an operation waits for an earlier access of its core's runners to its tile, or to what it reads or writes (R58, R123), or for the core's out-of-band drain (R133). -/
def arrBlocked (s : State) (k : Nat) (o : ArrOp) : Bool :=
  (coreAt s k).odrain.isSome || rangeBusy s k (some o.id) (((opTiles o).map (fun t => (tileAddr k t, 65536))) ++ o.kind.ranges)

/-- The tiles that an operation other than a K-step or a drain reads: those that it promotes. -/
def promotes (s : State) (k : Nat) (o : ArrOp) : List (Nat × Nat) :=
  let due (t : Nat) : List (Nat × Nat) := if (tileCtl s k t).pending = 0 then [] else [(tileAddr k t, 65536)]
  match o.kind with
  | .setp _ => due 0 ++ due 1
  | .scale _ _ t => due t
  | .zero _ => []
  | .mmac .. => []
  | .drain .. => []

/-- MSETP, MSCALE and MZERO at the head of the queue are performed, to the depth given (R117 to R120). -/
def arraySettle : Nat → Nat → State → State
  | 0, _, s => s
  | n + 1, k, s =>
    match (coreAt s k).array with
    | [] => s
    | o :: _ =>
      if arrBlocked s k o then s
      else
        let s := probe (promotes s k o) [] s
        if inReset s (k / 64) then s
        else
        match o.kind with
        | .setp i => arraySettle n k (arrayPop k (modCore k (fun c => { c with interval := i }) (promote k 1 (promote k 0 s))))
        | .scale a b t => arraySettle n k (arrayPop k (modTile k t (fun c => { c with sa := a, sb := b }) (promote k t s)))
        | .zero t => arraySettle n k (arrayPop k (modTile k t (fun c => { c with pending := 0, fp := [], ip := [] })
            (setTile k t (List.replicate 16384 0) s)))
        | .mmac .. => s
        | .drain .. => s

/-- What follows the retirement of an operation: the next is settled, windows, runners and waits are looked at again. -/
def arrayRetired (k w : Nat) (s : State) : State := wakeAll (runnerFreed w (arraySettle 5 k s))

/-- One K-step of the MMAC at the head of the queue (R111, R117, R121). -/
def kstep (k : Nat) (s : State) : State :=
  match (coreAt s k).array with
  | [] => s
  | o :: rest =>
    match o.kind with
    | .mmac a b n ta tb tile clear =>
      if arrBlocked s k o then s
      else
        let s := probe [(a + o.done * recordSize ta, recordSize ta), (b + o.done * recordSize tb, recordSize tb), (tileAddr k tile, 65536)] [] s
        if inReset s (k / 64) then s
        else
        let s := if o.done = 0 then
            modTile k tile (fun c =>
              let c := { c with integer := ta == 8 }
              if clear then { c with pending := 0, fp := [], ip := [] } else c) s
          else s
        let s := kstepTile k tile ta tb (a + o.done * recordSize ta) (b + o.done * recordSize tb) s
        if o.done + 1 = n then arrayRetired k o.runner (arrayPop k s)
        else modCore k (fun c => { c with array := { o with done := o.done + 1 } :: rest }) s
    | .setp _ => s
    | .scale .. => s
    | .drain .. => s
    | .zero _ => s

/-- The source of an array operation's reports. -/
def opErr (o : ArrOp) : Err := { code := 0, die := dieOfRunner o.runner, mkind := 1, midx := o.runner }

/-- The drain at the head of the queue is performed (R132). A destination whose die is in reset freezes the runner (R390). -/
def drainExecute (k : Nat) (s : State) : State :=
  match (coreAt s k).array with
  | [] => s
  | o :: _ =>
    match o.kind with
    | .drain dest _ ty _ tile _ _ =>
      if arrBlocked s k o then s
      else
        let s := probe [(tileAddr k tile, 65536)] [(dest, drainBytes ty)] s
        if inReset s (k / 64) then s
        else
        let s :=
          if targetReset s (k / 64) dest then freezeAt o.runner o.pc 0x0908 dest (promote k tile s)
          else drainTile k o (opErr o) s
        arrayRetired k o.runner (arrayPop k s)
    | .mmac .. => s
    | .setp _ => s
    | .scale .. => s
    | .zero _ => s

/-! ### Slots -/

/-- An array operation is queued; `at` is the state at issue. -/
def addArr (w : Nat) (kind : ArrKind) (right : Right) (old s : State) : State :=
  let k := coreOf w
  let o : ArrOp := ⟨s.nextId, w, (runnerAt old w).pc, kind, 0, windowsOf old right kind.ranges, lapSeen old⟩
  arraySettle 5 k (modCore k (fun c => { c with array := c.array ++ [o] }) { s with nextId := s.nextId + 1 })

/-- An array instruction waits while the queue is full. -/
def holdArray (w : Nat) (s : State) : Option Wait := if waitHolds s w .arrayFull then some .arrayFull else none

/-- Operand pairs of Table 4.1. -/
def pairOk (ta tb : Nat) : Bool :=
  let narrow (t : Nat) : Bool := decide (3 ≤ t ∧ t ≤ 7)
  (narrow ta && narrow tb) || (ta == tb && (decide (ta ≤ 2) || ta == 8))

/-- A tile's class and pending count as they will stand once the queue has run, from which R121 and R128 judge at issue. -/
def foreseen (s : State) (k t : Nat) : Bool × Nat :=
  let c := tileCtl s k t
  let r := (coreAt s k).array.foldl (fun (st : Bool × Nat × Nat) o =>
    let (cls, pend, p) := st
    if !o.kind.names t then st
    else
      match o.kind with
      | .mmac _ _ n ta _ _ clear =>
        let pend := if clear ∧ o.done = 0 then 0 else pend
        (ta == 8, if ta = 0 then pend else (pend + (n - o.done)) % p, p)
      | .setp i => (cls, 0, 8 * 2 ^ i)
      | .scale .. => (cls, 0, p)
      | .drain .. => (cls, 0, p)
      | .zero _ => (cls, 0, p)) (c.integer, c.pending, interval s k)
  (r.1, r.2.1)

/-- Whether a range lies in a core's own folio. -/
def inFolio (k a n : Nat) : Bool := decide (folioAddr k ≤ a ∧ a + n ≤ folioAddr k + 0x20_0000)

/-- Why an MMAC is refused (R110, R121): the first of several grounds in the order written here, and none for a count of 0 but its alignment (DESIGN CHOICE, assumptions 108 and 109). -/
def mmacFault (w aa ab kreg ta tb tile : Nat) (s : State) : Option (Nat × Nat) :=
  let k := coreOf w
  let n := (sReg s w kreg).toNat
  let a := (aReg s w aa).toNat
  let b := (aReg s w ab).toNat
  let rs := [(a, n * recordSize ta), (b, n * recordSize tb)]
  unlessUnmapped s rs <|
  if a % 128 ≠ 0 then some (0x0114, a)
  else if b % 128 ≠ 0 then some (0x0114, b)
  else if n = 0 then none
  else if !inFolio k a (n * recordSize ta) then some (0x0201, a)
  else if !inFolio k b (n * recordSize tb) then some (0x0201, b)
  else
    match accessFault s .r rs with
    | some f => some f
    | none => if (foreseen s k tile).2 ≠ 0 ∧ (foreseen s k tile).1 ≠ (ta == 8) then some (0x0203, 0) else none

/-- MMAC. A count of 0 completes at once (R107). -/
def mmacSlot (w aa ab kreg ta tb tile : Nat) (clear : Bool) : Option Slot :=
  legal (aa < 16 && ab < 16 && kreg < 64 && tile < 2 && pairOk ta tb)
    { srcs := [.a aa, .a ab, .s kreg], holds := holdArray w, fault := mmacFault w aa ab kreg ta tb tile,
      act := fun old s =>
        let n := (sReg old w kreg).toNat
        if n = 0 then s else addArr w (.mmac (aReg old w aa).toNat (aReg old w ab).toNat n ta tb tile clear) .r old s }

/-- MSETP. -/
def msetpSlot (w i : Nat) : Option Slot :=
  legal (i < 4) { holds := holdArray w, act := fun old s => addArr w (.setp i) .r old s }

/-- MSCALE. -/
def mscaleSlot (w sa sb tile : Nat) : Option Slot :=
  legal (sa < 64 && sb < 64 && tile < 2)
    { srcs := [.s sa, .s sb], holds := holdArray w,
      act := fun old s => addArr w (.scale (BitVec.ofNat 32 (lo32 (sReg old w sa))) (BitVec.ofNat 32 (lo32 (sReg old w sb))) tile) .r old s }

/-- Why an MDRAIN is refused (R127, R128): the first of several grounds in the order written here (DESIGN CHOICE, assumption 109). -/
def mdrainFault (w a ty tile : Nat) (s : State) : Option (Nat × Nat) :=
  let d := (aReg s w a).toNat
  if (foreseen s (coreOf w) tile).1 ∧ ty ≠ 0 ∧ ty ≠ 9 then some (0x0101, 0)
  else
    unlessUnmapped s [(d, drainBytes ty)] <|
    if d % 64 ≠ 0 then some (0x0114, d)
    else if !drainPlace s d (drainBytes ty) then some (0x0202, d)
    else accessFault s .w [(d, drainBytes ty)]

/-- MDRAIN: under stochastic rounding its draws are taken as it issues (R129). -/
def mdrainSlot (w a scale ty rnd tile : Nat) (census : Bool) : Option Slot :=
  legal (a < 16 && scale < 64 && tile < 2 && drainType ty && rnd < 3)
    { srcs := [.a a, .s scale],
      holds := fun s => (if rnd = 2 ∧ (coreAt s (coreOf w)).loading then some .genLoad else holdArray w s).or (holdOwn w (fun s => [((aReg s w a).toNat, drainBytes ty)]) s),
      fault := mdrainFault w a ty tile,
      act := fun old s =>
        let (l, s) := if rnd = 2 then drawLanes (coreOf w) 64 s else ([], s)
        addArr w (.drain (aReg old w a).toNat (if scale = 0 then none else some (BitVec.ofNat 32 (lo32 (sReg old w scale)))) ty rnd tile
          (if rnd = 2 then drawOrder l 64 else []) (counted old w census (fun _ => ty))) .w old s }

/-- MZERO. -/
def mzeroSlot (w tile : Nat) : Option Slot :=
  legal (tile < 2) { holds := holdArray w, act := fun old s => addArr w (.zero tile) .r old s }

/-- MWAIT holds its bundle until the array has retired what the runner issued (R132). -/
def mwaitSlot (w : Nat) : Option Slot :=
  some { holds := fun s =>
    let l := ((coreAt s (coreOf w)).array.filter (·.runner == w)).map (·.id)
    if l.isEmpty then none else some (.arrayOps l) }

/-! ### Out-of-band drains (R105, R133) -/

/-- Whether a core counts as halted (R105). -/
def coreHalted (s : State) (k : Nat) : Bool :=
  (runnersOf k).all (fun w => (runnerAt s w).state != .ready && (runnerAt s w).state != .waiting) && (coreAt s k).array.isEmpty

/-- The debug and drain errors of a core: logged, with runner 0 of the core as the master (DESIGN CHOICE, assumption 107). -/
def coreNote (k code : Nat) (s : State) : State :=
  raise { code := code, cont := contL, die := k / 64, mkind := 1, midx := k * 16 } s

/-- An out-of-band drain is asked for (Table 4.8), its register's fields having been written. -/
def odrainGo (k : Nat) (s : State) : State :=
  let r := Reg.cmpCoreOdrainCtl k
  let ty := getF s r F.cmpCoreOdrainCtl_type
  let rnd := getF s r F.cmpCoreOdrainCtl_rounding
  let tile := getF s r F.cmpCoreOdrainCtl_tile
  let dest := (regVal s (.cmpCoreOdrainAddr k)).toNat
  let bad := !drainType ty || rnd == 3 || dest % 64 != 0 || !drainPlace s dest (drainBytes ty) ||
    ((tileCtl s k tile).integer && ty != 0 && ty != 9)
  if !debugOpen s 1 then coreNote k 0x0107 s
  else if getF s r F.cmpCoreOdrainCtl_status = 1 then s
  else if !coreHalted s k then coreNote k 0x0204 (setF s r F.cmpCoreOdrainCtl_status 3)
  else if bad then coreNote k 0x0205 (setF s r F.cmpCoreOdrainCtl_status 4)
  else
    let (l, s) := if rnd = 2 then drawLanes k 64 s else ([], s)
    let o : ArrOp := ⟨s.nextId, k * 16, 0, .drain dest (some (BitVec.ofNat 32 (getF s r F.cmpCoreOdrainCtl_scale))) ty rnd tile
      (if rnd = 2 then drawOrder l 64 else []) none, 0, [], lapSeen s⟩
    setF (modCore k (fun c => { c with odrain := some o }) { s with nextId := s.nextId + 1 }) r F.cmpCoreOdrainCtl_status 1

/-- An out-of-band drain finishes; runners whose resume or step was held go on (R133). `resume` is what a held resume (or step, numbered from 16384) does. -/
def odrainDone (k : Nat) (resume : Nat → State → State) (s : State) : State :=
  match (coreAt s k).odrain with
  | none => s
  | some o =>
    let held := (coreAt s k).held
    let s := probe ((opTiles o).map (fun t => (tileAddr k t, 65536))) [] s
    if inReset s (k / 64) then s
    else
    let s := drainTile k o { code := 0, die := k / 64 } s
    let s := modCore k (fun c => { c with odrain := none, held := [] }) (setF s (.cmpCoreOdrainCtl k) F.cmpCoreOdrainCtl_status 2)
    wakeAll (arraySettle 5 k (each held resume s))

/-! ### The commands -/

def execMmac (w g aa ab kreg ta tb tile : Nat) (clear : Bool) (s : State) : Host.Outcome State Fault Refusal :=
  .next (issue1 w g (mmacSlot w aa ab kreg ta tb tile clear) s)

def execMsetp (w g interval : Nat) (s : State) : Host.Outcome State Fault Refusal := .next (issue1 w g (msetpSlot w interval) s)

def execMscale (w g sa sb tile : Nat) (s : State) : Host.Outcome State Fault Refusal := .next (issue1 w g (mscaleSlot w sa sb tile) s)

def execMdrain (w g a scale ty rnd tile : Nat) (census : Bool) (s : State) : Host.Outcome State Fault Refusal :=
  .next (issue1 w g (mdrainSlot w a scale ty rnd tile census) s)

def execMzero (w g tile : Nat) (s : State) : Host.Outcome State Fault Refusal := .next (issue1 w g (mzeroSlot w tile) s)

def execMwait (w g : Nat) (s : State) : Host.Outcome State Fault Refusal := .next (issue1 w g (mwaitSlot w) s)

def execKstep (k : Nat) (s : State) : Host.Outcome State Fault Refusal := .next (kstep k s)

def execDrainExecute (k : Nat) (s : State) : Host.Outcome State Fault Refusal := .next (drainExecute k s)

end Sys2Proof.Machine
end

