-- ==== Sys2Proof/Machine/Mover.lean ====
section
/-! DEFINITION. The data mover of a core: copies, strided copies and fills, their tags and waits (R93, R94). -/

namespace Sys2Proof.Machine

/-! ### Issue -/

/-- A transfer waits while the mover holds 32. -/
def holdMover (w : Nat) (s : State) : Option Wait := if waitHolds s w .moverFull then some .moverFull else none

/-- Why a transfer is refused: its source is read, its destination written (R52, R207). -/
def transferFault (s : State) (src dst : List (Nat × Nat)) : Option (Nat × Nat) := (accessFault s .r src).or (accessFault s .w dst)

/-- A transfer is queued and its tag written. One of length 0 completes at once. Its number per runner is kept whole; registers show it modulo 2^16. -/
def addTransfer (w tagOut src dst rows n : Nat) (sstr dstr : Int) (pat : Option Word) (c : Option Counted) (old s : State) : State :=
  let k := coreOf w
  let seq := (runnerAt s w).dmNext
  let s := setS w tagOut (BitVec.ofNat 64 (seq % 2 ^ 16)) (modRunner w (fun r => { r with dmNext := seq + 1 }) s)
  if rows * n = 0 then s
  else
    let t : Transfer := ⟨s.nextId, w, (runnerAt old w).pc, seq, src, dst, rows, n, sstr, dstr, pat, [], lapSeen old, c⟩
    let t := { t with wins := windowsOf old .r t.read ++ windowsOf old .w t.written }
    modCore k (fun c => { c with mover := c.mover ++ [t] }) { s with nextId := s.nextId + 1 }

/-- DMCOPY. -/
def dmcopySlot (w a asrc len tag : Nat) (census : Bool) : Option Slot :=
  let dst (s : State) := [((aReg s w a).toNat, (sReg s w len).toNat)]
  let src (s : State) := [((aReg s w asrc).toNat, (sReg s w len).toNat)]
  legal (a < 16 && asrc < 16 && len < 64 && tag < 64)
    { srcs := [.a a, .a asrc, .s len], dsts := [.s tag],
      holds := fun s => (holdMover w s).or (holdOwn w (fun s => src s ++ dst s) s),
      fault := fun s => transferFault s (src s) (dst s),
      act := fun old s => addTransfer w tag (aReg old w asrc).toNat (aReg old w a).toNat 1 (sReg old w len).toNat 0 0 none
        (counted old w census (slotType old)) old s }

/-- The fields of a DM2D transfer record: source, destination, rows, row bytes, source stride, destination stride. -/
def recordOf (s : State) (a : Nat) : Nat × Nat × Nat × Nat × Int × Int :=
  let b := Mem.read s.mem a 32
  (field b 0 8, field b 8 8, field b 16 4, field b 20 4, sint 32 (field b 24 4), sint 32 (field b 28 4))

/-- The ranges a record reads and writes. -/
def recordRanges (s : State) (a : Nat) : List (Nat × Nat) × List (Nat × Nat) :=
  let (src, dst, rows, n, ss, ds) := recordOf s a
  if n = 0 then ([], []) else (rowsAt src rows n ss, rowsAt dst rows n ds)

/-- What a runner has in flight to a range, accesses, transfers and stores of its drains: a record is read after them (R58). -/
def earlierTo (s : State) (w a n : Nat) : List Nat :=
  let c := coreAt s (coreOf w)
  (s.accesses.filter (fun x => x.runner == w && meet x.ranges [(a, n)])).map (·.id) ++
  (c.mover.filter (fun t => t.runner == w && meet t.written [(a, n)])).map (·.id) ++
  (c.array.filter (fun o => o.runner == w && meet o.kind.ranges [(a, n)])).map (·.id)

/-- Why a DM2D is refused: its record's load first, then the transfer it describes (R93, R302, R390). -/
def dm2dFault (s : State) (w a : Nat) : Option (Nat × Nat) :=
  match accessFault s .r [(a, 32)] with
  | some f => some f
  | none =>
    if targetReset s (dieOfRunner w) a then some (0x0908, a)
    else
      match poisonHit s a 32 with
      | some u => some (0x0406, u)
      | none => transferFault s (recordRanges s a).1 (recordRanges s a).2

/-- DM2D. -/
def dm2dSlot (w a tag : Nat) (census : Bool) : Option Slot :=
  let r (s : State) := (aReg s w a).toNat
  legal (a < 16 && tag < 64)
    { srcs := [.a a], dsts := [.s tag], reads := fun s => [(r s, 32)],
      holds := fun s =>
        let ids := earlierTo s w (r s) 32
        if !ids.isEmpty then some (.operand ids)
        else (holdMover w s).or (holdOwn w (fun s => (r s, 32) :: ((recordRanges s (r s)).1 ++ (recordRanges s (r s)).2)) s),
      fault := fun s => dm2dFault s w (r s),
      act := fun old s =>
        let (src, dst, rows, n, ss, ds) := recordOf old (r old)
        addTransfer w tag src dst rows n ss ds none (counted old w census (slotType old)) old s }

/-- DMFILL. -/
def dmfillSlot (w a pat len tag : Nat) : Option Slot :=
  let dst (s : State) := [((aReg s w a).toNat, (sReg s w len).toNat)]
  legal (a < 16 && pat < 64 && len < 64 && tag < 64)
    { srcs := [.a a, .s pat, .s len], dsts := [.s tag],
      holds := fun s => (holdMover w s).or (holdOwn w dst s),
      fault := fun s => accessFault s .w (dst s),
      act := fun old s => addTransfer w tag 0 (aReg old w a).toNat 1 (sReg old w len).toNat 0 0 (some (sReg old w pat)) none old s }

/-- The transfers a DMWAIT waits for (R93): those of the runner up to the one its tag names, or all of them where its field names s0. -/
def waitedTransfers (s : State) (w tag : Nat) : List Nat :=
  let mine := (coreAt s (coreOf w)).mover.filter (·.runner == w)
  let next := (runnerAt s w).dmNext
  let back := (next + 2 ^ 16 - 1 - (sReg s w tag).toNat % 2 ^ 16) % 2 ^ 16
  if tag = 0 then mine.map (·.id)
  else if next = 0 ∨ 32767 < back ∨ next ≤ back then []
  else (mine.filter (fun t => decide (t.tag + back < next))).map (·.id)

/-- DMWAIT holds its bundle. -/
def dmwaitSlot (w tag : Nat) : Option Slot :=
  legal (tag < 64) { srcs := [.s tag], holds := fun s =>
    let l := waitedTransfers s w tag
    if l.isEmpty then none else some (.transfers l) }

/-! ### Performing a transfer -/

/-- What a transfer stores: its rows' bytes as they stand, or its pattern, whose byte at an address is counted from the destination. -/
def transferData (s : State) (t : Transfer) : List (List Byte) :=
  match t.pat with
  | some p => [(List.range t.rowBytes).map (fun i => BitVec.ofNat 8 (bits p.toNat (8 * (i % 8)) 8))]
  | none => t.read.map (fun r => Mem.read s.mem r.1 r.2)

/-- What stops a transfer or access at the memory: a die in reset on its way, or poison it reads or writes in part (R302, R390). -/
def memoryRefuses (s : State) (die : Nat) (reads writes : List (Nat × Nat)) : Option (Nat × Nat) :=
  match rangesReset s die (reads ++ writes) with
  | some a => some (0x0908, a)
  | none =>
    match reads.findSome? (fun r => poisonHit s r.1 r.2) with
    | some u => some (0x0406, u)
    | none => (writes.findSome? (fun r => poisonPartial s r.1 r.2)).map (fun u => (0x0406, u))

/-- The codes of what an access of a die reads are checked, where it reaches the memory (R298, R301). -/
def readChecked (die : Nat) (reads writes : List (Nat × Nat)) (s : State) : State :=
  if (rangesReset s die (reads ++ writes)).isSome then s else probe reads writes s

/-- The core whose mover holds a transfer, with the transfer. -/
def transferAt (s : State) (id : Nat) : Option (Nat × Transfer) :=
  s.cores.findSome? (fun p => (p.2.mover.find? (·.id == id)).map (fun t => (p.1, t)))

/-- Rows stored one after another, each tested as a write of its source. -/
def storeRows (seen : LapSeen) (e : Err) (rows : List (Nat × Nat)) (data : List (List Byte)) (s : State) : State :=
  each (List.zip rows data) (fun p s => testWrite seen none e p.1.1 p.1.2 (store p.1.1 p.2 s)) s

/-- A transfer is performed, after the earlier ones of its runner that meet it (R58); or its runner is frozen. -/
def transferPerformed (id : Nat) (s : State) : State :=
  match transferAt s id with
  | none => s
  | some (k, t) =>
    if (coreAt s k).mover.any (fun u => u.runner == t.runner && decide (u.id < id) && meet u.ranges t.ranges) then s
    else
      let out (s : State) : State := modCore k (fun c => { c with mover := c.mover.filter (·.id != id) }) s
      let s := readChecked (k / 64) t.read t.written s
      let s := match memoryRefuses s (k / 64) t.read t.written with
        | some (code, a) => freezeAt t.runner t.pc code a (out s)
        | none =>
          let data := transferData s t
          let e : Err := { code := 0, die := k / 64, mkind := 1, midx := t.runner }
          countBytes (k / 64) t.counted data.flatten (storeRows t.seen e t.written data (out s))
      arrayRetired k t.runner s

/-! ### The commands -/

def execDmcopy (w g a asrc len tag : Nat) (census : Bool) (s : State) : Host.Outcome State Fault Refusal :=
  .next (issue1 w g (dmcopySlot w a asrc len tag census) s)

def execDm2d (w g a tag : Nat) (census : Bool) (s : State) : Host.Outcome State Fault Refusal := .next (issue1 w g (dm2dSlot w a tag census) s)

def execDmfill (w g a pat len tag : Nat) (s : State) : Host.Outcome State Fault Refusal := .next (issue1 w g (dmfillSlot w a pat len tag) s)

def execDmwait (w g tag : Nat) (s : State) : Host.Outcome State Fault Refusal := .next (issue1 w g (dmwaitSlot w tag) s)

def execDmTransferPerformed (id : Nat) (s : State) : Host.Outcome State Fault Refusal := .next (transferPerformed id s)

end Sys2Proof.Machine
end

