-- ==== Sys2Proof/Machine/Control.lean ====
section
/-! DEFINITION. Hurdles, batons and the heat instructions of a runner (R89, R90, R96). -/

namespace Sys2Proof.Machine

/-! ### Hurdles (R89) -/

/-- The key of a hurdle: that of the core, cluster or die of a runner. -/
def hurdleKey (w scope hid : Nat) : Nat :=
  let k := coreOf w
  scope * 2 ^ 20 + (if scope = 0 then k else if scope = 1 then k / 8 else k / 64) * 16 + hid

/-- Runners in a hurdle's scope. -/
def hurdleSize (scope : Nat) : Nat := if scope = 0 then 16 else if scope = 1 then 128 else 1024

/-- A hurdle; one not used since the job began stands at an empty first generation. -/
def hurdleAt (s : State) (key : Nat) : Hurdle := s.hurdles.get key ⟨0, 0, 0, false, []⟩

/-- A hurdle changed. -/
def setHurdle (key : Nat) (h : Hurdle) (s : State) : State := { s with hurdles := s.hurdles.set key h }

/-- An arrival of the bundle at `pc`: counted, and the generation released when its count is reached. The record of a mismatch carries the count in bytes 36 to 39 (DESIGN CHOICE,
assumption 105). -/
def arrive (w pc key count : Nat) (s : State) : State :=
  let h := hurdleAt s key
  let need := if h.arrived = 0 then count else h.need
  let wrong := count != need && !h.mismatch
  let s := if wrong then raise { runnerErr w (pc + count * 2 ^ 32) 0x0106 0 with cont := contL } s else s
  if need ≤ h.arrived + 1 then
    each h.waiting wake (setHurdle key ⟨h.gen + 1, 0, 0, false, []⟩ s)
  else
    waitOn w .hurdle (setHurdle key ⟨h.gen, h.arrived + 1, need, h.mismatch || wrong, h.waiting ++ [w]⟩ s)

/-- HURDLE: a fence of its scope with all four pairs, then an arrival. -/
def hurdleSlot (w scope hid rc : Nat) : Option Slot :=
  legal (scope < 3 && hid < 16 && rc < 64)
    { srcs := [.s rc],
      holds := fun s => if (fenceIds s w scope 15).isEmpty then none else some (.fence (fenceIds s w scope 15)),
      fault := fun s => if 1 ≤ (sReg s w rc).toNat ∧ (sReg s w rc).toNat ≤ hurdleSize scope then none else some (0x0101, 0),
      late := fun old s => arrive w (runnerAt old w).pc (hurdleKey w scope hid) (sReg old w rc).toNat s }

/-! ### Batons (R90) -/

/-- A baton a runner holds. -/
def batonOf (s : State) (w b : Nat) : Option Baton := (runnerAt s w).batons.find? (·.value == b)

/-- BWAIT: consumes the baton. -/
def bwaitSlot (w rd rb : Nat) : Option Slot :=
  legal (rd < 64 && rb < 64)
    { srcs := [.s rb], dsts := [.s rd],
      holds := fun s => match batonOf s w (sReg s w rb).toNat with
        | some b => if b.status.isNone then some (.baton b.value) else none
        | none => none,
      fault := fun s => if (batonOf s w (sReg s w rb).toNat).isNone then some (0x0101, 0) else none,
      act := fun old s =>
        match batonOf old w (sReg old w rb).toNat with
        | some b => setS w rd (BitVec.ofNat 64 (b.status.getD 0)) (modRunner w (fun r => { r with batons := r.batons.filter (·.value != b.value) }) s)
        | none => s }

/-- BTEST. -/
def btestSlot (w rd rb : Nat) : Option Slot :=
  legal (rd < 64 && rb < 64)
    { srcs := [.s rb], dsts := [.s rd],
      fault := fun s => if (batonOf s w (sReg s w rb).toNat).isNone then some (0x0101, 0) else none,
      act := fun old s => setS w rd (if batonDone old w (sReg old w rb).toNat then 1 else 0) s }

/-! ### Heat instructions (R96) -/

/-- The stall timeout of the heat table in ns, for a request that begins to wait now (R41). -/
def heatTimeout (s : State) : Nat := getF s .devStallTimeout F.devStallTimeout_heat_ms * 10 ^ 6

/-- The post that a pair word asks for (Table 3.15). Its timeout is counted from now. -/
def postOf (s : State) (w : Nat) (word : Word) : HeatPost :=
  let v := word.toNat
  let t := heatTimeout s
  ⟨s.nextId, bits v 8 3, v.testBit 16, bits v 32 16, bits v 48 16, none, stageDies s (dieOfRunner w) (bits v 8 3), some w,
    if t = 0 then 0 else nowNs s + t, false⟩

/-- Whether HPOST may name a pair's stage-direction (R271). -/
def postable (s : State) (w : Nat) (word : Word) : Bool :=
  let d := dieOfRunner w
  let st := bits word.toNat 8 3
  stageValid s d st && inQueue s d st (word.toNat.testBit 16) == 0

/-- Whether an entry is free for a pair now. -/
def postRoom (s : State) (w : Nat) (word : Word) : Bool :=
  (poolFor s (dieOfRunner w) (sdOf (bits word.toNat 8 3) (word.toNat.testBit 16))).isSome

/-- HPOST: the runner waits in the order of the posts where no entry is free (R34). -/
def hpostSlot (w r : Nat) : Option Slot :=
  legal (r < 64)
    { srcs := [.s r],
      holds := fun s => if postable s w (sReg s w r) && !(runnerAt s w).posted && !postRoom s w (sReg s w r) then some .heatPost else none,
      enter := fun s => { modHeat (fun h => { h with posts := h.posts ++ [postOf s w (sReg s w r)] }) s with nextId := s.nextId + 1 },
      fault := fun s => if postable s w (sReg s w r) then none else some (0x0121, 0),
      act := fun old s =>
        if (runnerAt old w).posted then modRunner w (fun x => { x with posted := false }) s
        else
          let p := postOf s w (sReg old w r)
          modRunner w (fun x => { x with posted := false }) { heatPost (dieOfRunner w) p s with nextId := s.nextId + 1 } }

/-- HNEXT: the runner waits until a pair is assigned to it. -/
def hnextSlot (w r : Nat) : Option Slot :=
  legal (r < 64)
    { dsts := [.s r],
      holds := fun s => if (runnerAt s w).given.isNone then some .heatNext else none,
      enter := modHeat (fun h => { h with waiters := h.waiters.filter (· != w) ++ [w] }),
      act := fun old s => setS w r (BitVec.ofNat 64 ((runnerAt old w).given.getD 0)) (modRunner w (fun x => { x with given := none }) s) }

/-- Whether an entry is assigned to a runner and not reported. -/
def assignedTo (s : State) (w n : Nat) : Bool :=
  (s.heat.entries.get? n).any (fun e => e.assigned.contains (dieOfRunner w, w) && !e.reported.contains (dieOfRunner w))

/-- HDONE. -/
def hdoneSlot (w r : Nat) : Option Slot :=
  legal (r < 64)
    { srcs := [.s r],
      fault := fun s => if assignedTo s w ((sReg s w r).toNat % 64) then none else some (0x0101, 0),
      act := fun old s => wakeAll (heatDone (dieOfRunner w) ((sReg old w r).toNat % 64) s) }

/-! ### The commands -/

def execHurdle (w g scope hid rc : Nat) (s : State) : Host.Outcome State Fault Refusal := .next (issue1 w g (hurdleSlot w scope hid rc) s)
def execBwait (w g rd rb : Nat) (s : State) : Host.Outcome State Fault Refusal := .next (issue1 w g (bwaitSlot w rd rb) s)
def execBtest (w g rd rb : Nat) (s : State) : Host.Outcome State Fault Refusal := .next (issue1 w g (btestSlot w rd rb) s)
def execHpost (w g r : Nat) (s : State) : Host.Outcome State Fault Refusal := .next (issue1 w g (hpostSlot w r) s)
def execHnext (w g r : Nat) (s : State) : Host.Outcome State Fault Refusal := .next (issue1 w g (hnextSlot w r) s)
def execHdone (w g r : Nat) (s : State) : Host.Outcome State Fault Refusal := .next (issue1 w g (hdoneSlot w r) s)

end Sys2Proof.Machine
end

