-- ==== Sys2Proof/Machine/Heat.lean ====
section
/-! DEFINITION. The heat scheduler's own actions: posting from queues, assigning pairs, the stage registers, and far queues (R271 to R285). -/

namespace Sys2Proof.Machine

/-! ### Assignment (R273) -/

/-- The entries of a die in the order they are chosen: backward first, then by posting order. -/
def chosenOrder (s : State) : List (Nat × HeatEntry) :=
  sortBy (fun e => e.2.order) (s.heat.entries.filter (·.2.back)) ++ sortBy (fun e => e.2.order) (s.heat.entries.filter (fun e => !e.2.back))

/-- The runner of a die that has waited longest in HNEXT. -/
def longestWaiter (s : State) (d : Nat) : Option Nat :=
  s.heat.waiters.find? (fun w => dieOfRunner w == d && (runnerAt s w).given.isNone &&
    ((runnerAt s w).state == .waiting || (runnerAt s w).state == .halted))

/-- HEAT_ASSIGN: the chosen ready entry goes to the runner that has waited longest. -/
def heatAssign (d : Nat) (s : State) : State :=
  if inReset s d then s
  else
    let s := each ((chosenOrder s).filter (fun e => e.2.dies.testBit d)) (fun e s => checkQueue d (outQueue s d e.2.stage e.2.back) s) s
    match longestWaiter s d, (chosenOrder s).find? (fun e => entryReady s d e.2) with
    | some w, some (n, e) =>
      let new := { e with assigned := (d, w) :: e.assigned, slot := e.slot || outQueue s d e.stage e.back != 0 }
      let s := modHeat (fun h => { h with entries := h.entries.set n new, waiters := h.waiters.filter (· != w) }) s
      wake w (modRunner w (fun r => { r with given := some (pairWord n e) }) s)
    | _, _ => s

/-! ### Posting from an input queue (R271) -/

/-- The index of the next segment to post from a stage-direction's input queue. -/
def nextSegment (s : State) (sd b : Nat) : Nat := Nat.max (s.heat.next.get sd 0) (qHeader s b).tail

/-- Whether a die's scheduler posts the pairs of a stage-direction itself (Table 9.8). -/
def autoPosts (s : State) (d stage : Nat) (back : Bool) : Bool :=
  flag s (.cmpStageCfg d stage) (if back then F.cmpStageCfg_b_auto else F.cmpStageCfg_f_auto) && inQueue s d stage back != 0

/-- HEAT_AUTO_POST: the next segment's pair is posted once it is published, by a scheduler whose die is not in reset. -/
def heatAutoPost (sd : Nat) (s : State) : State :=
  let stage := sd / 2
  let back := sd % 2 == 1
  match postingDie s stage with
  | none => s
  | some d =>
    let b := inQueue s d stage back
    if !autoPosts s d stage back ∨ sd ≥ 16 ∨ inReset s d then s
    else
      let s := checkQueue d b s
      let n := nextSegment s sd b
      if !queueGood s b || decide ((qHeader s b).head ≤ n) then s
      else
        let a := slotAddr s b n
        let s := probe [(a, 64)] [] s
        if queueLost s b then s
        else if (qHeader s b).seg - 64 < rdN s (a + 8) 4 then markBad d b s
        else
          let t := heatTimeout s
          let p : HeatPost := ⟨s.nextId, stage, back, rdN s a 2, rdN s (a + 2) 2, some n, stageDies s d stage, none,
            if t = 0 then 0 else nowNs s + t, false⟩
          let s := modHeat (fun h => { h with next := h.next.set sd (n + 1) }) s
          wakeAll { heatPost d p s with nextId := s.nextId + 1 }

/-! ### Stage registers (R285) -/

/-- The register of a stage that a write names: CFG, then the four queues. -/
def stageReg (d stage reg : Nat) : Reg := if reg = 0 then .cmpStageCfg d stage else .cmpStageQueue d stage (reg - 1)

/-- Whether an address lies in the well address range. -/
def inWells (a : Nat) : Bool := decide (0x1000_0000_0000 ≤ a ∧ a < 0x1000_8000_0000)

/-- Whether a CFG write with valid 1 is refused. -/
def badStage (s : State) (d stage : Nat) (v : Word) : Bool :=
  let f (x : Fld) : Nat := x.of v
  let queue (j : Nat) : Nat := getF s (.cmpStageQueue d stage j) F.cmpStageQueue_base * 4096
  let others := sumOf (((List.range 16).filter (fun sd => sd / 2 != stage)).map (reserveOf s d))
  f F.cmpStageCfg_dies == 0 || (List.range 4).any (fun j => queue j != 0 && !inWells (queue j)) ||
  (queue 0 != 0 && (f F.cmpStageCfg_f_auto == 0 || f F.cmpStageCfg_f_reserve == 0)) ||
  (queue 2 != 0 && (f F.cmpStageCfg_b_auto == 0 || f F.cmpStageCfg_b_reserve == 0)) ||
  decide (64 < others + f F.cmpStageCfg_f_reserve + f F.cmpStageCfg_b_reserve)

/-- The bits of a register's fields of access RW. -/
def rwBits (r : Reg) (v : Word) : Word := (r.fields.filter (fun f => f.acc == .rw || f.acc == .rwl)).foldl (fun w f => f.into w (f.of v)) 0

/-- A stage register is written (R285); its queues are then looked at afresh (R277). -/
def stageWrite (d stage reg : Nat) (val : Word) (s : State) : State :=
  let r := stageReg d stage reg
  let v := rwBits r val
  if !s.heat.entries.isEmpty || !s.heat.posts.isEmpty || (reg == 0 && flag (setReg s r v) r F.cmpStageCfg_valid && badStage s d stage v) then
    raise { code := 0x0120, cont := contX, die := d } s
  else
    let s := setReg s r v
    let qs := (List.range 4).map (fun j => getF s (.cmpStageQueue d stage j) F.cmpStageQueue_base * 4096)
    modHeat (fun h => { h with bad := h.bad.filter (fun b => !qs.contains b), unreached := h.unreached.filter (fun b => !qs.contains b), next := (h.next.del (stage * 2)).del (stage * 2 + 1) }) s

/-! ### Far queues (R278, R324) -/

/-- Whether a far queue's half at a base is an output queue (the send half) or an input queue (the receive half) of some stage. -/
def farHalf (s : State) (base j : Nat) : Bool :=
  base != 0 && flagByte && (List.range 16).any (fun d => (List.range 8).any (fun st => stageValid s d st &&
    (getF s (.cmpStageQueue d st j) F.cmpStageQueue_base * 4096 == base || getF s (.cmpStageQueue d st (j + 2)) F.cmpStageQueue_base * 4096 == base)))
where
  flagByte : Bool := (Mem.get s.mem (base + 0x20)).getLsbD 0

/-- The edge die that carries a far queue. -/
def farEdge (s : State) (base : Nat) : Nat := bits (rdN s (base + 0x20) 1) 1 2

/-- The coordinate of a far queue's peer. -/
def farPeer (s : State) (base : Nat) : Nat := rdN s (base + 0x22) 2

/-- A far queue's packets go to its peer, all in class C2 on one channel, and what follows their sending is done. With no reach entry nothing goes: the queue waits, recorded once (R330). -/
def farSend (base : Nat) (ps : List WritePkt) (done : State → State) (s : State) : State :=
  let e := farEdge s base
  let to' := farPeer s base
  match ps.foldl (fun (t : Option State) p => t.bind (queuePacket e to' ⟨2, 0, jobOf s % 256, none, .write p⟩)) (if (reachOf s e to').isSome then some s else none) with
  | some s => done s
  | none =>
    if s.heat.unreached.contains base then s
    else
      raise { code := 0x0706, cont := contE, die := 16 + e, addr := base, detail := to' * 2 ^ 16 } (modHeat (fun h => { h with unreached := base :: h.unreached }) s)

/-- The most data bytes a write packet of a far queue carries: 208 in its header and 240 in each further flit that the negotiated size of its channel's links allows (R320, R324). -/
def farLimit (s : State) (base : Nat) : Nat :=
  (reachOf s (farEdge s base) (farPeer s base)).elim 3808 (fun r => 208 + 240 * (packetLimit s (farEdge s base) r.chan - 1))

/-- Bytes cut into the data of write packets, with their offsets. -/
def farCut (n : Nat) (bs : List Byte) : List (Nat × List Byte) :=
  (pieces n ((bs.length + n - 1) / n) bs).zipIdx.map (fun p => (p.2 * n, p.1))

/-- The write packets of a segment; the last posts the advance of head (R324). -/
def farPackets (s : State) (base n : Nat) : List WritePkt :=
  let peer := rdN s (base + 0x28) 8
  let cut := farCut (farLimit s base) (Mem.read s.mem (slotAddr s base n) (qHeader s base).seg)
  cut.zipIdx.map (fun p =>
    let final := p.2 + 1 == cut.length
    ⟨peer + (slotAddr s base n - base) + p.1.1, p.1.2, final, if final then peer else 0, if final then 1 else 0⟩)

/-- Segments of a send half that have been carried: those that the peer has consumed at least. -/
def carriedOf (s : State) (base : Nat) : Nat := Nat.max (s.heat.carried.get base 0) (qHeader s base).tail

/-- FAR_QUEUE_SEGMENT_CARRY: a published segment goes out, all but its last packet. -/
def farCarry (base : Nat) (s : State) : State :=
  let n := carriedOf s base
  let s := if farHalf s base 1 && !badHeader s base then probe [(base, 64), (slotAddr s base n, (qHeader s base).seg)] [] s else s
  if farHalf s base 1 && !queueLost s base && !s.heat.carrying.contains base && !badHeader s base && decide (n < (qHeader s base).head) then
    farSend base (farPackets s base n).dropLast (modHeat (fun h => { h with carrying := base :: h.carrying })) s
  else s

/-- FAR_QUEUE_HEAD_ADVANCE: the last packet of the carried segment follows on the same channel; once the segment has landed whole it advances the receive half's head. -/
def farAdvance (base : Nat) (s : State) : State :=
  let s := if s.heat.carrying.contains base then probe [(base, 64), (slotAddr s base (carriedOf s base), (qHeader s base).seg)] [] s else s
  if s.heat.carrying.contains base && !queueLost s base then
    let n := carriedOf s base
    farSend base (farPackets s base n).getLast?.toList
      (modHeat (fun h => { h with carrying := h.carrying.filter (· != base), carried := h.carried.set base (n + 1) })) s
  else s

/-- FAR_QUEUE_TAIL_COPY: the receive half's tail is written into the send half. -/
def farTail (base : Nat) (s : State) : State :=
  let s := if farHalf s base 0 then probe [(base, 64)] [] s else s
  if farHalf s base 0 && !queueLost s base && !badHeader s base then
    farSend base [⟨rdN s (base + 0x28) 8 + 8, Mem.read s.mem (base + 8) 8, false, 0, 0⟩] id s
  else s

/-! ### The commands -/

def execHeatAssign (d : Nat) (s : State) : Host.Outcome State Fault Refusal := .next (heatAssign d s)
def execHeatAutoPost (sd : Nat) (s : State) : Host.Outcome State Fault Refusal := .next (heatAutoPost sd s)
def execStageCfgWrite (d stage reg : Nat) (val : BitVec 64) (s : State) : Host.Outcome State Fault Refusal :=
  .next (if d < 16 ∧ stage < 8 ∧ reg < 5 then regWrite (.cmpStageCfg d stage) (stageWrite d stage reg val) s else s)
def execFarQueueSegmentCarry (base : Nat) (s : State) : Host.Outcome State Fault Refusal := .next (farCarry base s)
def execFarQueueHeadAdvance (base : Nat) (s : State) : Host.Outcome State Fault Refusal := .next (farAdvance base s)
def execFarQueueTailCopy (base : Nat) (s : State) : Host.Outcome State Fault Refusal := .next (farTail base s)

end Sys2Proof.Machine
end

