-- ==== Sys2Proof/Machine/RelayPlan.lean ====
section
/-! DEFINITION. Relays as they are described and cut into transfers: extensions, group lists, posts, start checks, topologies (R229 to R234, R238, R249, R253). -/

namespace Sys2Proof.Machine

/-! ### Descriptor extensions and group lists -/

/-- The ops a kind allows (Table 8.2): bits [2:0] of byte 1. -/
def opAllowed (kind op : Nat) : Bool :=
  match kind with
  | 2 => decide (op < 5)
  | 5 => decide (op < 2)
  | 6 => decide (op < 4)
  | _ => op == 0

/-- The topologies a kind allows (Table 8.1). -/
def topoAllowed (kind topo : Nat) : Bool :=
  match kind with
  | 0 => decide (topo < 4)
  | 1 => [0, 1, 3].contains topo
  | 2 => [0, 2, 3].contains topo
  | 3 => [0, 2, 3].contains topo
  | 4 => topo == 0
  | 5 => [0, 2].contains topo
  | 6 => topo == 0
  | _ => false

/-- A descriptor extension of its 64 bytes (Table 8.2). -/
def readExt (bs : List Byte) : Ext :=
  let b (i : Nat) : Nat := field bs i 1
  let kind := bits (b 0) 0 4
  let op := bits (b 1) 0 3
  let parts := bits (b 3) 3 4 + 1
  let fp32 := (b 2).testBit 2
  { kind := kind, topo := bits (b 0) 4 4, op := op, lapless := (b 2).testBit 0, censusScale := (b 2).testBit 1, fp32 := fp32,
    thin := (b 2).testBit 3, init := (b 2).testBit 4, census := (b 2).testBit 5, clip := (b 2).testBit 6, keep := bits (b 3) 0 3, parts := parts,
    lap := if (b 2).testBit 0 then 0 else field bs 4 4, tag := field bs 8 4, layout := field bs 12 2, s := sint 8 (b 14), holdback := bits (b 15) 0 6,
    src := field bs 16 8, dst := field bs 24 8, resid := field bs 32 8, group := field bs 40 8, len := field bs 48 4, pmod := field bs 52 2,
    slot := field bs 54 2 % 4096, clipEntry := field bs 56 2 % 4096, timeout := field bs 58 2, stride := field bs 60 4,
    reserved := decide (6 < kind) || bits (b 1) 3 5 != 0 || (b 2).testBit 7 || decide (5 < bits (b 3) 0 3) || (b 3).testBit 7 ||
      bits (b 15) 6 2 != 0 || bits (b 55) 4 4 != 0 || bits (b 57) 4 4 != 0 || field bs 52 2 == 0 || decide (4096 < field bs 52 2) ||
      (parts == 1 && !fp32 && field bs 60 4 != 0) || !opAllowed kind op }

/-- A group list entry (Table 8.5), its coordinate in the form of bytes 0 and 1. -/
def readEntry (b : List Byte) : GroupEntry :=
  ⟨bits (field b 0 1) 0 4, bits (field b 0 1) 4 4, bits (field b 1 1) 0 5, bits (field b 2 1) 0 2, field b 4 4,
    decide (17 < field b 1 1) || decide (3 < field b 2 2)⟩

/-- The coordinate of an entry. -/
def GroupEntry.coord (g : GroupEntry) : Nat := g.x + g.y * 16 + g.slot * 256

/-- The group list that an extension names, as bytes. -/
def groupBytes (s : State) (x : Ext) : List Byte := Mem.read s.mem x.group (x.pmod * 8)

/-- A group list of its bytes. -/
def readGroup (bs : List Byte) (n : Nat) : List GroupEntry := (pieces 8 n bs).map readEntry

/-- The module's own index in a group list. -/
def ownIndex (s : State) (g : List GroupEntry) : Nat := g.findIdx (fun e => e.coord == coordOf s)

/-- The first element of participant `i`'s shard, and the element after its last (R233). -/
def shardLo (g : List GroupEntry) (i : Nat) : Nat := (g[i]?).elim 0 (·.first)
def shardHi (x : Ext) (g : List GroupEntry) (i : Nat) : Nat := (g[i + 1]?).elim x.len (·.first)

/-- Whether a list never falls. -/
def rising : List Nat → Bool
  | a :: b :: l => decide (a ≤ b) && rising (b :: l)
  | [_] => true
  | [] => true

/-- Whether a group list breaks R233, or its first elements exceed the length. -/
def groupBad (s : State) (x : Ext) (g : List GroupEntry) : Bool :=
  let firsts := g.map (·.first)
  g.any (·.reserved) || firsts.headD 0 != 0 || !rising firsts || !hasCoord s || g.countP (fun e => e.coord == coordOf s) != 1 ||
  firsts.any (fun f => decide (x.len < f))

/-! ### What a relay reads and writes -/

/-- Whether a relay sums in the tally format: a reduce-scatter, or an all-reduce with op 0. -/
def Ext.sums (x : Ext) : Bool := x.kind == 0 || (x.kind == 2 && x.op == 0)

/-- Whether a relay is a clip exchange. -/
def Ext.exchanges (x : Ext) : Bool := x.kind == 2 && x.op == 4

/-- Whether a relay is the commit relay. -/
def Ext.commits (x : Ext) : Bool := x.kind == 5 && x.op == 1

/-- Whether a relay's result stays in its engine: a clip exchange or the commit relay. -/
def Ext.inEngine (x : Ext) : Bool := x.exchanges || x.commits

/-- Words of the whole bucket: an element is one word of 32 bits (assumption 35); a clip entry travels as bytes 8 to 23 of Table 7.11 (assumption 37); the commit relay
carries vote, mask and 4,096 exponents. -/
def Ext.words (x : Ext) : Nat := if x.commits then 1026 else if x.kind = 5 then 1 else if x.exchanges then 4 * x.len else x.len

/-- The bytes read at each source part. -/
def sourceBytes (x : Ext) (g : List GroupEntry) (me : Nat) : Nat :=
  match x.kind with
  | 1 => 4 * (shardHi x g me - shardLo g me)
  | 3 => if me = 0 then 4 * x.len else 0
  | 4 => x.pmod * x.len
  | 6 => if x.op = 2 then x.len * 65536 else 0
  | _ => if x.inEngine then 0 else 4 * x.words

/-- The ranges of the source and its parts. -/
def sourceRanges (x : Ext) (g : List GroupEntry) (me : Nat) : List (Nat × Nat) :=
  (List.range x.parts).map (fun j => (x.src + j * (if x.fp32 then 0 else x.stride), sourceBytes x g me))

/-- The bytes of the landing zone. -/
def zoneBytes (x : Ext) (g : List GroupEntry) (me : Nat) : Nat :=
  match x.kind with
  | 0 => 4 * (shardHi x g me - shardLo g me)
  | 4 => x.pmod * x.len
  | 6 => if x.op = 1 then x.len * 65536 else 0
  | _ => if x.inEngine then 0 else 4 * x.words

/-- Bytes of the residue area of a sum kind (R244). -/
def residBytes (x : Ext) (g : List GroupEntry) (me : Nat) : Nat := if x.sums then 2 * ((zoneBytes x g me + 239) / 240) else 0

/-- The bucket's range in a copy of the holdback. -/
def holdRange (s : State) (x : Ext) (copy : Nat) : Nat × Nat := (regionBase s x.holdback copy + x.stride * 256, 4 * x.len)

/-- The holdback ranges of a relay with an FP32 source. -/
def holdRanges (s : State) (x : Ext) : List (Nat × Nat) := if x.fp32 then [holdRange s x 0, holdRange s x 1] else []

/-- Whether the poster of a relay has every right it needs at the post (R52, R231). -/
def postPermitted (s : State) (src : Option Nat) (x : Ext) : Bool :=
  let g := readGroup (groupBytes s x) x.pmod
  let me := ownIndex s g
  let ok (right : Right) (p : Nat × Nat) : Bool := permits s src right p.1 p.2
  ok .r (x.group, 8 * x.pmod) && (sourceRanges x g me).all (ok .r) && ok .w (x.dst, zoneBytes x g me) && ok .w (x.resid, residBytes x g me) &&
  (holdRanges s x).all (ok .w)

/-- Whether a range lies in one well, or in the populated LPDDR6 of one compute die; and which, as a number. -/
def memoryOf (s : State) (a n : Nat) : Option Nat :=
  let last := a + n - 1
  match placeOf s a, placeOf s last with
  | .lpddr d _, .lpddr d' _ => if d = d' then some d else none
  | .well d c _, .well d' c' _ => if d = d' ∧ c = c' then some (16 + d * 8 + c) else none
  | _, _ => none

/-- Whether a landing zone and its residue area stand where R234 asks. -/
def zoneBad (s : State) (x : Ext) (g : List GroupEntry) (me : Nat) : Bool :=
  let n := zoneBytes x g me
  let r := residBytes x g me
  (n != 0 && (memoryOf s x.dst n).isNone) || (r != 0 && memoryOf s x.resid r != memoryOf s x.dst n)

/-- Whether an address must be aligned and is not. -/
def misaligned (a n : Nat) : Bool := n != 0 && a % 256 != 0

/-- The entry of a slot in the table of the relay's lap is that of an installed slot (Table 6.5). -/
def entryInstalled (s : State) (n slot : Nat) : Bool := (rdN s (entryAddr s n slot + 1) 1).testBit 1

/-- The start checks of R234, R238, R249 and R257. -/
def extBad (s : State) (x : Ext) (g : List GroupEntry) (commit : Bool) : Bool :=
  let me := ownIndex s g
  x.reserved || !topoAllowed x.kind x.topo || groupBad s x g || zoneBad s x g me || (x.thin && !x.fp32) ||
  (x.fp32 && (decide (1 < x.parts) || !(regionValid s x.holdback && regionKind s x.holdback == 3 &&
    decide (x.stride * 256 + 4 * x.len ≤ regionLen s x.holdback)))) ||
  (x.kind == 2 && decide (x.op < 4) && decide (16384 < x.len)) ||
  (x.exchanges && (x.lapless || decide (4096 < x.clipEntry + x.len))) ||
  (decide (1 < x.parts) && (!([0, 2, 5].contains x.kind) || x.exchanges)) || ((x.tag == 0xFFFFFFFF || x.commits) && !commit) ||
  misaligned x.dst (zoneBytes x g me) || misaligned x.src (sourceBytes x g me) || (decide (1 < x.parts) && x.stride % 256 != 0) ||
  (x.censusScale && (x.lapless || !entryInstalled s x.lap x.slot)) || (x.kind == 6 && x.pmod != 2)

/-- ceil(log2 n). -/
def ceilLog2 (n : Nat) : Nat := if n ≤ 1 then 0 else Nat.log2 (n - 1) + 1

/-- The scale exponent s (R238). -/
def scaleOf (s : State) (x : Ext) : Int :=
  if x.censusScale then
    let h : Int := ceilLog2 (x.pmod * x.parts) + 1
    max (-128) (min 127 (tableEntry s x.lap x.slot - (30 - h)))
  else x.s

/-! ### Engines -/

/-- An engine. -/
def engineAt (s : State) (e : Nat) : Engine := s.relays.engines.get e ⟨[], [], []⟩

/-- An engine changed. -/
def modEngine (e : Nat) (f : Engine → Engine) (s : State) : State :=
  { s with relays := { s.relays with engines := s.relays.engines.set e (f (engineAt s e)) } }

/-- A relay in a slot. -/
def runAt (s : State) (e slot : Nat) : Option RelayRun := (engineAt s e).slots.get? slot

/-- A relay changed. -/
def modRun (e slot : Nat) (f : RelayRun → RelayRun) (s : State) : State :=
  match runAt s e slot with
  | some r => modEngine e (fun g => { g with slots := g.slots.set slot (f r) }) s
  | none => s

/-- Every relay of the module that has started, with its engine and slot. -/
def allRuns (s : State) : List (Nat × Nat × RelayRun) := (List.range 4).flatMap (fun e => (engineAt s e).slots.map (fun p => (e, p.1, p.2)))

/-- The current layout. -/
def layoutNow (s : State) : Nat := getF s .colLayout F.colLayout_current

/-- The layout that a relay posted now is bound to (R253). -/
def boundLayout (s : State) (x : Ext) : Nat :=
  match (openLaps s).find? (fun o => !x.lapless && o.lap == x.lap) with
  | some o => o.layout
  | none => layoutNow s

/-- A post joins its engine's order (R230). Its stall timeout is counted from now; 0 for none. -/
def postRelay (e : Nat) (x : Ext) (p : Poster) (s : State) : State :=
  let t := getF s .devStallTimeout F.devStallTimeout_relay_ms * 10 ^ 6
  let post : Post := ⟨s.nextId, x, p, boundLayout s x, if t = 0 then 0 else nowNs s + t, false⟩
  modEngine e (fun g => { g with posts := g.posts ++ [post] }) { s with nextId := s.nextId + 1 }

/-! ### Topologies: the transfers of one module (Table 8.3) -/

/-- A transfer between this module and a participant: its direction, the participant, its phase (0 data or partial sums, 1 results), its first element and its words.
A transfer of no words is none. -/
structure Xfer where
  out : Bool
  peer : Nat
  phase : Nat
  lo : Nat
  n : Nat
  deriving DecidableEq, Repr

/-- The parent of a participant in the tree of a topology: binary in list order, or the first of its rack, the first of its column, then entry 0 (assumption 40). -/
def parentOf (topo : Nat) (g : List GroupEntry) (i : Nat) : Option Nat :=
  if i = 0 then none
  else if topo = 2 then some ((i - 1) / 2)
  else
    match g[i]? with
    | none => some 0
    | some a =>
      let rack := g.findIdx (fun b => b.x == a.x && b.y == a.y)
      let column := g.findIdx (fun b => b.x == a.x)
      if rack ≠ i then some rack else if column ≠ i then some column else some 0

/-- A participant and its ancestors, nearest first. -/
def ancestors (topo : Nat) (g : List GroupEntry) : Nat → Nat → List Nat
  | 0, i => [i]
  | n + 1, i => i :: (match parentOf topo g i with
      | some p => ancestors topo g n p
      | none => [])

/-- The children of a participant. -/
def childrenOf (topo : Nat) (g : List GroupEntry) (i : Nat) : List Nat := (List.range g.length).filter (fun j => parentOf topo g j == some i)

/-- The neighbour of participant `v` on the way to participant `j`. -/
def nextHop (topo : Nat) (g : List GroupEntry) (v j : Nat) : Nat :=
  let up := ancestors topo g 13 j
  match (up.takeWhile (· != v)).getLast? with
  | some c => if up.contains v then c else (parentOf topo g v).getD 0
  | none => v

/-- The neighbours of a participant in the tree. -/
def neighbours (topo : Nat) (g : List GroupEntry) (v : Nat) : List Nat := (parentOf topo g v).toList ++ childrenOf topo g v

/-- The transfers of the module, the empty ones included. `stream` is the words of a mirror stream it sends, `slot` those of each all-to-all slot. -/
def allXfers (x : Ext) (g : List GroupEntry) (me : Nat) : List Xfer :=
  let n := g.length
  let others := (List.range n).filter (· != me)
  let shard (out : Bool) (peer i : Nat) : Xfer := ⟨out, peer, 0, shardLo g i, shardHi x g i - shardLo g i⟩
  let whole (out : Bool) (peer phase : Nat) : Xfer := ⟨out, peer, phase, 0, x.words⟩
  let slot (out : Bool) (peer : Nat) : Xfer := ⟨out, peer, 0, 0, (x.len + 3) / 4⟩
  let near := neighbours x.topo g me
  match x.kind, x.topo with
  | 0, 0 => others.map (fun i => shard true i i) ++ others.map (fun i => shard false i me)
  | 1, 0 => others.map (fun i => shard true i me) ++ others.map (fun i => shard false i i)
  | 0, 1 => (List.range (n - 1)).flatMap (fun t =>
      [shard true ((me + 1) % n) ((me + n - t - 1) % n), shard false ((me + n - 1) % n) ((me + 2 * n - t - 2) % n)])
  | 1, 1 => (List.range (n - 1)).flatMap (fun t =>
      [shard true ((me + 1) % n) ((me + n - t) % n), shard false ((me + n - 1) % n) ((me + 2 * n - t - 1) % n)])
  | 0, _ => (List.range n).flatMap (fun j =>
      let dest := nextHop x.topo g me j
      near.map (fun u => if j != me && u == dest then shard true u j else shard false u j))
  | 1, _ => (List.range n).flatMap (fun j =>
      let dest := nextHop x.topo g me j
      near.map (fun u => if j != me && u == dest then shard false u j else shard true u j))
  | 3, 0 => if me = 0 then others.map (fun i => whole true i 0) else [whole false 0 0]
  | 3, _ =>
      let dest := nextHop x.topo g me 0
      near.map (fun u => whole (!(me != 0 && u == dest)) u 0)
  | 4, _ => others.map (slot true) ++ others.map (slot false)
  | 6, _ => others.map (fun i => ⟨x.op == 0 || x.op == 2, i, 0, 0, 1⟩)
  | _, 0 => others.map (fun i => whole true i 0) ++ others.map (fun i => whole false i 0)
  | _, _ =>
      let up := (parentOf x.topo g me).toList
      let down := childrenOf x.topo g me
      down.map (fun i => whole false i 0) ++ up.map (fun i => whole true i 0) ++ up.map (fun i => whole false i 1) ++ down.map (fun i => whole true i 1)

/-- The transfers of the module, numbered. -/
def xfersOf (x : Ext) (g : List GroupEntry) (me : Nat) : List (Nat × Xfer) :=
  ((allXfers x g me).filter (·.n != 0)).zipIdx.map (fun p => (p.2, p.1))

/-- The transfers of a relay. -/
def RelayRun.xfers (r : RelayRun) : List (Nat × Xfer) := xfersOf r.post.ext r.group r.me

/-- The incoming transfers that an outgoing one passes on: on a ring or tree, those of its words up to its phase. -/
def feeds (r : RelayRun) (x : Xfer) : List (Nat × Xfer) :=
  if r.post.ext.topo = 0 then []
  else r.xfers.filter (fun p => !p.2.out && p.2.lo == x.lo && decide (p.2.phase ≤ x.phase))

/-- Whether an incoming transfer lands in memory (true), or is only combined in the engine. -/
def RelayRun.lands (r : RelayRun) (x : Xfer) : Bool :=
  let e := r.post.ext
  if e.inEngine then false
  else if e.topo = 0 ∨ e.kind = 1 ∨ e.kind = 3 then true
  else if e.kind = 0 then x.lo == shardLo r.group r.me && x.n == shardHi e r.group r.me - shardLo r.group r.me
  else x.phase == 1

/-- Whether the module's own data lands: all of it, its shard, or at the root of a tree the sum (R236, R240). -/
def RelayRun.landsOwn (r : RelayRun) : Bool :=
  let e := r.post.ext
  match e.kind with
  | 6 => false
  | 3 => r.me == 0
  | 2 => !e.inEngine && (e.topo == 0 || r.me == 0)
  | 5 => !e.inEngine && (e.topo == 0 || r.me == 0)
  | _ => true

end Sys2Proof.Machine
end

