-- ==== Sys2Proof/Machine/RelayEnd.lean ====
section
/-! DEFINITION. How relays end: status words, what a relay's end does to its poster and lap, the commit relay's outcome, automatic mirrors, packets sent to participants
(R217, R223 to R225, R235, R236, R243, R247, R252, R262). -/

namespace Sys2Proof.Machine

/-- The containment that a relay's error applied (R492, Table 18.5): V where its lap is open, E where it is lapless or its lap is not open, F for a refused landing, E for poison. -/
def relayCont (s : State) (x : Ext) (code : Nat) : Nat :=
  if code = 0x0603 ∨ code = 0x0604 then contF
  else if x.lapless || code == 0x050C || code == 0x0406 || !isOpen s x.lap then contE
  else contV

/-- A record of a relay (Table 18.2): tag, participant and block. -/
def relayErr (s : State) (e slot : Nat) (x : Ext) (code coord block addr : Nat) : Err :=
  { code := code, cont := relayCont s x code, die := 16 + e,
    mkind := 3, midx := e * 64 + slot, lap := x.lap, addr := addr,
    detail := if code / 256 = 5 then x.tag + coord * 2 ^ 32 + block * 2 ^ 48 else if code / 256 = 6 then flagsOf s x.lap else if code / 256 = 7 then coord * 2 ^ 16
      else if code / 256 = 4 then unitDetail s addr 0 0 else 0 }

/-- A relay records an error and will end with it once every other contribution has been handled; the first such error is the one it ends with. -/
def failLater (e slot : Nat) (code coord block addr : Nat) (s : State) : State :=
  match runAt s e slot with
  | none => s
  | some r =>
    modRun e slot (fun r => { r with error := if r.error = 0 then code else r.error }) (raise (relayErr s e slot r.post.ext code coord block addr) s)

/-- A tally saturation that a relay has met: its outcome shows it, and where it is clamped here its lap hears of it (R240). -/
def relaySaturated (e slot addr : Nat) (clamped : Bool) (s : State) : State :=
  match runAt s e slot with
  | none => s
  | some r =>
    let s := modRun e slot (fun r => { r with saturated := true }) s
    if clamped && !r.post.ext.lapless then reportOn r.post.ext.lap 1 (relayErr s e slot r.post.ext 0 0 0 addr) s else s

/-- What a relay has written is tested: in a wet copy for the lap that is Writing, in a watched region for the lap its descriptor names, which a lapless relay and a mirror have none of
(R202, R213, R260). -/
def relayTest (e slot a n : Nat) (s : State) : State :=
  match runAt s e slot with
  | none => s
  | some r =>
    let x := r.post.ext
    testWrite (lapSeen s) (some (if x.lapless ∨ x.kind = 6 then 2 ^ 32 else x.lap)) (relayErr s e slot x 0 0 0 a) a n s

/-- The status word of Table 8.6. -/
def statusWord (outcome code lap : Nat) : Nat := outcome + code * 2 ^ 16 + lap * 2 ^ 32

/-- The completion status of a descriptor for a relay's outcome (R235). -/
def outcomeStatus (outcome : Nat) : Nat := if outcome < 2 then 0 else if outcome = 3 then 5 else 1

/-- A poster hears of its relay's end (R235). -/
def tellPoster (p : Post) (outcome code lap : Nat) (s : State) : State :=
  let word := statusWord outcome code lap
  match p.poster with
  | .runner w _ =>
    wakeAll (modRunner w (fun r => { r with batons := r.batons.map (fun b => if b.relay = p.id then { b with status := some word } else b) }) s)
  | .queue d => (descOf s d).elim s (fun d => complete d (outcomeStatus outcome) code (bytesLE 8 word) s)
  | .lapBlock => s

/-! ### Packets to participants -/

/-- A relay packet of a relay (Table 8.7). Flits are filled up with 0. -/
def relayPacket (r : RelayRun) (type first : Nat) (blocks : List Nat) (words : List Nat) : RelayPkt :=
  let flits := (words.length + 59) / 60
  let full := words ++ List.replicate (flits * 60 - words.length) 0
  let residue (l : List Nat) : Nat := ((l.map tallyOf).foldl (· + ·) 0 % 65521).toNat
  { tag := r.post.ext.tag, lap := r.post.ext.lap, layout := r.post.ext.layout, kind := r.post.ext.kind, op := r.post.ext.op, scale := r.s, sender := r.me,
    type := type, crc := r.crc, first := first, overflow := 0,
    residues := if r.post.ext.sums then (pieces 60 flits full).map residue else List.replicate flits 0, blocks := blocks, words := full.map (BitVec.ofNat 32) }

/-- The coordinate of a participant. -/
def RelayRun.coordAt (r : RelayRun) (i : Nat) : Nat := (r.group[i]?).elim 0 (·.coord)

/-- A packet goes to a participant: votes in class C0, other relays in C1 (Table 8.1); none where no reach entry leads there (R330). -/
def sendRelay (e : Nat) (r : RelayRun) (i : Nat) (p : RelayPkt) (s : State) : Option State :=
  queuePacket e (r.coordAt i) ⟨if r.post.ext.kind = 5 then 0 else 1, 0, jobOf s % 256, none, .relay p⟩ s

/-- A baton to each of some participants; those no entry reaches get none. `value` is what its element index holds. -/
def sendBatons (e : Nat) (r : RelayRun) (type value : Nat) (dest : List Nat) (s : State) : State :=
  each dest (fun i s => (sendRelay e r i (relayPacket r type value [] []) s).getD s) s

/-- Every participant but the module. -/
def RelayRun.others (r : RelayRun) : List Nat := (List.range r.group.length).filter (· != r.me)

/-! ### The clip area (R223 to R225) -/

/-- The address of a clip entry of a lap. -/
def clipAddr (s : State) (lap i : Nat) : Nat := getF s .lapClipBase F.lapClipBase_base * 65536 + lap % 2 * 0x2_0000 + i * 32

/-- A clip entry made ready for a lap's sums, its threshold kept (R224). -/
def clipReady (lap i : Nat) (s : State) : State :=
  let a := clipAddr s lap i
  if rdN s (a + 4) 4 = lap then s else store (a + 4) (bytesLE 4 lap ++ bytesLE 24 0) s

/-- A sum of squares added to a clip entry, with its scale (R224). The second result says whether the sum saturated. -/
def clipAdd (lap i : Nat) (sum : Nat) (sc : Int) (s : State) : State × Bool :=
  let s := clipReady lap i s
  let a := clipAddr s lap i
  let n := rdN s (a + 22) 2
  let flags := rdN s (a + 21) 1
  let total := rdN s (a + 8) 12 + sum
  let sat := decide (2 ^ 96 ≤ total)
  let mix := n != 0 && rdN s (a + 20) 1 != wrap 8 sc
  let flags := flags ||| (if mix then 2 else 0) ||| (if sat then 4 else 0)
  (store (a + 8) (bytesLE 12 (Nat.min total (2 ^ 96 - 1)) ++ bytesLE 1 (if n = 0 then wrap 8 sc else rdN s (a + 20) 1) ++ bytesLE 1 flags ++
    bytesLE 2 (Nat.min (n + 1) 0xFFFF)) s, sat)

/-- norm and f of a combined sum, scale and threshold, and whether the entry is bad (R225). -/
def clipResult (sum : Nat) (sc : Int) (flags c : Nat) : Nat × Nat × Bool :=
  let cv := f32 c
  let positive := !cv.isNan && !cv.sign && !cv.isZero
  let norm : Nat := if sum = 0 then 0 else sqrtTo Fmt.fp32 .rne (.fin false sum (2 * sc))
  if flags.testBit 1 || flags.testBit 2 || !positive then (0x7FC00000, 0x7FC00000, true)
  else
    match Mag.dy sum (2 * sc), cv with
    | .rat n d, .fin _ m e =>
      if sum = 0 then (0, 0x3F800000, false)
      else if 2 ^ 256 * d ≤ n then (0x7F800000, 0, false)
      else
        match Mag.dy (m * m) (2 * e) with
        | .rat a b =>
          if n * b ≤ a * d then (norm, 0x3F800000, false) else (norm, Fmt.fp32.encodeMag .rne false false (.root (a * d) (b * n)), false)
        | .root _ _ => (norm, 0x3F800000, false)
    | .rat n d, _ => (if 2 ^ 256 * d ≤ n then 0x7F800000 else norm, 0x3F800000, false)
    | .root _ _, _ => (norm, 0x3F800000, false)

/-- A combined clip entry published in the module, where its ready flag is clear (R225). -/
def clipPublish (err : Err) (lap i : Nat) (ws : List Nat) (s : State) : State :=
  let a := clipAddr s lap i
  let bs := ws.flatMap (bytesLE 4)
  if (rdN s (a + 21) 1).testBit 0 then s
  else
    let flags := field bs 13 1
    let (norm, f, bad) := clipResult (field bs 0 12) (sint 8 (field bs 12 1)) flags (rdN s a 4)
    let s := store (a + 24) (bytesLE 4 norm ++ bytesLE 4 f) s
    let s := store (a + 21) (bytesLE 1 (rdN s (a + 21) 1 ||| (flags &&& 6) ||| 1)) s
    let s := if flags.testBit 2 then reportOn lap 1 { err with addr := a } s else s
    if bad then reportOn lap 4 { err with addr := a } (raise { err with code := 0x0608, cont := contV, lap := lap, addr := a, detail := flagsOf s lap ||| 16 } s) else s

/-! ### The commit relay's outcome and automatic mirrors -/

/-- What the combined words of a commit relay say (R191, R249). -/
def exchangeOfWords (s : State) (ws : List Nat) : Exchange :=
  let bs := (ws.drop 2).flatMap (bytesLE 4)
  let tops := s.census.slots.filterMap (fun p =>
    let t := sint 8 (bs.getD p.1 0x80).toNat
    if t = -128 then none else some (p.1, t))
  ⟨(ws.headD 0) % 2 == 1, tops, (ws.getD 1 0) % 256⟩

/-- The mirrors that follow the commit of a lap (R262). -/
def autoMirrors (n : Nat) (s : State) : State :=
  let i := getF s .colMirrorCtl F.colMirrorCtl_interval
  let interval := if i = 0 then 50 else i
  if flag s .colMirrorCtl F.colMirrorCtl_enable && n % interval == 0 then
    let base := getF s .colMirrorTmpl F.colMirrorTmpl_base * 64 + n / interval % 2 * 64
    each [base, base + 128] (fun a s =>
      let bs := Mem.read s.mem a 64
      if field bs 0 1 % 16 = 15 then s else postRelay 0 { readExt bs with lap := n } .lapBlock s) s
  else s

/-- The commit relay has ended (R217 to R219): its lap dries, or is wiped. One that ended short brought no combined mask: the kinds that its wipe backs off are a free value (assumption 42). -/
def commitEnds (n outcome : Nat) (ws : List Nat) (s : State) : State :=
  if outcome < 2 then
    let x := exchangeOfWords s ws
    if x.vote then autoMirrors n (commitLap n x s) else wipeLap n x.mask s
  else
    let s := if outcome = 3 then raise { code := 0x060C, cont := contV, lap := n, detail := flagsOf s n } s else s
    wipeLap n ((freeOf s).toNat % 256) (freeTaken s)

/-! ### The end of a relay -/

/-- The combined words of an engine result. -/
def RelayRun.result (r : RelayRun) : List Nat :=
  (List.range r.post.ext.words).map (fun i => ((r.part.get? i).getD ((r.own.getD []).getD i 0)).toNat)

/-- The lap a status word names (Table 8.6): for a RESTORE the manifest's. -/
def RelayRun.statusLap (r : RelayRun) : Nat :=
  if r.post.ext.kind = 6 ∧ r.post.ext.op = 3 then ((r.part.get? 1).getD 0).toNat else r.post.ext.lap

/-- A relay ends with an outcome: its slot is freed, its lap hears of an error (R236, R260), its poster of the end, and the lap block of the commit relay's. -/
def endRelay (e slot outcome code : Nat) (s : State) : State :=
  match runAt s e slot with
  | none => s
  | some r =>
    let x := r.post.ext
    let s := modEngine e (fun g => { g with slots := g.slots.del slot }) s
    let s := if 2 ≤ outcome ∧ !x.lapless ∧ x.kind ≠ 6 then reportOn x.lap 2 (relayErr s e slot x 0 0 0 0) s else s
    if x.commits then commitEnds x.lap outcome r.result s else tellPoster r.post outcome code r.statusLap s

/-- A relay ends at once with outcome 2 and an error about a participant, which is recorded. -/
def failAbout (e slot code coord addr : Nat) (s : State) : State :=
  match runAt s e slot with
  | none => s
  | some r => endRelay e slot 2 code (raise (relayErr s e slot r.post.ext code coord 0 addr) s)

/-- A relay ends at once with outcome 2 and an error, which is recorded. -/
def failNow (e slot code addr : Nat) (s : State) : State := failAbout e slot code 0 addr s

/-- A mirror that cannot proceed (R259): its peer is told by an abort baton whose element index holds the code (assumption 39). -/
def mirrorFails (e slot : Nat) (s : State) : State :=
  match runAt s e slot with
  | none => s
  | some r => failNow e slot 0x050C 0 (sendBatons e r 3 0x050C r.others s)

/-- A relay whose memory a die reset takes (R252): outcome 4, and abort batons to every participant. -/
def targetResets (e slot addr : Nat) (s : State) : State :=
  match runAt s e slot with
  | none => s
  | some r =>
    endRelay e slot 4 0x050A (raise (relayErr s e slot r.post.ext 0x050A 0 0 addr) (sendBatons e r 3 0 r.others s))

/-- What memory refuses a relay: a die in reset ends it, poison or the lap block makes it an error. -/
def relayRefused (e slot code addr : Nat) (later : Bool) (s : State) : State :=
  if code = 0x0908 then targetResets e slot addr s
  else if later then failLater e slot code 0 0 addr s else failNow e slot code addr s

end Sys2Proof.Machine
end

