-- ==== Sys2Proof/Machine/RelayData.lean ====
section
/-! DEFINITION. The data of relays: what a module contributes, how contributions are combined and landed, and mirror streams (R239 to R249, R257 to R261). -/

namespace Sys2Proof.Machine

/-! ### The module's own contribution (R239, R246) -/

/-- `n` words of memory. -/
def wordsAt (s : State) (a n : Nat) : List Nat := (pieces 4 n (Mem.read s.mem a (4 * n))).map natLE

/-- Two lists combined element by element. -/
def zipWords (f : Nat → Nat → Nat) (a b : List Nat) : List Nat := (List.zip a b).map (fun p => f p.1 p.2)

/-- A saturating tally sum as a word, and whether it was clamped (R240). -/
def tallyWord (a b : Nat) : Nat × Bool :=
  let (v, c) := tallyClamp (tallyOf a + tallyOf b)
  (wrap 32 v, c)

/-- The lesser or greater of two bytes as int8. -/
def maxByte (a b : Nat) : Nat := if sint 8 a < sint 8 b then b else a

/-- One element combined, other than a clip entry's: by sum, maximum, minimum, OR or AND; the commit relay's words by their index (R240, R248, R249). -/
def combineWord (x : Ext) (i a b : Nat) : Nat × Bool :=
  if x.sums then tallyWord a b
  else if x.commits then
    if i = 0 then (a &&& b, false) else if i = 1 then (a ||| b, false)
    else (natLE ((List.range 4).map (fun k => BitVec.ofNat 8 (maxByte (bits a (8 * k) 8) (bits b (8 * k) 8)))), false)
  else if x.kind = 5 then (a &&& b, false)
  else
    match x.op with
    | 1 => (if sint 32 a < sint 32 b then b else a, false)
    | 2 => (if sint 32 b < sint 32 a then b else a, false)
    | _ => (a ||| b, false)

/-- Two clip entries of four words combined (R225). -/
def combineClip (a b : List Nat) : List Nat :=
  let p := a.flatMap (bytesLE 4)
  let q := b.flatMap (bytesLE 4)
  let np := field p 14 2
  let nq := field q 14 2
  let sum := field p 0 12 + field q 0 12
  let mix := np != 0 && nq != 0 && field p 12 1 != field q 12 1
  let flags := (field p 13 1 ||| field q 13 1 ||| (if mix then 2 else 0) ||| (if 2 ^ 96 ≤ sum then 4 else 0)) &&& 6
  let bs := bytesLE 12 (Nat.min sum (2 ^ 96 - 1)) ++ bytesLE 1 (if np = 0 then field q 12 1 else field p 12 1) ++ bytesLE 1 flags ++
    bytesLE 2 (Nat.min (np + nq) 0xFFFF)
  (pieces 4 4 bs).map natLE

/-- Runs of words of a relay combined, from an element on; with the elements at which one was clamped. -/
def combineRun (x : Ext) (first : Nat) (a b : List Nat) : List Nat × List Nat :=
  if x.exchanges then
    let n := (a.length + 3) / 4
    ((List.zip (pieces 4 n a) (pieces 4 n b)).flatMap (fun p => combineClip p.1 p.2), [])
  else
    let l := ((List.zip a b).zipIdx).map (fun p => combineWord x (first + p.2) p.1.1 p.1.2)
    (l.map (·.1), (l.zipIdx.filter (·.1.2)).map (first + ·.2))

/-- A tally word as a source holds it: -2^31 is taken as -(2^31 - 1) (R239). -/
def takeWord (x : Ext) (w : Nat) : Nat := if x.sums then wrap 32 (tallyOf w) else w

/-- The parts of a source combined; with the elements at which a sum was clamped. -/
def combineParts (s : State) (x : Ext) (n : Nat) : List Nat × List Nat :=
  let part (j : Nat) : List Nat := (wordsAt s (x.src + j * x.stride) n).map (takeWord x)
  ((List.range (x.parts - 1)).map (· + 1)).foldl (fun acc j =>
    let (l, c) := combineRun x 0 acc.1 (part j)
    (l, acc.2 ++ c)) (part 0, [])

/-- The key of a block of absolute values (R246). -/
def blockKey (xs : List Nat) : Nat :=
  let key (w : Nat) : Nat :=
    match f32 w with
    | .nan => 2047
    | .inf _ => 2047
    | .fin _ m e => if m = 0 then 0 else (4 * (finExp m e + 150)).toNat + (m * 4 / 2 ^ Nat.log2 m) % 4
  maxOf (xs.map key)

/-- The blocks kept of those with given keys, at a keep code (R246). -/
def keptBlocks (keep : Nat) (keys : List Nat) : List Nat :=
  let n := keys.length
  let k := (n + 2 ^ keep - 1) / 2 ^ keep
  let l := k + n / 100
  let star := maxOf (keys.filter (fun q => decide (k ≤ keys.countP (fun p => decide (q ≤ p)))))
  let above := (keys.zipIdx.filter (fun p => decide (star < p.1))).map (·.2)
  above ++ ((keys.zipIdx.filter (fun p => p.1 == star)).map (·.2)).take (l - above.length)

/-- A converted FP32 source: the words sent, the blocks kept, what the wet holdback becomes, and whether a value was clamped or non-finite (R239, R246). -/
def convertFp32 (s : State) (x : Ext) (sc : Int) : List Nat × List Nat × List Nat × Bool :=
  let dry := dryCopy s x.holdback
  let xs := zipWords (fun a b => rne32 ((f32 a).add (f32 b))) (wordsAt s x.src x.len) (wordsAt s (holdRange s x dry).1 x.len)
  let blocks := (x.len + 63) / 64
  let kept := if x.thin then keptBlocks x.keep ((pieces 64 blocks xs).map blockKey) else []
  let one (p : Nat × Nat) : Nat × Nat × Bool :=
    let v := f32 p.1
    if x.thin && !kept.contains (p.2 / 64) then (0, p.1, false)
    else
      let (n, c) := toInteger .rne (-tallyTop) tallyTop (v.mul (.pow2 (-sc)))
      (wrap 32 n, rne32 (v.add ((Val.ofInt n).mul (.pow2 sc)).neg), c || !v.isFin)
  let l := xs.zipIdx.map one
  (l.map (·.1), kept, l.map (·.2.1), l.any (·.2.2))

/-- The words of an all-to-all source: each slot's length in bytes, padded to words. -/
def slotWords (s : State) (x : Ext) : List Nat :=
  (List.range x.pmod).flatMap (fun j =>
    (pieces 4 ((x.len + 3) / 4) (padTo ((x.len + 3) / 4 * 4) (Mem.read s.mem (x.src + j * x.len) x.len))).map natLE)

/-- The clip entries a module brings to an exchange: bytes 8 to 23, empty where an entry is another lap's (assumption 37). -/
def clipWords (s : State) (x : Ext) : List Nat :=
  (List.range x.len).flatMap (fun i =>
    let a := clipAddr s x.lap (x.clipEntry + i)
    if rdN s (a + 4) 4 = x.lap then
      let bs := Mem.read s.mem (a + 8) 16
      (pieces 4 4 (bs.take 13 ++ bytesLE 1 (field bs 13 1 &&& 6) ++ bs.drop 14)).map natLE
    else [0, 0, 0, 0])

/-! ### Mirror streams (R257, R258) -/

/-- The copy of a region that a send-state relay reads: the dry copy of its lap, though a later lap has dried since (R261). -/
def mirrorCopy (s : State) (x : Ext) (r : Nat) : Nat :=
  match s.lap.dries.find? (fun p => !x.lapless && p.1 == x.lap) with
  | some p => p.2 / 2 ^ r % 2
  | none => dryCopy s r

/-- The regions that are mirrored, in order. -/
def mirrored (s : State) : List Nat := (validRegions s).filter (fun r => swaps (regionKind s r))

/-- The manifest of a send-state stream (Table 8.11), and its regions with their offsets. -/
def manifestOf (s : State) (x : Ext) : List Byte × Nat :=
  let rs := mirrored s
  let (es, next) := rs.foldl (fun (acc : List Byte × Nat) r =>
    (acc.1 ++ bytesLE 1 r ++ bytesLE 1 (regionKind s r) ++ bytesLE 1 (getF s (.lapRegionCfg r) F.lapRegionCfg_check) ++
      bytesLE 1 (getF s (.lapRegionCfg r) F.lapRegionCfg_carry) ++ bytesLE 4 (regionLen s r / 4096) ++ bytesLE 8 acc.2, acc.2 + regionLen s r)) ([], 4096)
  let units := (next - 4096 + 65535) / 65536
  let head := bytesLE 4 0x4D524B5A ++ bytesLE 4 (if x.lapless then s.lap.settled else x.lap) ++ bytesLE 2 (jobOf s) ++ bytesLE 2 (coordOf s) ++
    bytesLE 2 x.layout ++ bytesLE 1 rs.length ++ bytesLE 1 0 ++ bytesLE 4 units ++ bytesLE 4 1 ++ bytesLE 40 0
  (padTo 4096 (head ++ es), units)

/-- Words of a stream with `units` units of data. -/
def streamWords (units : Nat) : Nat := 1024 + units * 16384

/-- The stream of a sending mirror role, or none where it cannot be sent (R259). -/
def streamOf (s : State) (x : Ext) : Option (List Nat) :=
  let bytes (l : List Byte) (units : Nat) : List Nat :=
    (pieces 4 (streamWords units) (padTo (4 * streamWords units) l)).map natLE
  if x.op = 0 then
    let (m, units) := manifestOf s x
    if x.len * 65536 < 4096 + units * 65536 ∨ (mirrored s).isEmpty then none
    else some (bytes (m ++ (mirrored s).flatMap (fun r => Mem.read s.mem (regionBase s r (mirrorCopy s x r)) (regionLen s r))) units)
  else
    let units := rdN s (x.src + 16) 4
    if rdN s x.src 4 ≠ 0x4D524B5A ∨ rdN s (x.src + 20) 4 ≠ 1 ∨ x.len * 65536 < 4096 + units * 65536 then none
    else some (bytes (Mem.read s.mem x.src (4 * streamWords units)) units)

/-- The memory a sending mirror role reads. -/
def streamReads (s : State) (x : Ext) : List (Nat × Nat) :=
  if x.op = 0 then (mirrored s).map (fun r => (regionBase s r (mirrorCopy s x r), regionLen s r))
  else [(x.src, 4096 + rdN s (x.src + 16) 4 * 65536)]

/-! ### Conversion -/

/-- A relay's own contribution is formed, once: its source is read, combined and converted, and the wet holdback written (R239). Where memory refuses it the relay ends. -/
def ensureOwn (e slot : Nat) (s : State) : State :=
  match runAt s e slot with
  | none => s
  | some r =>
    let x := r.post.ext
    let set (ws kept : List Nat) (s : State) : State :=
      modRun e slot (fun r => { r with own := some (ws.map (BitVec.ofNat 32)), kept := kept }) s
    if r.own.isSome then s
    else
      let hold := holdRange s x (1 - dryCopy s x.holdback)
      let fp := x.fp32 && x.sums
      let reads := if x.kind = 6 then streamReads s x
        else if x.exchanges then [(clipAddr s x.lap x.clipEntry, 32 * x.len)]
        else (sourceRanges x r.group r.me) ++ (if fp then [holdRange s x (dryCopy s x.holdback)] else [])
      let s := readChecked (16 + e) reads (if fp then [hold] else []) s
      match memoryRefuses s (16 + e) reads (if fp then [hold] else []) with
      | some (code, a) => relayRefused e slot code a false s
      | none =>
        if x.exchanges then set (clipWords s x) [] s
        else
          match x.kind with
          | 4 => set (slotWords s x) [] s
          | 6 =>
            match streamOf s x with
            | some ws => set ws [] s
            | none => mirrorFails e slot s
          | 1 => set (wordsAt s x.src (shardHi x r.group r.me - shardLo r.group r.me)) [] s
          | _ =>
            if fp then
              let code := lapCode s true hold.1 hold.2
              if code ≠ 0 then failNow e slot code hold.1 s
              else
                let (ws, kept, wet, bad) := convertFp32 s x r.s
                let s := relayTest e slot hold.1 hold.2 (store hold.1 (wet.flatMap (bytesLE 4)) s)
                let s := set ws kept s
                if bad then relaySaturated e slot 0 true s else s
            else
              let (ws, sat) := combineParts s x x.words
              let s := modRun e slot (fun r => { r with flow := sat.map (fun i => (i, 1)) ++ r.flow }) (set ws [] s)
              if sat.isEmpty then s else relaySaturated e slot x.src true s

/-- Words of the module's own contribution, from an element on. -/
def RelayRun.ownWords (r : RelayRun) (lo n : Nat) : List Nat :=
  let base := if r.post.ext.kind = 1 then shardLo r.group r.me else 0
  let l := (((r.own.getD []).drop (lo - base)).take n).map (·.toNat)
  l ++ List.replicate (n - l.length) 0

/-- Words that a relay passes on: its own, or those that its engine holds in their place. -/
def RelayRun.heldWords (r : RelayRun) (lo n : Nat) : List Nat :=
  (List.zip (List.range n) (r.ownWords lo n)).map (fun p => ((r.part.get? (lo + p.1)).map (·.toNat)).getD p.2)

/-! ### Landing (R207, R240, R241, R244, R245, R247, R248) -/

/-- The residue of tally words (R244). -/
def residueOf (ws : List Nat) : Nat := ((ws.map tallyOf).foldl (· + ·) 0 % 65521).toNat

/-- Where an element lands; for an all-to-all the element of a sender's slot. -/
def RelayRun.zoneAddr (r : RelayRun) (sender i : Nat) : Nat :=
  let x := r.post.ext
  match x.kind with
  | 0 => x.dst + 4 * (i - shardLo r.group r.me)
  | 4 => x.dst + sender * x.len + 4 * i
  | _ => x.dst + 4 * i

/-- Whether a run of elements meets one that is flagged. -/
def flaggedIn (flags : List (Nat × Nat)) (a n : Nat) : Bool := rangeMeets a n flags

/-- One block of a sum zone of `total` words: the words that land are added and stored, and the residues compared, unless an input's flag or the output's is set (R245). Zone word `z` is
element `first` of the contribution. -/
def landSumBlock (e slot total z first : Nat) (ws : List Nat) (flags : List (Nat × Nat)) (b : Nat) (s : State) : State :=
  match runAt s e slot with
  | none => s
  | some r =>
    let block := r.post.ext.dst + 240 * b
    let resid := r.post.ext.resid + 2 * b
    let lo := Nat.max z (60 * b)
    let a := r.post.ext.dst + 4 * lo
    let add := (ws.drop (lo - z)).take (Nat.min (60 * b + 60) total - lo)
    let sums := (List.zip (wordsAt s a add.length) add).map (fun p => tallyWord p.1 p.2)
    let sat := sums.any (·.2)
    let s := if sat then relaySaturated e slot block true s else s
    let s := store a (sums.flatMap (fun p => bytesLE 4 p.1)) s
    let new := residueOf (wordsAt s block (Nat.min 60 (total - 60 * b)))
    let good := flaggedIn flags (first + lo - z) add.length || sat || (rdN s resid 2 + residueOf add) % 65521 == new
    let s := store resid (bytesLE 2 new) s
    if good then s else failLater e slot 0x0501 0 b block s

/-- One block of a zone that combines: the first contribution to land is written, later ones are combined (R248). -/
def landCombine (e slot z : Nat) (ws : List Nat) (b : Nat) (s : State) : State :=
  match runAt s e slot with
  | none => s
  | some r =>
    let lo := Nat.max z (60 * b)
    let n := Nat.min (z + ws.length) (60 * b + 60) - lo
    let new := (ws.drop (lo - z)).take n
    let a := r.post.ext.dst + 4 * lo
    let out := if r.landed.contains b then (combineRun r.post.ext lo (wordsAt s a n) new).1 else new
    modRun e slot (fun r => { r with landed := if r.landed.contains b then r.landed else b :: r.landed }) (store a (out.flatMap (bytesLE 4)) s)

/-- Words land in the zone, unless the memory or the lap block refuses them: then the relay will end with that error. `flags` are the runs of elements whose flag is set. -/
def landWords (e slot sender lo : Nat) (ws : List Nat) (flags : List (Nat × Nat)) (s : State) : State :=
  match runAt s e slot with
  | none => s
  | some r =>
    let x := r.post.ext
    let a := r.zoneAddr sender lo
    let n := if x.kind = 4 then Nat.min (4 * ws.length) (x.len - 4 * lo) else 4 * ws.length
    if n = 0 then s
    else
      let z := (a - x.dst) / 4
      let blocks := (List.range ((z + ws.length + 59) / 60 - z / 60)).map (z / 60 + ·)
      let writes := (a, n) :: (if x.sums then [(x.resid + 2 * (z / 60), 2 * blocks.length)] else [])
      let total := zoneBytes x r.group r.me
      let whole (b : Nat) : Nat × Nat := (x.dst + 240 * b, Nat.min 240 (total - 240 * b))
      let reads := if x.sums then writes ++ blocks.map whole
        else if x.kind = 2 ∨ x.kind = 5 then (blocks.filter r.landed.contains).map whole else []
      let s := readChecked (16 + e) reads writes s
      match memoryRefuses s (16 + e) reads writes with
      | some (code, u) => relayRefused e slot code u true s
      | none =>
        match writes.find? (fun p => lapCode s true p.1 p.2 != 0) with
        | some p => failLater e slot (lapCode s true p.1 p.2) 0 0 p.1 s
        | none =>
          let s :=
            if x.sums then each blocks (landSumBlock e slot (zoneBytes x r.group r.me / 4) z lo ws flags) s
            else if x.kind = 2 ∨ x.kind = 5 then each blocks (landCombine e slot z ws) s
            else store a ((ws.flatMap (bytesLE 4)).take n) s
          each writes (fun p s => relayTest e slot p.1 p.2 s) s

/-! ### Mirrors received (R258 to R260) -/

/-- A region entry of a manifest (Table 8.11). -/
structure ManifestEntry where
  region : Nat
  kind : Nat
  check : Nat
  carry : Nat
  pages : Nat
  off : Nat

/-- The manifest that a mirror has received. -/
def RelayRun.manifest (r : RelayRun) : List Byte := (List.range 1024).flatMap (fun i => bytesLE 4 ((r.part.get? i).getD 0).toNat)

/-- The region entries of a manifest. -/
def manifestEntries (m : List Byte) : List ManifestEntry :=
  (List.range (field m 14 1)).map (fun i =>
    let o := 64 + 16 * i
    ⟨field m o 1, field m (o + 1) 1, field m (o + 2) 1, field m (o + 3) 1, field m (o + 4) 4, field m (o + 8) 8⟩)

/-- Whether a received manifest breaks R259. -/
def manifestBad (s : State) (x : Ext) (m : List Byte) : Bool :=
  let es := manifestEntries m
  field m 0 4 != 0x4D524B5A || field m 20 4 != 1 ||
  (if x.op = 3 then
    es.any (fun e => !(regionValid s e.region && decide (e.region < 64) && regionKind s e.region == e.kind &&
      getF s (.lapRegionCfg e.region) F.lapRegionCfg_check == e.check && regionLen s e.region == e.pages * 4096)) || !es.any (·.kind == 5)
  else decide (x.len * 65536 < 4096 + field m 16 4 * 65536))

/-- Where byte `o` of a mirror goes: into the area, or into copy 0 of the region whose data it is. -/
def mirrorAddr (s : State) (x : Ext) (es : List ManifestEntry) (o : Nat) : Option Nat :=
  if x.op = 1 then some (x.dst + o)
  else (es.find? (fun e => decide (e.off ≤ o ∧ o < e.off + e.pages * 4096))).map (fun e => regionBase s e.region 0 + (o - e.off))

/-- Words to be stored, those at consecutive addresses together. -/
def storeRuns : List (Nat × Nat) → List (Nat × List Nat)
  | [] => []
  | (a, w) :: l =>
    match storeRuns l with
    | (b, ws) :: rs => if b = a + 4 then (a, w :: ws) :: rs else (a, [w]) :: (b, ws) :: rs
    | [] => [(a, [w])]

/-- A relay stores a word that marks its area, unless the memory refuses it (R258, R302). -/
def storeMark (e slot a v : Nat) (s : State) : State :=
  let s := readChecked (16 + e) [] [(a, 4)] s
  match memoryRefuses s (16 + e) [] [(a, 4)] with
  | some (code, u) => relayRefused e slot code u true s
  | none => store a (bytesLE 4 v) s

/-- A run of words of a mirror stream is written. The manifest is kept until it is whole and then checked; its complete word is written 0 first and 1 last of all. A restore's writes are never refused (Table 7.5). -/
def landMirror (e slot lo : Nat) (ws : List Nat) (s : State) : State :=
  match runAt s e slot with
  | none => s
  | some r =>
    let x := r.post.ext
    let s := if x.op = 1 ∧ r.part.isEmpty then storeMark e slot (x.dst + 20) 0 s else s
    let head : List (Nat × Nat) := (ws.zipIdx.map (fun p => (lo + p.2, p.1))).filter (fun p => decide (p.1 < 1024))
    let r : RelayRun := { r with part := head.foldl (fun t p => t.set p.1 (BitVec.ofNat 32 p.2)) r.part }
    let s := modRun e slot (fun q => { q with part := r.part }) s
    let whole := decide (1024 ≤ r.part.length)
    let m := r.manifest
    if whole && manifestBad s x m then mirrorFails e slot s
    else if !whole && ws.length + lo > 1024 then mirrorFails e slot s
    else
      let es := manifestEntries m
      let skip := if x.op = 1 then 0 else 1024
      let parts : List (Nat × Nat) := (ws.zipIdx.map (fun p => (lo + p.2, p.1))).filter (fun p => decide (skip ≤ p.1) && p.1 != 5)
      let refused := if x.op = 1 then lapCode s true (x.dst + 4 * lo) (4 * ws.length) else 0
      if refused ≠ 0 then failLater e slot refused 0 0 (x.dst + 4 * lo) s
      else
        let runs : List (Nat × List Nat) := storeRuns (parts.filterMap (fun (p : Nat × Nat) => (mirrorAddr s x es (4 * p.1)).map (fun a => (a, p.2))))
        let writes := runs.map (fun q => (q.1, 4 * q.2.length))
        let s := readChecked (16 + e) [] writes s
        match memoryRefuses s (16 + e) [] writes with
        | some (code, u) => relayRefused e slot code u true s
        | none => each runs (fun q s => store q.1 (q.2.flatMap (bytesLE 4)) s) s

end Sys2Proof.Machine
end

