-- ==== Sys2Proof/Machine/Relays.lean ====
section
/-! DEFINITION. Relays as they run: start, sending, arrival, landing, completion, timeout, cancel, resets, layouts, and the posting of relays (R229 to R263, R95). -/

namespace Sys2Proof.Machine

/-! ### What has come and gone -/

/-- Words that an incoming transfer needs before it is whole: an all-to-all slot's count and a mirror's manifest say how many (R248, R258). -/
def needOf (s : State) (r : RelayRun) (i : Nat) (x : Xfer) : Nat :=
  let ext := r.post.ext
  let got := r.got.get i 0
  if ext.kind = 4 then
    if got = 0 ∨ ext.len < 4 then x.n
    else
      let c := Nat.min (rdN s (ext.dst + x.peer * ext.len) 4) (ext.len - 4)
      Nat.min x.n ((4 + c + 239) / 240 * 60)
  else if ext.kind = 6 then (if r.part.length < 1024 then 1025 else streamWords (field r.manifest 16 4))
  else x.n

/-- Whether an incoming transfer is whole. -/
def gotAll (s : State) (r : RelayRun) (p : Nat × Xfer) : Bool := decide (needOf s r p.1 p.2 ≤ r.got.get p.1 0)

/-- Every incoming transfer of a relay. -/
def RelayRun.ins (r : RelayRun) : List (Nat × Xfer) := r.xfers.filter (fun p => !p.2.out)

/-- Every outgoing transfer of a relay. -/
def RelayRun.outs (r : RelayRun) : List (Nat × Xfer) := r.xfers.filter (fun p => p.2.out)

/-- Whether the module's own data is to land and can: at the root of a tree once every other part has been added. -/
def ownDue (s : State) (r : RelayRun) : Bool :=
  r.landsOwn && !r.selfDone && (r.post.ext.topo == 0 || !([2, 5].contains r.post.ext.kind) || r.ins.all (gotAll s r))

/-- Whether a relay has received and landed everything it must (R236). -/
def allLanded (s : State) (r : RelayRun) : Bool := r.arrived.isEmpty && r.ins.all (gotAll s r) && (r.selfDone || !r.landsOwn)

/-- Done batons to the participants whose data has all landed (R236). -/
def sendDone (e slot : Nat) (s : State) : State :=
  match runAt s e slot with
  | none => s
  | some r =>
    let full (i : Nat) : Bool := r.ins.any (·.2.peer == i) && (r.ins.filter (·.2.peer == i)).all (gotAll s r) && !r.arrived.any (·.sender == i)
    let dest := r.others.filter (fun i => full i && !r.doneSent.contains i)
    sendBatons e r 2 0 dest (modRun e slot (fun r => { r with doneSent := r.doneSent ++ dest }) s)

/-! ### Arrival (R252, R256) -/

/-- A packet reaches its relay: data waits to be handled, batons are noted, an abort baton ends the relay. -/
def reach (e slot : Nat) (p : RelayPkt) (s : State) : State :=
  match runAt s e slot with
  | none => s
  | some r =>
    match p.type with
    | 0 => modRun e slot (fun r => { r with arrived := r.arrived ++ [p] }) s
    | 1 => modRun e slot (fun r => { r with ready := p.sender :: r.ready }) s
    | 2 => modRun e slot (fun r => { r with done := p.sender :: r.done }) s
    | 3 =>
      if r.post.ext.kind = 6 ∧ p.first = 0x050C then failNow e slot 0x050C 0 s
      else
        let s := sendBatons e r 3 0 (r.others.filter (· != p.sender)) s
        endRelay e slot 5 0x050B (raise (relayErr s e slot r.post.ext 0x050B (r.coordAt p.sender) 0 0) s)
    | _ => s

/-- A packet that no relay takes, or that comes under another layout: discarded, recorded, and its fibre's ingress frozen (R256). -/
def strayPacket (e l code : Nat) (p : RelayPkt) (s : State) : State :=
  freezeIn l 0 (raise { code := code, cont := contF, die := 16 + e, mkind := 4, midx := fibreOf l, lap := p.lap, detail := p.tag } s)

/-- The layout check of a packet that matches a relay, and its delivery (R256). -/
def offer1 (e slot l : Nat) (p : RelayPkt) (s : State) : State :=
  match runAt s e slot with
  | none => s
  | some r => if p.layout ≠ r.post.ext.layout then strayPacket e l 0x0506 p s else reach e slot p s

/-- The slot of the relay of an engine that a packet's tag and lap name, where its sender is another of its participants. -/
def matching (s : State) (e : Nat) (p : RelayPkt) : Option Nat :=
  ((engineAt s e).slots.find? (fun q =>
    let x := q.2.post.ext
    x.tag == p.tag && x.lap == p.lap && decide (p.sender < x.pmod) && p.sender != q.2.me)).map (·.1)

/-- Whether a relay of that tag and lap has started on an engine. -/
def started (s : State) (e : Nat) (p : RelayPkt) : Bool := (engineAt s e).slots.any (fun q => q.2.post.ext.tag == p.tag && q.2.post.ext.lap == p.lap)

/-- A relay packet of the job comes to an engine (R256): a baton for a relay that has not started there is held. -/
def relayArrives (e l : Nat) (p : RelayPkt) (s : State) : State :=
  match matching s e p with
  | some slot => offer1 e slot l p s
  | none =>
    let g := engineAt s e
    if !started s e p && (p.type == 1 || p.type == 2 || p.type == 3) && decide (g.held.length < 16384) then
      modEngine e (fun g => { g with held := g.held ++ [(l, p)] }) s
    else strayPacket e l (if p.layout ≠ layoutNow s then 0x0506 else 0x0507) p s

/-! ### Start (R229, R230, R234, R237, R253) -/

/-- The slots a relay other than the commit relay may take: ED0 keeps one. -/
def openSlots (e : Nat) : Nat := if e = 0 then 63 else 64

/-- A relay that never starts: it ends with outcome 2 and a code. -/
def startFails (e : Nat) (p : Post) (outcome code : Nat) (s : State) : State :=
  let s := raise (relayErr s e 0 p.ext code 0 0 0) s
  let s := if !p.ext.lapless ∧ p.ext.kind ≠ 6 then reportOn p.ext.lap 2 (relayErr s e 0 p.ext 0 0 0 0) s else s
  tellPoster p outcome code p.ext.lap s

/-- Zone and residues zeroed at the start of a relay with init set, other than one that combines by maximum, minimum or OR. -/
def zeroZone (e slot : Nat) (s : State) : State :=
  match runAt s e slot with
  | none => s
  | some r =>
    let x := r.post.ext
    let n := zoneBytes x r.group r.me
    if !x.init || (x.kind == 2 && !x.sums) || n == 0 then s
    else
      let m := residBytes x r.group r.me
      let s := readChecked (16 + e) [] [(x.dst, n), (x.resid, m)] s
      match memoryRefuses s (16 + e) [] [(x.dst, n), (x.resid, m)] with
      | some (code, a) => relayRefused e slot code a false s
      | none =>
        match [(x.dst, n), (x.resid, m)].find? (fun p => lapCode s true p.1 p.2 != 0) with
        | some p => failNow e slot (lapCode s true p.1 p.2) p.1 s
        | none =>
          each [(x.dst, n), (x.resid, m)] (fun p s =>
            if p.2 = 0 then s else relayTest e slot p.1 p.2 (freshen p.1 p.2 { s with mem := Mem.zero s.mem p.1 p.2 })) s

/-- Held packets of a relay that has started are delivered in the order they came. -/
def deliverHeld (e slot : Nat) (s : State) : State :=
  match runAt s e slot with
  | none => s
  | some r =>
    let mine (q : Nat × RelayPkt) : Bool := q.2.tag == r.post.ext.tag && q.2.lap == r.post.ext.lap
    let held := (engineAt s e).held.filter mine
    let s := modEngine e (fun g => { g with held := g.held.filter (fun q => !mine q) }) s
    each held (fun q s =>
      if decide (q.2.sender < r.post.ext.pmod) && q.2.sender != r.me then offer1 e slot q.1 q.2 s
      else strayPacket e q.1 (if q.2.layout ≠ layoutNow s then 0x0506 else 0x0507) q.2 s) s

/-- A relay takes a slot: its timeout runs, ready batons go to those that will send to it, held packets are delivered. -/
def placeRelay (e slot : Nat) (p : Post) (g : List GroupEntry) (crc : Nat) (own : Option (List (BitVec 32))) (s : State) : State :=
  let me := ownIndex s g
  let ms := if p.ext.timeout = 0 then getF s (.colTimeout e) F.colTimeout_ms else p.ext.timeout
  let r : RelayRun := ⟨p, g, me, scaleOf s p.ext, crc, own, [], [], [], [], [], [], [], [], [], false, false, 0, [], nowNs s, ms * 10 ^ 6, false⟩
  let s := zeroZone e slot (modEngine e (fun g => { g with slots := g.slots.set slot r }) s)
  match runAt s e slot with
  | none => s
  | some r =>
    let dest := r.others.filter (fun i => r.ins.any (·.2.peer == i))
    let unreached := r.others.find? (fun i => (reachOf s e (r.coordAt i)).isNone && r.xfers.any (·.2.peer == i))
    match unreached with
    | some i => failAbout e slot 0x0706 (r.coordAt i) 0 s
    | none => deliverHeld e slot (sendDone e slot (sendBatons e r 1 0 dest s))

/-- The oldest post of an engine starts, where a slot is free (R230, R234). -/
def relayStart (e : Nat) (s : State) : State :=
  let g := engineAt s e
  match g.posts, (List.range (openSlots e)).find? (fun n => (g.slots.get? n).isNone) with
  | p :: rest, some slot =>
    let s := wakeAll (modEngine e (fun g => { g with posts := rest }) s)
    let die := 16 + e
    let s := readChecked die [(p.ext.group, 8 * p.ext.pmod)] [] s
    let bs := groupBytes s p.ext
    let list := readGroup bs p.ext.pmod
    match memoryRefuses s die [(p.ext.group, 8 * p.ext.pmod)] [] with
    | some (code, _) => if code = 0x0908 then startFails e p 4 0x050A s else startFails e p 2 code s
    | none =>
      if extBad s p.ext list false then startFails e p 2 0x0502 s
      else if (allRuns s).any (fun q => q.2.2.post.ext.tag == p.ext.tag && q.2.2.post.ext.lap == p.ext.lap) then startFails e p 2 0x050D s
      else if p.ext.layout ≠ p.bound then startFails e p 2 0x0505 s
      else if p.ext.kind = 6 ∧ p.ext.op = 3 ∧ s.lap.state ≠ 0 then startFails e p 2 0x050C s
      else placeRelay e slot p list (crc32c bs) none s
  | _, _ => s

/-- The participants of the job's votes (R217): the members of the lane plan by rising coordinate, or the module alone. -/
def voters (s : State) : List GroupEntry :=
  let entry (c : Nat) : GroupEntry := ⟨c % 16, c / 16 % 16, c / 256, 0, 0, false⟩
  match s.fabric.plan with
  | some p => if p.members.contains (coordOf s) then (sortBy id p.members).map entry else [entry (coordOf s)]
  | none => [entry (coordOf s)]

/-- The words of a local vote with its census exchange (R191, R249). -/
def exchangeWords (x : Exchange) : List (BitVec 32) :=
  let top (i : Nat) : Byte := BitVec.ofNat 8 (wrap 8 ((x.tops.find? (fun p => p.1 == i)).elim (-128) (·.2)))
  BitVec.ofNat 32 x.vote.toNat :: BitVec.ofNat 32 x.mask ::
    (List.range 1024).map (fun j => BitVec.ofNat 32 (natLE ((List.range 4).map (fun k => top (4 * j + k)))))

/-- The commit relay of a lap starts in the slot that ED0 keeps for it (R217, R229, R249). -/
def startCommit (n layout : Nat) (x : Exchange) (s : State) : State :=
  let g := voters s
  let bytes := g.flatMap (fun m => bytesLE 2 m.coord ++ bytesLE 6 0)
  let ext : Ext := ⟨5, 0, 1, false, false, false, false, false, false, false, 0, 1, n, 0xFFFFFFFF, layout, 0, 0, 0, 0, 0, 0, 1, g.length, 0, 0, 0, 0, false⟩
  let post : Post := ⟨s.nextId, ext, .lapBlock, layout, 0, false⟩
  placeRelay 0 63 post g (crc32c bytes) (some (exchangeWords x)) { s with nextId := s.nextId + 1 }

/-! ### Sending (R237, R239, R243, R320) -/

/-- The most data flits a packet to a participant carries. -/
def dataFlits (s : State) (e : Nat) (coord : Nat) : Nat :=
  (reachOf s e coord).elim 15 (fun r => Nat.max 1 (Nat.min 15 (packetLimit s e r.chan - 1)))

/-- The runs of elements that data flit `i` of a packet carries (Table 8.7). -/
def flitRuns (p : RelayPkt) (thin : Bool) (i : Nat) : List (Nat × Nat) :=
  if thin then
    p.blocks.zipIdx.filterMap (fun b =>
      let a := Nat.max (60 * i) (64 * b.2)
      let z := Nat.min (60 * i + 60) (64 * b.2 + 64)
      if a < z then some (b.1 + (a - 64 * b.2), z - a) else none)
  else [(p.first + 60 * i, 60)]

/-- Runs of elements cut to a range. -/
def clipRuns (lo n : Nat) (l : List (Nat × Nat)) : List (Nat × Nat) :=
  (l.map (fun p => (Nat.max lo p.1, Nat.min (lo + n) (p.1 + p.2) - Nat.max lo p.1))).filter (·.2 != 0)

/-- A packet of a transfer with the overflow flags of its flits (R240). -/
def RelayRun.withFlags (r : RelayRun) (thin : Bool) (lo n : Nat) (p : RelayPkt) : RelayPkt :=
  { p with overflow := maskOf ((List.range ((p.words.length + 59) / 60)).filter (fun i => meet (flitRuns p thin i) (clipRuns lo n r.flow))) }

/-- The packets of a dense transfer. -/
def densePackets (r : RelayRun) (flits lo : Nat) (ws : List Nat) : List RelayPkt :=
  let n := 60 * flits
  (pieces n ((ws.length + n - 1) / n) ws).zipIdx.map (fun p => r.withFlags false lo ws.length (relayPacket r 0 (lo + n * p.2) [] p.1))

/-- The blocks that a thinned relay has to send: those that the module keeps and those of the contributions that its engine has combined with its own (R246). -/
def RelayRun.carried (r : RelayRun) : List Nat := sortBy id ((r.kept ++ r.part.map (fun (p : Nat × BitVec 32) => p.1 / 64)).eraseDups)

/-- The packets of a thinned transfer: the blocks carried that meet its words, with 0 for elements outside them; a packet without blocks ends it (assumption 36). -/
def thinPackets (r : RelayRun) (flits lo n : Nat) : List RelayPkt :=
  let mine := r.carried.filter (fun b => decide (64 * b < lo + n ∧ lo < 64 * b + 64))
  let per := Nat.max 1 (Nat.min 14 (60 * flits / 64))
  let word (i : Nat) : Nat := if lo ≤ i ∧ i < lo + n then (r.heldWords i 1).headD 0 else 0
  (pieces per ((mine.length + per - 1) / per) mine).map (fun bs =>
    r.withFlags true lo n (relayPacket r 0 (64 * bs.headD 0) (bs.map (64 * ·)) (bs.flatMap (fun b => (List.range 64).map (fun k => word (64 * b + k)))))) ++
  [relayPacket r 0 (lo + n) [] []]

/-- The packets of a transfer. -/
def packetsFor (s : State) (e : Nat) (r : RelayRun) (x : Xfer) : List RelayPkt :=
  let ext := r.post.ext
  let flits := dataFlits s e (r.coordAt x.peer)
  match ext.kind with
  | 4 =>
    let w := (ext.len + 3) / 4
    let ws := r.ownWords (x.peer * w) w
    let c := Nat.min (ws.headD 0) (ext.len - 4)
    densePackets r flits 0 (if ext.len < 4 then ws else ws.take ((4 + c + 239) / 240 * 60))
  | 6 => densePackets r flits 0 ((r.own.getD []).map (·.toNat))
  | _ =>
    if ext.thin && ext.sums then thinPackets r flits x.lo x.n else densePackets r flits x.lo (r.heldWords x.lo x.n)

/-- The next transfer to a participant that can go: its ready baton is held, and everything it passes on has come (R237). -/
def nextOut (s : State) (r : RelayRun) (part : Nat) : Option (Nat × Xfer) :=
  if r.ready.contains part then
    r.outs.find? (fun p => p.2.peer == part && !r.sent.contains p.1 && (feeds r p.2).all (gotAll s r) && (feeds r p.2 == [] || !r.arrived.any (·.type == 0)))
  else none

/-- A transfer goes to a participant (R237). -/
def relaySend (e slot part : Nat) (s : State) : State :=
  match (runAt s e slot).bind (nextOut s · part) with
  | none => s
  | some (i, x) =>
    let s := ensureOwn e slot s
    match runAt s e slot with
    | none => s
    | some r =>
      match (packetsFor s e r x).foldl (fun (t : Option State) p => t.bind (sendRelay e r part p)) (some s) with
      | none => failAbout e slot 0x0706 (r.coordAt part) 0 s
      | some s => modRun e slot (fun r => { r with sent := i :: r.sent }) s

/-- Packets that a plan has left without reach (R328, R330): a relay whose packet it is ends with 0x0706; a far queue's packet goes on waiting, its peer recorded where it was not
before among `old`. -/
def unreachable (old : List (Nat × Packet)) (s : State) : State :=
  let lost := s.fabric.stranded
  let s := modFab (fun b => { b with stranded := lost.filter (fun q => q.2.cls == 2) }) s
  let s := each lost (fun q s =>
    match q.2.cargo with
    | .relay p =>
      ((engineAt s q.1).slots.find? (fun r => r.2.post.ext.tag == p.tag && r.2.post.ext.lap == p.lap)).elim s
        (fun r => failAbout q.1 r.1 0x0706 (q.2.dest.getD 0) 0 s)
    | .write _ => s) s
  let far (l : List (Nat × Packet)) : List (Nat × Nat) := (l.filterMap (fun q => if q.2.cls = 2 then q.2.dest.map (fun d => (q.1, d)) else none)).eraseDups
  each ((far lost).filter (fun x => !(far old).contains x)) (fun x => raise { code := 0x0706, cont := contE, die := 16 + x.1, detail := x.2 * 2 ^ 16 }) s

/-! ### Contributions (R240 to R249) -/

/-- Words combined in the engine, or kept to be passed on: a relay that only copies, and a result on its way down, take the place of what was there. -/
def holdWords (e slot : Nat) (x : Xfer) (lo : Nat) (ws : List Nat) (flags : List (Nat × Nat)) (s : State) : State :=
  match runAt s e slot with
  | none => s
  | some r =>
    let ext := r.post.ext
    let copies := ext.kind == 1 || ext.kind == 3 || x.phase == 1
    let (new, sat) := if copies then (ws, []) else combineRun ext lo (r.heldWords lo ws.length) ws
    let flow := clipRuns lo ws.length flags ++ sat.map (fun i => (i, 1))
    let s := modRun e slot (fun r => { r with
      part := (new.zipIdx.foldl (fun t p => t.set (lo + p.2) (BitVec.ofNat 32 p.1)) r.part), flow := flow ++ r.flow }) s
    if sat.isEmpty then s else relaySaturated e slot 0 true s

/-- Words of a contribution are handled: landed, combined, or both. -/
def takeWords (e slot : Nat) (x : Xfer) (sender lo : Nat) (ws : List Nat) (flags : List (Nat × Nat)) (s : State) : State :=
  match runAt s e slot with
  | none => s
  | some r =>
    if ws.isEmpty then s
    else if r.post.ext.kind = 6 then landMirror e slot lo ws s
    else
      let s := if r.lands x then landWords e slot sender lo ws flags s else s
      if !r.lands x || (r.post.ext.topo != 0 && r.post.ext.kind != 0) then holdWords e slot x lo ws flags s else s

/-- The words of a transfer are counted as handled. -/
def countWords (e slot i n : Nat) (s : State) : State := modRun e slot (fun r => { r with got := r.got.set i (r.got.get i 0 + n) }) s

/-- The runs of elements that a data packet carries, with their words: its blocks where it is thinned. -/
def runsOf (p : RelayPkt) (thin : Bool) : List (Nat × List Nat) :=
  let ws := p.words.map (·.toNat)
  if thin then p.blocks.zipIdx.map (fun b => (b.1, (ws.drop (64 * b.2)).take 64)) else if ws.isEmpty then [] else [(p.first, ws)]

/-- A run cut to a range of elements, and whether what was cut off is only filling: less than a flit beyond the end, and 0; a thinned block may stand out at both ends. -/
def cutRun (thin : Bool) (lo n first : Nat) (ws : List Nat) : Nat × List Nat × Bool :=
  let off := lo - first
  let start := Nat.max lo first
  let stay := (ws.drop off).take (lo + n - start)
  let beyond := first + ws.length - (lo + n)
  let clean := thin || (decide (lo ≤ first) && decide (beyond < 60) && (ws.drop (off + stay.length)).all (· == 0))
  (start, stay, clean && decide (first < lo + n) && decide (lo < first + ws.length))

/-- Flits of a packet whose residue does not check on receipt (R245); a flit with its overflow flag is not checked. -/
def badFlit (p : RelayPkt) : Option Nat :=
  (List.range ((p.words.length + 59) / 60)).find? (fun i =>
    !p.overflow.testBit i && residueOf (((p.words.drop (60 * i)).take 60).map (·.toNat)) != p.residues.getD i 0)

/-- A data packet is handled (R241, R242, R245): other scales, group lists and ranges are not added; flits whose residue fails are recorded. -/
def handleData (e slot : Nat) (p : RelayPkt) (s : State) : State :=
  match runAt s e slot with
  | none => s
  | some r =>
    let ext := r.post.ext
    let thin := ext.thin && ext.sums
    let coord := r.coordAt p.sender
    let ins := r.ins.filter (·.2.peer == p.sender)
    let limit (q : Nat × Xfer) : Nat := if ext.kind = 6 then 2 ^ 64 else q.2.n
    let runs := runsOf p thin
    let fits (q : Nat × Xfer) : Bool := !gotAll s r q && runs.all (fun u => (cutRun thin q.2.lo (limit q) u.1 u.2).2.2)
    let count := if thin then 0 else sumOf (runs.map (·.2.length))
    match ins.find? fits with
    | none =>
      let s := failLater e slot 0x050E coord 0 0 s
      (ins.find? (fun q => !gotAll s r q)).elim s (fun q => countWords e slot q.1 count s)
    | some q =>
      let ended := thin && p.blocks.isEmpty
      let count := if ended then q.2.n else if thin then 0 else sumOf (runs.map (fun u => (cutRun thin q.2.lo (limit q) u.1 u.2).2.1.length))
      let s := countWords e slot q.1 count s
      if ext.sums && p.scale != r.s then failLater e slot 0x0508 coord 0 0 s
      else if ext.sums && p.crc != r.crc then failLater e slot 0x050E coord 0 0 s
      else
        let s := match if ext.sums then badFlit p else none with
          | some i => failLater e slot 0x0501 coord ((p.first + 60 * i) / 60) 0 s
          | none => s
        let flags := if ext.sums then (List.range 15).filter (fun i => p.overflow.testBit i) else []
        let s := if flags.isEmpty then s else relaySaturated e slot 0 false s
        each runs (fun u s =>
          let (lo, ws, _) := cutRun thin q.2.lo (limit q) u.1 u.2
          takeWords e slot q.2 p.sender lo ws (flags.flatMap (flitRuns p thin)) s) s

/-- The module's own data lands (R236, R240). -/
def landOwn (e slot : Nat) (s : State) : State :=
  let s := ensureOwn e slot s
  match runAt s e slot with
  | none => s
  | some r =>
    let x := r.post.ext
    let s := modRun e slot (fun r => { r with selfDone := true }) s
    match x.kind with
    | 0 =>
      let lo := shardLo r.group r.me
      let n := shardHi x r.group r.me - lo
      if n = 0 then s else landWords e slot r.me lo (r.ownWords lo n) r.flow s
    | 1 =>
      let lo := shardLo r.group r.me
      let n := shardHi x r.group r.me - lo
      if n = 0 then s else landWords e slot r.me lo (r.ownWords lo n) r.flow s
    | 4 =>
      let w := (x.len + 3) / 4
      landWords e slot r.me 0 (r.ownWords (r.me * w) w) [] s
    | _ => if x.words = 0 then s else landWords e slot r.me 0 (r.heldWords 0 x.words) r.flow s

/-- CONTRIBUTION_LANDED: the contribution that arrived first is handled, or where none waits the module's own. -/
def contributionLanded (e slot : Nat) (s : State) : State :=
  match runAt s e slot with
  | none => s
  | some r =>
    let needsOwn := r.own.isNone && !(r.post.ext.kind == 6)
    match r.arrived with
    | p :: rest =>
      let s := if needsOwn then ensureOwn e slot s else s
      sendDone e slot (handleData e slot p (modRun e slot (fun r => { r with arrived := rest }) s))
    | [] => if ownDue s r then sendDone e slot (landOwn e slot s) else s

/-! ### Completion (R236, R247) -/

/-- The module's own landed results of a sum kind. -/
def landedWords (s : State) (r : RelayRun) : List Nat := wordsAt s r.post.ext.dst (zoneBytes r.post.ext r.group r.me / 4)

/-- The landed results counted in the census (R186, R189, R247): bins at the edge die, and its relay top. -/
def relayCensus (e : Nat) (x : Ext) (sc : Int) (ws : List Nat) (s : State) : State :=
  if (slotDef s x.slot).any (·.relay) then
    let exps := (ws.map (fun w => (tallyOf w).natAbs)).map (fun n => if n = 0 then none else some (finExp n sc))
    let s := countBins (16 + e) x.slot (x.lap % 2) (exps.map (fun v => v.elim 0 binExp)) s
    let key := bankKey (16 + e) x.slot (x.lap % 2)
    match exps.filterMap id with
    | [] => s
    | v :: vs =>
      let top := clampTop (vs.foldl max v)
      { s with census := { s.census with tops := s.census.tops.set key ((s.census.tops.get? key).elim top (max top)) } }
  else s

/-- The memory that a relay reads and writes once everything has landed: its zone for the census and the clip area, clip entries, the complete word of a mirror. -/
def completionRanges (s : State) (r : RelayRun) : List (Nat × Nat) × List (Nat × Nat) :=
  let x := r.post.ext
  let entry (i : Nat) : Nat := clipAddr s x.lap (x.clipEntry + i)
  if x.sums && !x.lapless then
    let clips := x.clip && getF s .lapClipBase F.lapClipBase_base != 0
    (if x.census || clips then [(x.dst, zoneBytes x r.group r.me)] else [], if clips then [(entry 0 + 4, 28)] else [])
  else if x.exchanges then ([], (List.range x.len).map (fun i => (entry i + 21, 11)))
  else if x.kind = 6 ∧ x.op = 1 then ([], [(x.dst + 20, 4)])
  else ([], [])

/-- What a relay does once everything has landed (R225, R247, R258, R260). -/
def completionActions (e slot : Nat) (r : RelayRun) (s : State) : State :=
  let x := r.post.ext
  if x.sums && !x.lapless then
    let ws := landedWords s r
    let s := if x.census then relayCensus e x r.s ws s else s
    if x.clip && getF s .lapClipBase F.lapClipBase_base != 0 then
      let (s, sat) := clipAdd x.lap x.clipEntry (sumOf (ws.map (fun w => (tallyOf w).natAbs ^ 2))) r.s s
      if sat then reportOn x.lap 1 (relayErr s e slot x 0 0 0 (clipAddr s x.lap x.clipEntry)) s else s
    else s
  else if x.exchanges then
    let ws := r.result
    each (List.range x.len) (fun i s => clipPublish (relayErr s e slot x 0 0 0 0) x.lap (x.clipEntry + i) ((ws.drop (4 * i)).take 4) s) s
  else if x.kind = 6 ∧ x.op = 1 then store (x.dst + 20) (bytesLE 4 1) s
  else if x.kind = 6 ∧ x.op = 3 then
    each (manifestEntries r.manifest) (fun m s => setF s (.lapRegionCfg m.region) F.lapRegionCfg_dry 0) (modLap (fun l => { l with dries := [] }) s)
  else s

/-- RELAY_COMPLETE: everything has landed and every done baton has come (R236); a relay that has met an error ends once every contribution has been handled (R242). -/
def relayComplete (e slot : Nat) (s : State) : State :=
  match runAt s e slot with
  | none => s
  | some r =>
    let s := if r.own.isNone && r.post.ext.inEngine then ensureOwn e slot s else s
    match runAt s e slot with
    | none => s
    | some r =>
      if allLanded s r && (r.error != 0 || r.outs.all (fun p => r.sent.contains p.1 && r.done.contains p.2.peer)) then
        if r.error ≠ 0 then endRelay e slot 2 r.error s
        else
          let (reads, writes) := completionRanges s r
          let s := readChecked (16 + e) reads writes s
          match memoryRefuses s (16 + e) reads writes with
          | some (code, a) => relayRefused e slot code a false s
          | none => endRelay e slot (if r.saturated then 1 else 0) 0 (completionActions e slot r s)
      else s

/-! ### Timeout and cancel (R250, R251) -/

/-- The participants whose data or baton a relay awaits directly. -/
def awaited (s : State) (r : RelayRun) : List Nat :=
  r.others.filter (fun i =>
    r.ins.any (fun p => p.2.peer == i && !gotAll s r p) ||
    r.outs.any (fun p => p.2.peer == i && (!r.ready.contains i || !r.done.contains i)))

/-- RELAY_TIMEOUT (R250): a relay that has a timeout reaches it, once. -/
def relayTimeout (e slot : Nat) (s : State) : State :=
  match runAt s e slot with
  | none => s
  | some r =>
    if r.timedOut ∨ r.timeout = 0 ∨ nowNs s < r.started + r.timeout then s
    else
      let x := r.post.ext
      let l := awaited s r
      let plain (code coord : Nat) : Err := { relayErr s e slot x code coord 0 0 with cont := contL }
      let s := each (l.take 64) (fun i => raise (plain 0x0504 (r.coordAt i))) (raise (plain 0x0503 0) s)
      let s := setReg s (.colMissing e) (BitVec.ofNat 64 (x.tag + l.length * 2 ^ 32))
      modRun e slot (fun r => { r with timedOut := true }) s

/-- A relay that runs is cancelled (R251). -/
def cancelRun (e slot : Nat) (s : State) : State :=
  match runAt s e slot with
  | none => s
  | some r => endRelay e slot 3 0x0509 (raise (relayErr s e slot r.post.ext 0x0509 0 0 0) s)

/-- A post that waits for a slot is cancelled (R251, R403). -/
def cancelPost (e : Nat) (p : Post) (s : State) : State :=
  startFails e p 3 0x0509 (wakeAll (modEngine e (fun g => { g with posts := g.posts.filter (·.id != p.id) }) s))

/-- A write of COL_e_CANCEL_CTL (R251, Table 8.15). -/
def relayCancel (e : Nat) (val : BitVec 32) (s : State) : State :=
  if e ≥ 4 ∨ !val.getLsbD 0 then s
  else
    let tag := getF s (.colCancelTag e) F.colCancelTag_tag
    let lap := getF s (.colCancelTag e) F.colCancelTag_lap
    let named (x : Ext) : Bool := x.tag == tag && x.lap == lap
    match (engineAt s e).slots.find? (fun p => named p.2.post.ext), (engineAt s e).posts.find? (fun p => named p.ext) with
    | some (slot, _), _ => cancelRun e slot (setF s (.colCancelCtl e) F.colCancelCtl_status 1)
    | none, some p => cancelPost e p (setF s (.colCancelCtl e) F.colCancelCtl_status 1)
    | none, none => setF s (.colCancelCtl e) F.colCancelCtl_status 2

/-- Every relay and post of the module is cancelled (R415, R445). -/
def cancelAll (s : State) : State :=
  let s := each (allRuns s) (fun q => cancelRun q.1 q.2.1) s
  each (List.range 4) (fun e s => each (engineAt s e).posts (cancelPost e) s) s

/-! ### Die resets (R252) -/

/-- Whether a relay reads or writes memory of a compute die. -/
def touchesDie (s : State) (r : RelayRun) (d : Nat) : Bool :=
  let x := r.post.ext
  let regions := if x.kind = 6 ∧ x.op = 0 then streamReads s x
    else if x.kind = 6 ∧ x.op = 3 then (mirrored s).map (fun i => (regionBase s i 0, regionLen s i)) else []
  ((x.group, 8 * x.pmod) :: (x.dst, zoneBytes x r.group r.me) :: (x.resid, residBytes x r.group r.me) ::
    (sourceRanges x r.group r.me ++ holdRanges s x ++ regions)).any (fun p => p.2 != 0 && rangeMeets p.1 p.2 (dieSpans d))

/-- The relays that a die reset ends (R252). Posts that wait are left to their start where a compute die resets (assumption 44). -/
def relaysDieReset (d : Nat) (s : State) : State :=
  if d < 16 then
    each (allRuns s) (fun q s => if !q.2.2.post.ext.commits && touchesDie s q.2.2 d then targetResets q.1 q.2.1 0 s else s) s
  else
    let e := d - 16
    let s := each (engineAt s e).slots (fun p s => endRelay e p.1 4 0x050A (raise (relayErr s e p.1 p.2.post.ext 0x050A 0 0 0) s)) s
    let posts := (engineAt s e).posts
    let s := modEngine e (fun _ => ⟨[], [], []⟩) s
    wakeAll (each posts (fun p s => startFails e p 4 0x050A s) s)

/-! ### Layouts (R254, R255) -/

/-- LAYOUT_INSTALL: it waits until nothing is bound to the old id. -/
def layoutInstall (id : Nat) (d : Desc) (s : State) : State :=
  if id = layoutNow s ∧ s.relays.installs.isEmpty then succeed d s
  else
    let first := s.relays.installs.isEmpty
    let s := { s with relays := { s.relays with installs := s.relays.installs ++ [(d.id, id)] } }
    if first then setF (setF s .colLayout F.colLayout_pending id) .colLayout F.colLayout_busy 1 else s

/-- Whether a lap or relay of the module is still bound to the current layout. -/
def layoutHeld (s : State) : Bool :=
  (openLaps s).any (·.layout == layoutNow s) || (allRuns s).any (·.2.2.post.bound == layoutNow s) ||
  (List.range 4).any (fun e => (engineAt s e).posts.any (·.bound == layoutNow s))

/-- LAYOUT_INSTALL_COMPLETE. -/
def layoutComplete (s : State) : State :=
  match s.relays.installs with
  | [] => s
  | (d, id) :: rest =>
    if id != layoutNow s && layoutHeld s then s
    else
      let s := { s with relays := { s.relays with installs := rest } }
      let s := setF s .colLayout F.colLayout_current id
      let s := match rest with
        | [] => setF s .colLayout F.colLayout_busy 0
        | (_, next) :: _ => setF s .colLayout F.colLayout_pending next
      (descOf s d).elim s (fun d => succeed d s)

/-! ### Posting (R95, R230, R231, R235, R408) -/

/-- A relay descriptor: its extension is read, and the rights of its queue are checked. `allow` is what the opcode accepts (R408). -/
def relayDesc (allow : Ext → Bool) (ext ed : Nat) (d : Desc) (s : State) : State :=
  let word (outcome code lap : Nat) : List Byte := bytesLE 8 (statusWord outcome code lap)
  let frozen (code lap addr : Nat) (s : State) : State :=
    let s := freezeQueue d code addr s
    { s with host := { s.host with entries := s.host.entries.map (fun t => if t.desc.id = d.id then { t with result := word 2 code lap } else t) } }
  if !permits s (some d.q) .r ext 64 then frozen 0x0A11 0 ext s
  else
    let s := readChecked 16 [(ext, 64)] [] s
    match memoryRefuses s 16 [(ext, 64)] [] with
    | some (code, a) =>
      if code = 0x0908 then complete d 3 0x0A15 (word 4 0x0A15 0) (raise (descErr d 0x0A15 contE) s) else frozen code 0 a s
    | none =>
      let x := readExt (Mem.read s.mem ext 64)
      if !allow x then complete d 1 0x0502 (word 2 0x0502 x.lap) (raise { descErr d 0x0502 contE with lap := x.lap, detail := x.tag } s)
      else if !postPermitted s (some d.q) x then frozen 0x0A11 x.lap x.dst s
      else postRelay ed x (.queue d.id) s

/-- The address that an RPOST names. -/
def rpostAddr (s : State) (w a : Nat) : Nat := (aReg s w a).toNat

/-- A baton value: the next free value, or a number where that is 0 or in use (R90). -/
def batonValue (s : State) (w : Nat) : Nat :=
  let v := (freeOf s).toNat
  let used := (runnerAt s w).batons.map (·.value)
  if v = 0 ∨ used.contains v then ((List.range (used.length + 1)).map (· + 1)).find? (fun n => !used.contains n) |>.getD 1 else v

/-- RPOST (R95, R231). -/
def rpostSlot (w a ed rd : Nat) : Option Slot :=
  let e := ed % 4
  legal (a < 16 && ed < 4 && rd < 64)
    { srcs := [.a a], dsts := [.s rd],
      reads := fun s => [(rpostAddr s w a, 64)],
      holds := fun s =>
        let ids := earlierTo s w (rpostAddr s w a) 64
        if !ids.isEmpty then some (.operand ids)
        else if waitHolds s w (.posts e) then some (.posts e)
        else holdOwn w (fun s => [(rpostAddr s w a, 64)]) s,
      fault := fun s =>
        let p := rpostAddr s w a
        if !permits s none .r p 64 then some (0x0111, p)
        else
          match memoryRefuses s (dieOfRunner w) [(p, 64)] [] with
          | some f => some f
          | none =>
            let x := readExt (Mem.read s.mem p 64)
            if postPermitted s none x then none else some (0x0111, x.dst),
      act := fun old s =>
        let v := batonValue old w
        let x := readExt (Mem.read old.mem (rpostAddr old w a) 64)
        let s := postRelay e x (.runner w (runnerAt old w).pc) (freeTaken s)
        setS w rd (BitVec.ofNat 64 v) (modRunner w (fun r => { r with batons := r.batons ++ [⟨v, s.nextId - 1, none⟩] }) s) }

/-! ### The commands -/

/-- RELAY (R229, R408). The descriptor waits where its engine has 1,024 posts waiting. -/
def execRelay (h : Hdr) (ext ed : Nat) (s : State) : Host.Outcome State Fault Refusal :=
  .next (if ed < 4 ∧ 1024 ≤ waitingPosts s ed then s else startDesc h 0x30 (relayDesc (fun x => decide (x.kind < 6)) ext (ed % 4)) s)

/-- MIRROR (R257, R408). -/
def execMirror (h : Hdr) (ext ed : Nat) (s : State) : Host.Outcome State Fault Refusal :=
  .next (if ed < 4 ∧ 1024 ≤ waitingPosts s ed then s else startDesc h 0x50 (relayDesc (fun x => x.kind == 6 && decide (x.op < 3)) ext (ed % 4)) s)

/-- RESTORE (R260, R408). -/
def execRestore (h : Hdr) (ext ed : Nat) (s : State) : Host.Outcome State Fault Refusal :=
  .next (if ed < 4 ∧ 1024 ≤ waitingPosts s ed then s else startDesc h 0x51 (relayDesc (fun x => x.kind == 6 && x.op == 3) ext (ed % 4)) s)

def execRpost (w g a ed rd : Nat) (s : State) : Host.Outcome State Fault Refusal := .next (issue1 w g (rpostSlot w a ed rd) s)

def execRelayStart (e : Nat) (s : State) : Host.Outcome State Fault Refusal :=
  .next (if e < 4 ∧ !inReset s (16 + e) then relayStart e s else s)

def execRelaySend (e slot part : Nat) (s : State) : Host.Outcome State Fault Refusal := .next (relaySend e slot part s)

def execContributionLanded (e slot : Nat) (s : State) : Host.Outcome State Fault Refusal := .next (contributionLanded e slot s)

def execRelayComplete (e slot : Nat) (s : State) : Host.Outcome State Fault Refusal := .next (relayComplete e slot s)

def execRelayTimeout (e slot : Nat) (s : State) : Host.Outcome State Fault Refusal := .next (relayTimeout e slot s)

def execRelayCancel (e : Nat) (val : BitVec 32) (s : State) : Host.Outcome State Fault Refusal := .next (regWrite (.colCancelCtl e) (relayCancel e val) s)

def execLayoutInstall (h : Hdr) (id : Nat) (s : State) : Host.Outcome State Fault Refusal := .next (startDesc h 0x31 (layoutInstall id) s)

def execLayoutInstallComplete (s : State) : Host.Outcome State Fault Refusal := .next (layoutComplete s)

end Sys2Proof.Machine
end

