-- ==== Sys2Proof/Machine/LapVote.lean ====
section
/-! DEFINITION. The commands of the lap block: opening, writing, voting, aborting; and the registers it guards (R196 to R222, R163 to R166, R194). -/

namespace Sys2Proof.Machine

/-! ### Opening a lap (R210, R211) -/

/-- Whether a die lacks the generator snapshot region that its CMP_VEC_SNAP asks for. -/
def snapLacks (s : State) (d : Nat) : Bool :=
  flag s (.cmpVecSnap d) F.cmpVecSnap_enable &&
  !(validRegions s).any (fun r => regionKind s r == 4 && ownerOf s (regionBase s r 0) == some d)

/-- What refuses a LAP_OPEN of a lap, as a code; 0 where it is accepted (R210). -/
def openRefused (s : State) (lap : Nat) : Nat :=
  if lap ≠ getF s .lapNext F.lapNext_next then 0x0607
  else if (scaleRegion s).isNone || getF s .lapRecordBase F.lapRecordBase_base == 0 || getF s .lapClipBase F.lapClipBase_base == 0 ||
      tableBase s == 0 || (List.range 16).any (snapLacks s) then 0x0609
  else 0

/-- LAP_OPEN: accepted, it waits as a lap in flight, its stall timeout counted from now. -/
def lapOpen (lap : Nat) (d : Desc) (s : State) : State :=
  let code := openRefused s lap
  if code ≠ 0 then rejectDesc d 1 code s
  else
    let t := getF s .devStallTimeout F.devStallTimeout_lap_ms * 10 ^ 6
    let s := setF s .lapNext F.lapNext_next (lapPlus lap 1)
    modLap (fun l => { l with opens := l.opens ++ [⟨d.id, lap, l.wipes, if t = 0 then 0 else nowNs s + t, false⟩] }) s

/-- Clip entries of a lap's copy made ready, thresholds kept (R224). -/
def clipOpen (lap : Nat) (s : State) : State :=
  each (List.range 4096) (fun i s => store (clipAddr s lap i + 4) (bytesLE 4 lap ++ bytesLE 24 0) s)
    (probe [] ((List.range 4096).map (fun i => (clipAddr s lap i + 4, 28))) s)

/-- Snapshot areas written while a lap was in flight take effect (R166). -/
def settleSnaps (s : State) : State :=
  modLap (fun l => { l with pendSnap := [] }) (each s.lap.pendSnap (fun p s => setReg s (.cmpVecSnap p.1) p.2) s)

/-- LAP_OPEN_PROCEED: the oldest accepted open leaves its wait once fewer than two laps are open and no layout waits (R211, R254). After a wipe it opens nothing. -/
def lapOpenProceed (s : State) : State :=
  match s.lap.opens with
  | [] => s
  | r :: rest =>
    if s.lap.spec.isSome || !s.relays.installs.isEmpty then s
    else
      let s := modLap (fun l => { l with opens := rest }) s
      if r.wipes ≠ s.lap.wipes then (descOf s r.desc).elim s (fun d => rejectDesc d 1 0x0607 s)
      else
        let s := probe [(tableOf s r.lap, 0x4004)] [] s
        let s := if rdN s (tableOf s r.lap + 0x4000) 4 = r.lap ∧ !(Mem.read s.mem (tableOf s r.lap) 0x4004).all (· == 0) then s else writeTableDry r.lap s
        let s := clipOpen r.lap (clearBank r.lap (settleSnaps s))
        let s := orderCores (.snapshot r.lap) s
        let o : OpenLap := ⟨r.lap, 0, none, 0, layoutNow s, false, tableBase s, none⟩
        let s := modLap (fun l => { l with
          newest := r.lap, older := if l.older.isNone then some o else l.older, spec := if l.older.isNone then none else some o }) s
        (descOf s r.desc).elim (writeLapRecord s) (fun d => succeed d (writeLapRecord s))

/-! ### Votes (R215 to R217, R220, R221) -/

/-- The older open lap casts its local vote, and its commit relay starts (R216, R217). -/
def castVote (vote : Bool) (s : State) : State :=
  match s.lap.older with
  | none => s
  | some o =>
    let s := modOpen o.lap (fun o => { o with cast := some vote }) s
    let x := { (if o.cast.isSome then o.early.getD (exchangeOf o.lap vote s) else exchangeOf o.lap vote s) with vote := vote }
    let s := lapEnter 2 (modLap (fun l => { l with exchange := some x }) s)
    startCommit o.lap o.layout x s

/-- Whether a send-state relay of a lap is posted or runs (R261). -/
def sendsState (s : State) (n : Nat) : Bool :=
  let mine (x : Ext) : Bool := x.kind == 6 && x.op == 0 && !x.lapless && x.lap == n
  (allRuns s).any (fun q => mine q.2.2.post.ext) || (List.range 4).any (fun e => (engineAt s e).posts.any (fun p => mine p.ext))

/-- LAP_BECOMES_WRITING (R205, R208, R261): the carries are done, the seal is gone. A lap whose vote was cast no before goes on to Voting at once (R220). -/
def becomesWriting (s : State) : State :=
  match s.lap.older with
  | none => s
  | some o =>
    if s.lap.state ≠ 0 ∨ sendsState s ((o.lap + 2 ^ 32 - 2) % 2 ^ 32) then s
    else
      let s := setF (carryCopies s) .lapCtl F.lapCtl_sealed 0
      let s := lapEnter 1 (modLap (fun l => { l with ready := o.lap }) s)
      if o.cast.isSome then castVote false s else s

/-- LAP_VOTE (R215). -/
def lapVote (lap : Nat) (vote : Bool) (d : Desc) (s : State) : State :=
  if isOpen s lap then modLap (fun l => { l with votes := l.votes ++ [⟨d.id, lap, vote, false⟩] }) s
  else
    match s.lap.history.get? lap with
    | some outcome => complete d 0 0 (voteResult outcome lap) s
    | none => failDesc d 0x0605 s

/-- Whether a write that can report to lap `n`, or an MDRAIN issued while it was open, has not been performed (R215 step 1). -/
def reportsPending (s : State) (n : Nat) : Bool :=
  s.accesses.any (fun a => a.writes && reportsTo s n a.seen a.ranges) ||
  s.cores.any (fun c => c.2.mover.any (fun t => reportsTo s n t.seen t.written) || c.2.odrain.any (fun o => reportsTo s n o.seen o.kind.ranges) ||
    c.2.array.any (fun o => match o.kind with
      | .drain .. => o.seen.opened.contains n
      | .mmac .. => false
      | .setp _ => false
      | .scale .. => false
      | .zero _ => false))

/-- Whether a relay of a lap, other than its commit relay, is posted and not complete. -/
def relaysPending (s : State) (n : Nat) : Bool :=
  let mine (x : Ext) : Bool := !x.lapless && x.lap == n && !x.commits
  (allRuns s).any (fun q => mine q.2.2.post.ext) || (List.range 4).any (fun e => (engineAt s e).posts.any (fun p => mine p.ext))

/-- VOTE_CAST (R215). -/
def voteCast (s : State) : State :=
  match s.lap.older with
  | none => s
  | some o =>
    match s.lap.votes.find? (fun v => v.lap == o.lap && !v.abort) with
    | none => s
    | some v =>
      if s.lap.state ≠ 1 ∨ o.cast.isSome ∨ reportsPending s o.lap ∨ relaysPending s o.lap then s
      else
        let s := if v.vote then s else reportOn o.lap 5 { code := 0 } s
        castVote (flagsOf s o.lap == 0) s

/-- LAP_ABORT (R216, R220). -/
def lapAbort (lap : Nat) (d : Desc) (s : State) : State :=
  match (openLaps s).find? (·.lap == lap) with
  | none => failDesc d 0x0605 s
  | some o =>
    if o.cast.isSome then complete d 1 0x0606 [] (raise { descErr d 0x0606 contE with lap := lap, detail := o.flags } s)
    else
      let s := modLap (fun l => { l with votes := l.votes ++ [⟨d.id, lap, false, true⟩] }) (reportOn lap 5 { code := 0 } s)
      if s.lap.state = 1 ∧ s.lap.older.any (·.lap == lap) then castVote false s
      else modOpen lap (fun o => { o with cast := some false, early := some (exchangeOf lap false s) }) s

/-- A die warm reset as the lap block sees it (R216, R221): die_reset on every open lap, and a lap that is Writing votes no at once. -/
def lapDieReset (d : Nat) (s : State) : State :=
  let s := reportAll 3 { code := 0, die := d } s
  if s.lap.state = 1 ∧ s.lap.older.any (·.cast.isNone) then castVote false s else s

/-! ### Guarded registers (R166, R194, R198, R200, R201, R208, R227) -/

/-- A write of LAP_NEXT (R198). -/
def lapNextWrite (val : BitVec 32) (s : State) : State :=
  if s.lap.state ≠ 0 then reject 0x0607 s
  else
    let f := val.toNat
    writeTableDry (lapPlus f 1) (writeTableDry f (setF s .lapNext F.lapNext_next f))

/-- Whether a region as a configuration would make it breaks R200. -/
def regionBad (s : State) (r : Nat) (w : Word) : Bool :=
  let kind := F.lapRegionCfg_kind.of w
  let check := F.lapRegionCfg_check.of w
  let carry := F.lapRegionCfg_carry.of w
  let n := F.lapRegionCfg_pages.of w * 4096
  let copies := if kind = 7 then [regionBase s r 0] else [regionBase s r 0, regionBase s r 1]
  let placed (a : Nat) : Bool := (memoryOf s a n).any (fun m => kind == 7 || decide (m < 16))
  let others := (validRegions s).filter (· != r)
  decide (7 < kind) || check == 7 || n == 0 || !copies.all placed ||
  (kind != 7 && overlap (regionBase s r 0) n (regionBase s r 1) n) ||
  others.any (fun q => (List.range (copiesOf s q)).any (fun c => copies.any (fun a => overlap a n (regionBase s q c) (regionLen s q)))) ||
  ((kind == 4 || kind == 5) && check != 0) ||
  (kind == 4 && (carry != 0 || n != 0x4_0000 || regionBase s r 1 != regionBase s r 0 + 0x4_0000 ||
    !(ownerOf s (regionBase s r 0)).any (fun d => snapBase s d == regionBase s r 0))) ||
  (kind == 5 && (n != 0x2_1000 || others.any (fun q => regionKind s q == 5)))

/-- A write of LAP_REGION_r_CFG. The dry field stays. -/
def regionCfgWrite (r : Nat) (val : BitVec 64) (s : State) : State :=
  if r ≥ 64 then s
  else if s.lap.state ≠ 0 then reject 0x0609 s
  else if F.lapRegionCfg_valid.of val == 1 && regionBad s r val then reject 0x0609 s
  else setReg s (.lapRegionCfg r) (F.lapRegionCfg_dry.into (rwBits (.lapRegionCfg r) val) (dryCopy s r))

/-- A write of a region's base. -/
def regionBaseWrite (r copy : Nat) (val : BitVec 64) (s : State) : State :=
  if r ≥ 64 ∨ copy ≥ 2 then s
  else if s.lap.state ≠ 0 ∨ regionValid s r then reject 0x0609 s
  else setReg s (.lapRegionBase r copy) (rwBits (.lapRegionBase r copy) val)

/-- A write of LAP_RECORD_BASE (`which` 0) or LAP_CLIP_BASE. A base of 0 takes the record or area away. -/
def lapBaseWrite (which : Nat) (val : BitVec 64) (s : State) : State :=
  let reg := if which = 0 then Reg.lapRecordBase else .lapClipBase
  let v := rwBits reg val
  let m := memoryOf s v.toNat (if which = 0 then 64 else 0x4_0000)
  let good := v == 0 || (if which = 0 then m.isSome else m.any (fun k => decide (k < 16)))
  if which ≥ 2 then s
  else if s.lap.state ≠ 0 ∨ !good then reject 0x0609 s
  else setReg s reg v

/-- A write of unseal to LAP_CTL (R208). -/
def unsealWrite (val : BitVec 32) (s : State) : State := if val.getLsbD 0 then setF s .lapCtl F.lapCtl_sealed 0 else s

/-- Whether a lap of the job is in flight. -/
def lapInFlight (s : State) : Bool := !(openLaps s).isEmpty || !s.lap.opens.isEmpty

/-- A write of LAP_SCALE_TABLE_BASE (R194). A base of 0 takes the table away. -/
def scaleTableWrite (val : BitVec 64) (s : State) : State :=
  let v := rwBits .lapScaleTableBase val
  if v != 0 && (memoryOf s v.toNat 0x1_0000).isNone then reject 0x0306 s
  else if !lapInFlight s then setReg s .lapScaleTableBase v
  else modLap (fun l => { l with pendTable := some v }) s

/-- A write of CMP_VEC_SNAP (R166). -/
def vecSnapWrite (d : Nat) (val : BitVec 64) (s : State) : State :=
  let v := rwBits (.cmpVecSnap d) val
  let base := F.cmpVecSnap_base.of v * 65536
  if d ≥ 16 then s
  else if memoryOf s base 0x8_0000 ≠ some d then raise { code := 0x0301, cont := contX, die := d, addr := base } s
  else if !lapInFlight s then setReg s (.cmpVecSnap d) v
  else modLap (fun l => { l with pendSnap := l.pendSnap.set d v }) s

/-! ### Snapshots and seeds (R163 to R165) -/

/-- What each order of a core is, for the rows of the table. -/
def Boundary.kindOf : Boundary → Nat
  | .snapshot _ => 0
  | .restore _ => 1
  | .reseed => 2

/-- A bundle boundary of a core that has been ordered to do something of a kind. -/
def boundaryFor (kind k : Nat) (s : State) : State := if !inReset s (k / 64) && (coreAt s k).boundary.any (·.kindOf == kind) then boundary k s else s

/-- Whether every core of a die has written its block of the snapshot of one lap into a copy. -/
def snapWhole (s : State) (d copy : Nat) : Bool :=
  let l := (coresOfDie d).map (fun k => (coreAt s k).snaps.get? copy)
  l.all (fun x => x.isSome && x == l.headD none)

/-- SNAPSHOT_WRITE_COMPLETE (R163): a copy of which all 64 blocks are written becomes valid. -/
def snapshotWritten (d : Nat) (s : State) : State :=
  if 16 ≤ d then s
  else
    each ((List.range 2).filter (snapWhole s d)) (fun c s =>
      each (coresOfDie d) (fun k => modCore k (fun x => { x with snaps := x.snaps.del c })) (setF s (snapValid d c).1 (snapValid d c).2 1)) s

/-- A write of reseed to CMP_VEC_GEN_CTL (R165). -/
def vecReseed (d : Nat) (val : BitVec 32) (s : State) : State :=
  if d < 16 ∧ val.getLsbD 0 ∧ !inReset s d ∧ !flag s (.cmpVecGenCtl d) F.cmpVecGenCtl_busy then
    each (coresOfDie d) (fun k => modCore k (fun c => { c with boundary := c.boundary ++ [.reseed] }))
      (setF s (.cmpVecGenCtl d) F.cmpVecGenCtl_busy 1)
  else s

/-- RESEED_COMPLETE (R165). -/
def reseedDone (d : Nat) (s : State) : State :=
  if (coresOfDie d).any (fun k => (coreAt s k).boundary.any (·.kindOf == 2)) then s
  else setF s (.cmpVecGenCtl d) F.cmpVecGenCtl_busy 0

/-! ### The commands -/

def execLapOpen (h : Hdr) (lap : Nat) (s : State) : Host.Outcome State Fault Refusal := .next (startDesc h 0x40 (lapOpen (lap % 2 ^ 32)) s)
def execLapOpenProceed (s : State) : Host.Outcome State Fault Refusal := .next (lapOpenProceed s)
def execLapBecomesWriting (s : State) : Host.Outcome State Fault Refusal := .next (becomesWriting s)
def execLapVote (h : Hdr) (lap : Nat) (vote : Bool) (s : State) : Host.Outcome State Fault Refusal :=
  .next (startDesc h 0x41 (lapVote (lap % 2 ^ 32) vote) s)
def execVoteCast (s : State) : Host.Outcome State Fault Refusal := .next (voteCast s)
def execLapAbort (h : Hdr) (lap : Nat) (s : State) : Host.Outcome State Fault Refusal := .next (startDesc h 0x42 (lapAbort (lap % 2 ^ 32)) s)
def execLapNextWrite (val : BitVec 32) (s : State) : Host.Outcome State Fault Refusal := .next (regWrite .lapNext (lapNextWrite val) s)
def execLapRegionCfgWrite (r : Nat) (val : BitVec 64) (s : State) : Host.Outcome State Fault Refusal := .next (regWrite (.lapRegionCfg r) (regionCfgWrite r val) s)
def execLapRegionBaseWrite (r copy : Nat) (val : BitVec 64) (s : State) : Host.Outcome State Fault Refusal := .next (regWrite (.lapRegionBase r copy) (regionBaseWrite r copy val) s)
def execLapBaseWrite (which : Nat) (val : BitVec 64) (s : State) : Host.Outcome State Fault Refusal := .next (regWrite (if which = 0 then .lapRecordBase else .lapClipBase) (lapBaseWrite which val) s)
def execUnseal (val : BitVec 32) (s : State) : Host.Outcome State Fault Refusal := .next (regWrite .lapCtl (unsealWrite val) s)
def execScaleTableBaseWrite (val : BitVec 64) (s : State) : Host.Outcome State Fault Refusal := .next (regWrite .lapScaleTableBase (scaleTableWrite val) s)
def execVecSnapWrite (d : Nat) (val : BitVec 64) (s : State) : Host.Outcome State Fault Refusal := .next (regWrite (.cmpVecSnap d) (vecSnapWrite d val) s)
def execSnapshotTake (k : Nat) (s : State) : Host.Outcome State Fault Refusal := .next (boundaryFor 0 k s)
def execSnapshotWriteComplete (d : Nat) (s : State) : Host.Outcome State Fault Refusal := .next (snapshotWritten d s)
def execGeneratorRestore (k : Nat) (s : State) : Host.Outcome State Fault Refusal := .next (boundaryFor 1 k s)

/-- GENERATOR_LOAD_COMPLETE (R164): runners that wait with cause 2 go on. -/
def execGeneratorLoadComplete (k : Nat) (s : State) : Host.Outcome State Fault Refusal :=
  .next (wakeAll (modCore k (fun c => { c with loading := false }) s))

def execVecReseed (d : Nat) (val : BitVec 32) (s : State) : Host.Outcome State Fault Refusal := .next (regWrite (.cmpVecGenCtl d) (vecReseed d val) s)
def execReseedComplete (d : Nat) (s : State) : Host.Outcome State Fault Refusal := .next (if d < 16 then reseedDone d s else s)

end Sys2Proof.Machine
end

