-- ==== Sys2Proof/Machine/Census.lean ====
section
/-! DEFINITION. Census installs and reads (R187, R188, R192). -/

namespace Sys2Proof.Machine

/-- A slot record (R187): whether it is well formed, and the definition it gives. -/
def slotRecord (bs : List Byte) : Bool × Option SlotDef :=
  let b := field bs 0 1
  let init := sint 8 (field bs 1 1)
  let good := decide (b < 64) && field bs 2 2 == 0 && field bs 8 8 == 0 && decide (-40 ≤ init ∧ init ≤ 23)
  (good, if b.testBit 3 then some ⟨b % 8, b.testBit 4, b.testBit 5, init, BitVec.ofNat 32 (field bs 4 4)⟩ else none)

/-- LAP_CENSUS_INSTALL_CTL.status. -/
def censusStatus (v : Nat) (s : State) : State := setF s .lapCensusInstallCtl F.lapCensusInstallCtl_status v

/-- A write of LAP_CENSUS_INSTALL_CTL: its fields, and with go an install (R187). While one is busy the write is ignored. Records that the memory
refuses are a malformed install (assumption 123). -/
def censusGo (val : BitVec 64) (s : State) : State :=
  if getF s .lapCensusInstallCtl F.lapCensusInstallCtl_status = 1 then s
  else
    let first := F.lapCensusInstallCtl_first.of val
    let count := F.lapCensusInstallCtl_count.of val
    let s := setF (setF s .lapCensusInstallCtl F.lapCensusInstallCtl_first first) .lapCensusInstallCtl F.lapCensusInstallCtl_count count
    if F.lapCensusInstallCtl_go.of val = 0 then s
    else if 4096 < first + count then censusStatus 3 (reject 0x03F1 s)
    else
      let a := getF s .lapCensusInstallAddr F.lapCensusInstallAddr_addr * 16
      let s := readChecked 16 [(a, 16 * count)] [] s
      let recs := (pieces 16 count (Mem.read s.mem a (16 * count))).map slotRecord
      if count = 0 ∨ !mapped s a (16 * count) ∨ (memoryRefuses s 16 [(a, 16 * count)] []).isSome ∨ recs.any (fun p => !p.1) then censusStatus 4 (reject 0x0303 s)
      else
        censusStatus 1 { s with census := { s.census with install := some (recs.zipIdx.map (fun p => (first + p.2, p.1.2))) } }

/-- Whether a count already issued to some slots has not been added (R188). -/
def countPending (s : State) (slots : List Nat) : Bool :=
  let mine (c : Option Counted) : Bool := c.any (fun c => slots.contains c.slot)
  s.accesses.any (fun a => mine a.counted) ||
  s.cores.any (fun c => c.2.mover.any (fun t => mine t.counted) || c.2.array.any (fun o => match o.kind with
    | .drain _ _ _ _ _ _ c => mine c
    | .mmac .. => false
    | .setp _ => false
    | .scale .. => false
    | .zero _ => false))

/-- A slot's counters in both banks cleared, and its history in the dry and wet scale state. -/
def clearSlot (slot : Nat) (s : State) : State :=
  let c := s.census
  let s := { s with census := { c with
    bins := c.bins.filter (fun p => p.1 / 256 % 4096 != slot)
    tops := c.tops.filter (fun p => p.1 / 2 % 4096 != slot)
    saturated := c.saturated.filter (fun k => k / 2 % 4096 != slot) } }
  each ((scaleDry s).toList ++ (scaleWet s).toList) (fun a s => wrB s (a + slot * 32) (bytesLE 32 0)) s

/-- CENSUS_INSTALL_COMPLETE (R188). -/
def censusComplete (s : State) : State :=
  match s.census.install with
  | none => s
  | some l =>
    if countPending s (l.map (·.1)) then s
    else
      let s := each l (fun p s =>
        let s := clearSlot p.1 s
        { s with census := { s.census with slots := (match p.2 with
            | some d => s.census.slots.set p.1 d
            | none => s.census.slots.del p.1) } }) s
      censusStatus 2 { s with census := { s.census with install := none } }

/-- The 640-byte record of a slot and bank (R192). -/
def censusRecord (s : State) (slot lap : Nat) : List Byte :=
  let bank := lap % 2
  let d := slotDef s slot
  let sat := (List.range 20).any (fun e => s.census.saturated.contains (bankKey e slot bank))
  let top := match d with
    | some x => (localTop s slot x bank).elim (-128) clampTop
    | none => -128
  bytesLE 2 slot ++ bytesLE 1 (d.elim 0 (·.kind)) ++ bytesLE 1 (d.isSome.toNat + 2 * sat.toNat) ++ bytesLE 4 (d.elim 0 (·.tag.toNat)) ++
    bytesLE 4 lap ++ bytesLE 1 (wrap 8 top) ++ bytesLE 51 0 ++ (List.range 72).flatMap (fun b => bytesLE 8 (binSum s slot bank b))

/-- A slot and bank cleared, its saturation and relay tops too (R192). -/
def clearCounts (bank slot : Nat) (s : State) : State :=
  let c := s.census
  { s with census := { c with
    bins := c.bins.filter (fun p => p.1 / 128 % 8192 != slot * 2 + bank)
    tops := c.tops.filter (fun p => p.1 % 8192 != slot * 2 + bank)
    saturated := c.saturated.filter (fun k => k % 8192 != slot * 2 + bank) } }

/-- What memory does with a descriptor's operand (R302, R388, R390, R407): a die in reset ends it with status TARGET_RESET, poison freezes its queue. -/
def operandRefused (d : Desc) (code addr : Nat) (s : State) : State :=
  if code = 0x0908 then complete d 3 0x0A15 [] (raise (descErr d 0x0A15 contE) s) else freezeQueue d code addr s

/-- A descriptor's operands are checked: windows, the lap block's admission of writes, and the memory (R52, R207, R302, R407). -/
def withOperands (d : Desc) (reads writes : List (Nat × Nat)) (body : State → State) (s : State) : State :=
  match reads.find? (fun p => !permits s (some d.q) .r p.1 p.2), writes.find? (fun p => !permits s (some d.q) .w p.1 p.2) with
  | some p, _ => freezeQueue d 0x0A11 p.1 s
  | none, some p => freezeQueue d 0x0A11 p.1 s
  | none, none =>
    match writes.find? (fun p => lapCode s false p.1 p.2 != 0) with
    | some p => freezeQueue d (lapCode s false p.1 p.2) p.1 s
    | none =>
      let s := readChecked 16 reads writes s
      match memoryRefuses s 16 reads writes with
      | some (code, a) => operandRefused d code a s
      | none => body s

/-- A write of a queue lands and is tested as its lap asks (R202, R213). -/
def queueStore (d : Desc) (a : Nat) (bs : List Byte) (s : State) : State :=
  testWrite (lapSeen s) none (descErr d 0 contV) a bs.length (store a bs s)

/-- CENSUS_READ (R192). -/
def censusRead (first count lap dest : Nat) (clear : Bool) (d : Desc) (s : State) : State :=
  if 4096 < first + count ∨ count = 0 ∨ !bankHolds s lap then failDesc d 0x0304 s
  else
    withOperands d [] [(dest, 640 * count)] (fun s =>
      let slots := (List.range count).map (first + ·)
      let bytes := slots.flatMap (fun i => censusRecord s i lap)
      let s := if clear then each slots (clearCounts (lap % 2)) s else s
      succeed d (queueStore d dest bytes s)) s

def execCensusInstallGo (val : BitVec 64) (s : State) : Host.Outcome State Fault Refusal := .next (regWrite .lapCensusInstallCtl (censusGo val) s)
def execCensusInstallComplete (s : State) : Host.Outcome State Fault Refusal := .next (censusComplete s)
def execCensusRead (h : Hdr) (first count lap dest : Nat) (clear : Bool) (s : State) : Host.Outcome State Fault Refusal :=
  .next (startDesc h 0x70 (censusRead (first % 4096) (count % 8192) (lap % 2 ^ 32) dest clear) s)

end Sys2Proof.Machine
end

