-- ==== Sys2Proof/Machine/Programs.lean ====
section
/-! DEFINITION. Programs and the control of runners by descriptors and registers: LOAD_PROGRAM, LAUNCH, HALT_RUNNERS, COPY, FILL, CMP_CORE_k_CTL, debug access, out-of-band drains
(R97 to R105, R133, R408, R502). -/

namespace Sys2Proof.Machine

/-- The numbers of the set bits of a mask, below `n`. -/
def bitsOf (n m : Nat) : List Nat := (List.range n).filter (fun i => m.testBit i)

/-! ### LOAD_PROGRAM (R97, R98) -/

/-- Bytes of an image of `e` entries and `b` bundles (Table 3.16). -/
def imageSize (e b : Nat) : Nat := 0x40 + (4 * e + 15) / 16 * 16 + 16 * b

/-- Whether an image's header breaks Table 3.16. -/
def imageHeadBad (h : List Byte) : Bool :=
  let e := field h 6 2
  let b := field h 8 4
  field h 0 4 != 0x47504B5A || field h 4 2 != 1 || e == 0 || decide (256 < e) || b == 0 || decide (131072 < b) || field h 0x14 44 != 0

/-- Entries of an image. -/
def imageEntries (bs : List Byte) : List Nat := (List.range (field bs 6 2)).map (fun i => field bs (0x40 + 4 * i) 4)

/-- Whether an image with a good header fails the other checks of R97. -/
def imageBad (bs : List Byte) : Bool :=
  let e := field bs 6 2
  let pad := (4 * e + 15) / 16 * 16 - 4 * e
  (imageEntries bs).any (fun x => decide (field bs 8 4 ≤ x)) || field bs (0x40 + 4 * e) pad != 0 || crc32c (bs.drop 0x40) != field bs 12 4

/-- The bundles of an image. -/
def imageBundles (bs : List Byte) : List (BitVec 128) :=
  let o := imageSize (field bs 6 2) 0
  (pieces 16 (field bs 8 4) (bs.drop o)).map (fun b => BitVec.ofNat 128 (natLE b))

/-- Whether a die has a runner that is not Free, or a share that waits. -/
def dieBusy (s : State) (d : Nat) : Bool :=
  s.runners.any (fun p => dieOfRunner p.1 == d && p.2.state != .free) || s.shares.any (fun x => x.core / 64 == d)

/-- LOAD_PROGRAM. -/
def loadProgram (image dies : Nat) (d : Desc) (s : State) : State :=
  let targets := bitsOf 16 dies
  let bad (s : State) : State := failDesc d 0x0103 (each targets (fun t s => setF s (.cmpProgStatus t) F.cmpProgStatus_valid 0) s)
  if targets.isEmpty then failDesc d 0x0103 s
  else if targets.any (dieBusy s) then failDesc d 0x0104 s
  else if targets.any (cutOff s 16) then operandRefused d 0x0908 0 s
  else
    withOperands d [(image, 0x40)] [] (fun s =>
      let h := Mem.read s.mem image 0x40
      let n := imageSize (field h 6 2) (field h 8 4)
      if imageHeadBad h then bad s
      else
        withOperands d [(image, n)] [] (fun s =>
          let bs := Mem.read s.mem image n
          if imageBad bs then bad s
          else
            let prog : Prog := ⟨imageEntries bs, imageBundles bs⟩
            succeed d (each targets (fun t s =>
              setReg (freshHidden t (· == 0) { s with progs := s.progs.set t prog }) (.cmpProgStatus t)
                (BitVec.ofNat 64 (1 + field bs 8 4 * 2 ^ 8 + field bs 0x10 4 * 2 ^ 32))) s)) s) s

/-! ### LAUNCH (R99 to R101) -/

/-- Whether a LAUNCH is rejected (R99). -/
def launchBad (s : State) (dies n entry cores : Nat) : Bool :=
  n == 0 || decide (16 < n) || (bitsOf 16 dies).isEmpty || (bitsOf 64 cores).isEmpty ||
  (bitsOf 16 dies).any (fun d => !flag s (.cmpProgStatus d) F.cmpProgStatus_valid ||
    !(s.progs.get? d).any (fun p => decide (entry < p.entries.length)))

/-- LAUNCH: a share joins the order of each named core's pool. Its LAUNCH_ID is a free value (assumption 2). -/
def launch (dies n : Nat) (notify : Bool) (entry cores : Nat) (arg : BitVec 64) (d : Desc) (s : State) : State :=
  if launchBad s dies n entry cores then failDesc d 0x0105 s
  else
    let id := s.nextId
    let t := getF s .devStallTimeout F.devStallTimeout_runner_ms * 10 ^ 6
    let shares : List Share := (bitsOf 16 dies).flatMap (fun die => (bitsOf 64 cores).map (fun c =>
      ⟨id, die * 64 + c, n, entry, arg, false, if t = 0 then 0 else nowNs s + t⟩))
    let l : Launch := ⟨id, d.id, freeOf s, notify, dies, []⟩
    { freeTaken s with nextId := id + 1, launches := s.launches ++ [l], shares := s.shares ++ shares }

/-- The Free runners of a core, lowest first. -/
def freeRunners (s : State) (k : Nat) : List Nat := (runnersOf k).filter (fun w => (runnerAt s w).state == .free)

/-- A runner starts (R100). -/
def startRunner (x : Share) (lid : Word) (pc i w : Nat) (s : State) : State :=
  setRunner s w { Runner.free with
    state := .ready, s := [(1, x.arg), (2, BitVec.ofNat 64 i), (3, BitVec.ofNat 64 x.core)], pc := pc, arg := x.arg,
    launch := x.launch, launchId := lid, census := 0xFFFF, censusLap := 0xFFFFFFFF }

/-- LAUNCH_SHARE_START: the oldest share of a core starts whole, where enough runners are Free (R34, R99, R415). -/
def shareStart (k : Nat) (s : State) : State :=
  match s.shares.find? (·.core == k) with
  | none => s
  | some x =>
    let ws := (freeRunners s k).take x.n
    if ws.length < x.n ∨ inReset s (k / 64) ∨ flag s .hifEmergencyHalt F.hifEmergencyHalt_active ∨ s.power.resetCore = some k then s
    else
      let pc := ((s.progs.get? (k / 64)).elim [] (·.entries)).getD x.entry 0
      let lid := (s.launches.find? (·.id == x.launch)).elim 0 (·.lid)
      let s := each ws.zipIdx (fun p => startRunner x lid pc p.2 p.1) s
      launchCheck { s with
        shares := s.shares.erase x
        launches := s.launches.map (fun l => if l.id = x.launch then { l with runners := l.runners ++ ws } else l) }

/-! ### Resume, step and HALT_RUNNERS (R69, R70, R103, R133, R502) -/

/-- A Halted runner is stepped (R103). -/
def stepRunner (w : Nat) (s : State) : State :=
  let r := runnerAt s w
  if r.state = .halted ∧ !flag s .hifEmergencyHalt F.hifEmergencyHalt_active then
    fetchCheck w (wake w (setRunner s w { r with state := if r.wait.isSome then .waiting else .ready, cause := 0, stepArm := true })) else s

/-- A resume (or step, numbered from 16384) of a runner: held while its core's out-of-band drain runs (R133). -/
def resumeOrHold (n : Nat) (s : State) : State :=
  let w := n % 16384
  if (runnerAt s w).state = .halted ∧ !flag s .hifEmergencyHalt F.hifEmergencyHalt_active then
    if (coreAt s (coreOf w)).odrain.isSome then modCore (coreOf w) (fun c => { c with held := c.held.filter (· % 16384 != w) ++ [n] }) s
    else if n < 16384 then resumeRunner w s else stepRunner w s
  else s

/-- The runners that a HALT_RUNNERS names. -/
def namedRunners (dies runners cores : Nat) : List Nat :=
  (bitsOf 16 dies).flatMap (fun d => (bitsOf 64 cores).flatMap (fun c => (bitsOf 16 runners).map (fun i => (d * 64 + c) * 16 + i)))

/-- HALT_RUNNERS (R502). -/
def haltRunners (dies runners action cores : Nat) (d : Desc) (s : State) : State :=
  let ws := namedRunners dies runners cores
  if 2 < action then failDesc d 0x0A10 s
  else
    let act (w : Nat) (s : State) : State :=
      match action with
      | 0 => haltRunner w 14 s
      | 1 => resumeOrHold w s
      | _ => endRunner w s
    haltCheck { each ws act s with halts := (each ws act s).halts ++ [⟨d.id, ws, action⟩] }

/-! ### CMP_CORE_k_CTL and debug access (R69 to R71, R102 to R104) -/

/-- What a write of CMP_CORE_k_CTL does to one runner: kill over halt, halt over resume and step, resume over step (R70, Table 3.20). `was` is whether it was Halted before the write. -/
def ctlRunner (k v : Nat) (debug : Bool) (i : Nat) (s : State) : State :=
  let w := k * 16 + i
  if v.testBit (48 + i) then endRunner w s
  else if !debug then s
  else if v.testBit i then haltRunner w 12 s
  else if v.testBit (16 + i) then resumeOrHold w s
  else if v.testBit (32 + i) then resumeOrHold (w + 16384) s
  else s

/-- A write of CMP_CORE_k_CTL. While debug access is locked all but kill is ignored, with one record for the write (R102). -/
def coreCtl (k : Nat) (val : BitVec 64) (s : State) : State :=
  if k ≥ 1024 ∨ inReset s (k / 64) then s
  else
    let v := val.toNat
    let debug := debugOpen s 0
    let s := if !debug && v % 2 ^ 48 != 0 then coreNote k 0x0107 s else s
    haltCheck (each (List.range 16) (ctlRunner k v debug) s)

/-- The register that CMP_CORE_k_DBG_SEL selects: runner, class and index. -/
def dbgSel (s : State) (k : Nat) : Nat × Nat × Nat :=
  let r := Reg.cmpCoreDbgSel k
  (k * 16 + getF s r F.cmpCoreDbgSel_runner, getF s r F.cmpCoreDbgSel_class, getF s r F.cmpCoreDbgSel_index)

/-- Whether a runner's registers are open to debug access (R104). -/
def dbgRunner (s : State) (w : Nat) : Bool := (runnerAt s w).state == .halted || (runnerAt s w).state == .frozen

/-- CMP_CORE_k_DBG_DATA as it reads (R104). The index of class 3 is ignored (assumption 106). -/
def dbgRead (s : State) (k : Nat) : Word :=
  let (w, cls, i) := dbgSel s k
  if !dbgRunner s w then 0
  else
    match cls with
    | 0 => if i < 64 then sReg s w i else 0
    | 1 => if i < 16 then aReg s w i else 0
    | 2 => if i < 8 then BitVec.ofNat 64 (pReg s w i).toNat else 0
    | 3 => BitVec.ofNat 64 ((runnerAt s w).pc % 2 ^ 17)
    | 4 => if i < 10 then specialReg s w i else 0
    | _ => 0

/-- Whether what holds a runner was issued with an earlier bundle, and so goes on holding it wherever its PC is moved (R69). -/
def Wait.issued : Wait → Bool
  | .fence _ => true
  | .hurdle => true
  | .source _ => false
  | .operand _ => false
  | .arrayFull => false
  | .moverFull => false
  | .genLoad => false
  | .baton _ => false
  | .heatPost => false
  | .heatNext => false
  | .transfers _ => false
  | .arrayOps _ => false
  | .posts _ => false

/-- A write of CMP_CORE_k_DBG_DATA (R102, R104). A read-only special register, or a value out of its range, is not written. The index of class 3 is ignored (assumption 106). -/
def dbgWrite (k : Nat) (val : BitVec 64) (s : State) : State :=
  if k ≥ 1024 ∨ inReset s (k / 64) then s
  else if !debugOpen s 0 then coreNote k 0x0107 s
  else
    let (w, cls, i) := dbgSel s k
    if !dbgRunner s w then s
    else
      match cls with
      | 0 => if i < 64 then setS w i val s else s
      | 1 => if i < 16 then setA w i val s else s
      | 2 => if i < 8 then setP w i (val.getLsbD 0) s else s
      | 3 => modRunner w (fun r => { r with pc := val.toNat % 2 ^ 17, wait := r.wait.filter Wait.issued }) s
      | 4 => if (i == 8 || i == 9) && specialFits i val.toNat then setSpecial w i val.toNat s else s
      | _ => s

/-! ### COPY and FILL (R408) -/

/-- COPY. -/
def copyDesc (dst src len : Nat) (d : Desc) (s : State) : State :=
  if 2 ^ 47 < len ∨ (overlap dst len src len = true ∧ len ≠ 0) then failDesc d 0x0A10 s
  else if len = 0 then succeed d s
  else
    withOperands d [(src, len)] [(dst, len)] (fun s =>
      succeed d (testWrite (lapSeen s) none (descErr d 0 contV) dst len (freshen dst len { s with mem := Mem.copy s.mem dst src len }))) s

/-- The bytes of a FILL. -/
def fillBytes (pat : BitVec 64) (len : Nat) : List Byte := (List.range len).map (fun i => BitVec.ofNat 8 (bits pat.toNat (8 * (i % 8)) 8))

/-- FILL. -/
def fillDesc (dst : Nat) (pat : BitVec 64) (len : Nat) (d : Desc) (s : State) : State :=
  if 2 ^ 47 < len then failDesc d 0x0A10 s
  else if len = 0 then succeed d s
  else withOperands d [] [(dst, len)] (fun s => succeed d (queueStore d dst (fillBytes pat len) s)) s

/-! ### The commands -/

def execLoadProgram (h : Hdr) (image dies : Nat) (s : State) : Host.Outcome State Fault Refusal :=
  .next (startDesc h 0x10 (loadProgram image dies) s)

def execLaunch (h : Hdr) (dies n : Nat) (notify : Bool) (entry cores : Nat) (arg : BitVec 64) (s : State) : Host.Outcome State Fault Refusal :=
  .next (startDesc h 0x11 (launch dies n notify entry cores arg) s)

def execLaunchShareStart (k : Nat) (s : State) : Host.Outcome State Fault Refusal := .next (shareStart k s)

def execHaltRunners (h : Hdr) (dies runners action cores : Nat) (s : State) : Host.Outcome State Fault Refusal :=
  .next (startDesc h 0x12 (haltRunners dies runners action cores) s)

def execCopy (h : Hdr) (dst src len : Nat) (s : State) : Host.Outcome State Fault Refusal := .next (startDesc h 0x20 (copyDesc dst src len) s)
def execFill (h : Hdr) (dst : Nat) (pat : BitVec 64) (len : Nat) (s : State) : Host.Outcome State Fault Refusal :=
  .next (startDesc h 0x21 (fillDesc dst pat len) s)

def execCoreHalt (k : Nat) (val : BitVec 64) (s : State) : Host.Outcome State Fault Refusal := .next (regWrite (.cmpCoreCtl k) (coreCtl k val) s)
def execCoreResume (k : Nat) (val : BitVec 64) (s : State) : Host.Outcome State Fault Refusal := .next (regWrite (.cmpCoreCtl k) (coreCtl k val) s)
def execCoreStep (k : Nat) (val : BitVec 64) (s : State) : Host.Outcome State Fault Refusal := .next (regWrite (.cmpCoreCtl k) (coreCtl k val) s)
def execCoreKill (k : Nat) (val : BitVec 64) (s : State) : Host.Outcome State Fault Refusal := .next (regWrite (.cmpCoreCtl k) (coreCtl k val) s)
def execStepDone (w : Nat) (s : State) : Host.Outcome State Fault Refusal := .next (stepDone w s)
def execRunnerFreed (w : Nat) (s : State) : Host.Outcome State Fault Refusal := .next (runnerFreed w s)
def execDbgDataWrite (k : Nat) (val : BitVec 64) (s : State) : Host.Outcome State Fault Refusal := .next (regWrite (.cmpCoreDbgData k) (dbgWrite k val) s)

/-- A write of CMP_CORE_k_ODRAIN_CTL (R133): its fields, then go (assumption 34). -/
def odrainCtlWrite (k : Nat) (val : BitVec 64) (s : State) : State :=
  if k ≥ 1024 ∨ inReset s (k / 64) then s
  else
    let r := Reg.cmpCoreOdrainCtl k
    let s := setReg s r (F.cmpCoreOdrainCtl_status.into (rwBits r val) (getF s r F.cmpCoreOdrainCtl_status))
    if F.cmpCoreOdrainCtl_go.of val = 1 then odrainGo k s else s

def execOdrainGo (k : Nat) (val : BitVec 64) (s : State) : Host.Outcome State Fault Refusal := .next (regWrite (.cmpCoreOdrainCtl k) (odrainCtlWrite k val) s)

def execOdrainDone (k : Nat) (s : State) : Host.Outcome State Fault Refusal := .next (haltCheck (odrainDone k resumeOrHold s))

end Sys2Proof.Machine
end

