-- ==== Sys2Proof/Machine/Light.lean ====
section
/-! DEFINITION. Light sources: their states, line levels and slopes, commissioning, changeovers, start, and the rings' locks (R347 to R361). -/

namespace Sys2Proof.Machine

/-- A source: 0 CSM-A, 1 CSM-B. -/
def sourceAt (s : State) (c : Nat) : Source := s.light.sources.get c Source.absent

/-- A source changed. -/
def modSource (c : Nat) (f : Source → Source) (s : State) : State :=
  modLight (fun g => { g with sources := g.sources.set c (f (sourceAt s c)) }) s

/-- A line that has not been sampled. -/
def Line.cold : Line := ⟨[], none, none, 0, 0, [], [], none⟩

/-- The key of a line of a source at an edge die. -/
def lineKey (e c w : Nat) : Nat := (e * 2 + c) * 72 + w

/-- A line. -/
def lineAt (s : State) (e c w : Nat) : Line := s.light.lines.get (lineKey e c w) Line.cold

/-- A line changed. -/
def modLine (e c w : Nat) (f : Line → Line) (s : State) : State :=
  modLight (fun g => { g with lines := g.lines.set (lineKey e c w) (f (lineAt s e c w)) }) s

/-- The active source, and the spare. -/
def activeSrc (s : State) : Nat := getF s .lgtCombStatus F.lgtCombStatus_active
def spareSrc (s : State) : Nat := 1 - activeSrc s

/-- A margin of LGT_THRESH in 0.01 dB. -/
def margin (s : State) (f : Fld) : Int := getF s .lgtThresh f * 10

/-- Every (edge die, line). -/
def combLines : List (Nat × Nat) := (List.range 4).flatMap (fun e => (List.range 72).map (fun w => (e, w)))

/-- Whether a line with a mean and a P0 is below P0 less a margin. A line not sampled is not (assumption 50). -/
def lineBelow (l : Line) (m : Int) : Bool :=
  match l.mean, l.p0 with
  | some v, some p => decide (v < p - m)
  | _, _ => false

/-- Whether some line of a commissioned source is below P0 less the amber margin. -/
def someBelow (s : State) (c : Nat) : Bool :=
  (sourceAt s c).p0 && combLines.any (fun p => lineBelow (lineAt s p.1 c p.2) (margin s F.lgtThresh_amber))

/-- The state of a source (Table 12.2), the first condition that holds. -/
def sourceState (s : State) (c : Nat) : Nat :=
  let x := sourceAt s c
  if !x.fitted then 0
  else if !x.en then 1
  else if !x.faultN then 4
  else if !x.rdy then 2
  else if someBelow s c then 4
  else 3

/-- Whether a source may be the target of a changeover (R350). -/
def eligible (s : State) (c : Nat) : Bool := sourceState s c == 3 && (sourceAt s c).p0 && !(sourceAt s c).faded

/-- Whether a line is in use in an edge die (R351): a transmit ring is tuned to it. -/
def lineInUse (s : State) (e w : Nat) : Bool := (List.range 6).any (fun p => (nibsOf s (e * 6 + p)).any (fun n => n.tx == w))

/-- A record of the light subsystem: die, fibre and line (Table 18.2). -/
def lightErr (die code fibre line : Nat) : Err :=
  { code := code, cont := contL, die := die, detail := fibre + line * 256 }

/-- A source is turned on or off. Off, its lines are no longer sampled (R351). -/
def setEn (c : Nat) (on : Bool) (s : State) : State :=
  let s := if (sourceAt s c).en != on then emit (.pin (.csmEn c) on) s else s
  let s := modSource c (fun x => { x with en := on }) s
  if on then s
  else modLight (fun g => { g with lines := g.lines.map (fun p =>
    if p.1 / 72 % 2 = c then (p.1, { p.2 with samples := [], mean := none, level := 0, clear := 0, minute := [] }) else p) }) s

/-- The spare is started if it is Off. -/
def startSpare (s : State) : State := if sourceState s (spareSrc s) = 1 then setEn (spareSrc s) true s else s

/-! ### Links of a fibre and rings -/

/-- The links of a fibre that exist. -/
def fibreLinks (s : State) (f : Nat) : List Nat := (liveLinks s).filter (fun l => fibreOf l == f)

/-- A transmit ring at a position leaves its links (R316). -/
def txLeave (f nib : Nat) (s : State) : State :=
  each ((fibreLinks s f).filter (fun l => (linkAt s l).txActive.testBit nib)) (fun l s =>
    darkIfBare l (modLink l (fun k => { k with txActive := k.txActive ^^^ 2 ^ nib }) (sendControl l 6 nib s))) s

/-- Whether a ring's line lies at the floor in the source that its fibre uses. -/
def atFloor (s : State) (f w : Nat) : Bool :=
  (lineAt s (f / 6) (getF s (.lgtFibreStatus f) F.lgtFibreStatus_source) w).level == 4

/-- A transmit ring at a position joins the links whose nib it is, on a line that the peer receives (R316, R353). -/
def txJoin (f nib : Nat) (s : State) : State :=
  each ((fibreLinks s f).filter (fun l => (linkAt s l).txActive != 0 && !(linkAt s l).txActive.testBit nib &&
      (txNibs s l).any (fun n => n.1 == nib && !atFloor s f n.2 && (linkAt s l).nego.any (·.rx.getLsbD n.2)))) (fun l s =>
    sendControl l 7 nib (modLink l (fun k => { k with txActive := k.txActive ||| 2 ^ nib }) s)) s

/-! ### Changeovers (R356 to R358) -/

/-- The changeover changed. -/
def modChange (f : Changeover → Changeover) (s : State) : State := modLight (fun g => { g with change := f g.change }) s

/-- A fibre's switch position. -/
def setSwitch (c f : Nat) (s : State) : State := setF s (.lgtFibreStatus f) F.lgtFibreStatus_source c

/-- Fibres whose edge die is not in reset. -/
def runningFibres (s : State) : List Nat := (List.range 24).filter (fun f => !inReset s (16 + f / 6))

/-- A changeover to the spare begins. -/
def startChange (s : State) : State := setF (modChange (fun _ => ⟨true, false, spareSrc s, none, 0⟩) s) .lgtCombStatus F.lgtCombStatus_fibres_done 0

/-- A changeover to the spare begins, or waits for an install that is busy (R358). -/
def beginChange (s : State) : State :=
  if s.fabric.installing.isEmpty then startChange s
  else modChange (fun c => { c with due := true }) s

/-- A fibre's hold ends (R356 step 5): it sends fibre resume, and what is held and unacknowledged on its channels goes out. -/
def fibreGo (f : Nat) (s : State) : State :=
  let s := modFab (fun b => { b with held := b.held.filter (· != f) }) s
  let s := each (fibreLinks s f) (fun l => sendControl l 9 0) s
  each ((fibreLinks s f).filterMap (fun l => (chanOf s l).map (fun c => (edOf l, c)))) (fun x s =>
    let s := if (chanAt s x.1 x.2).replay.isEmpty || (freeLinks s x.1 x.2).isEmpty then s else sendAgain x.1 x.2 f s
    flushC3 x.1 x.2 s) s

/-- Every fibre switches at once, in parallel and without hold (R358: the active source is Absent or in Fault). -/
def switchAll (s : State) : State :=
  let t := spareSrc s
  let s := each s.fabric.held fibreGo s
  let s := each (runningFibres s) (setSwitch t) s
  setF (modChange (fun _ => ⟨false, false, t, none, 0⟩) s) .lgtCombStatus F.lgtCombStatus_active t

/-- Whether the active source has gone Absent or reports a fault, so that it gives no light. -/
def activeGone (s : State) : Bool := let x := sourceAt s (activeSrc s); !x.fitted || !x.faultN

/-- A changeover that is due begins once the spare is eligible, as it does after step 4 of an install (R358). -/
def changeIfDue (s : State) : State :=
  let c := s.light.change
  if c.due && !c.busy && eligible s (spareSrc s) then (if activeGone s then switchAll s else startChange s) else s

/-- A changeover that is due begins once the spare is eligible and no install is busy (R358). -/
def dueChange (s : State) : State := if s.fabric.installing.isEmpty then changeIfDue s else s

/-- A line in use of the active source has reached red (R356, R358). -/
def redActive (s : State) : State :=
  if !flag s .lgtCombCtl F.lgtCombCtl_auto || s.light.change.busy then s
  else if eligible s (spareSrc s) then beginChange s
  else
    let s := raise (lightErr 16 0x0804 0 0) (startSpare s)
    if (sourceAt s (spareSrc s)).faded then s else modChange (fun c => { c with due := true }) s

/-- The active source has gone Absent or into Fault (R358). -/
def activeLost (s : State) : State :=
  if eligible s (spareSrc s) then switchAll s
  else
    let a := activeSrc s
    let s := raise (lightErr 16 0x0804 0 0) s
    let s := modChange (fun c => { c with due := !(sourceAt s (spareSrc s)).faded }) s
    each ((liveLinks s).filter (fun l => getF s (.lgtFibreStatus (fibreOf l)) F.lgtFibreStatus_source == a && (linkAt s l).state != .dark)) linkDark s

/-- The changeover has moved its last fibre: the active source changes, and the old one is the spare. -/
def endChange (s : State) : State :=
  let t := s.light.change.target
  raise (lightErr 16 0x0805 0 0) (setF (modChange (fun c => { c with busy := false, fibre := none }) s) .lgtCombStatus F.lgtCombStatus_active t)

/-- The next fibre that a changeover moves: those of a die in reset are passed over. -/
def nextFibre (s : State) : Option Nat := (runningFibres s).find? (fun f => decide (s.light.change.next ≤ f))

/-- CHANGEOVER_FIBRE_BEGIN: step 1 of R356 for the next fibre; where none is left the changeover ends. -/
def fibreBegin (s : State) : State :=
  let c := s.light.change
  if c.busy && c.fibre.isNone then
    match nextFibre s with
    | none => endChange s
    | some f =>
      let s := each (fibreLinks s f) (fun l => sendControl l 8 0) s
      let s := modFab (fun b => { b with held := f :: b.held }) s
      modChange (fun c => { c with fibre := some (f, .hold), next := f + 1 }) s
  else s

/-- CHANGEOVER_ACKS_DONE: steps 2 and 3 of R356. -/
def acksDone (s : State) : State :=
  match s.light.change.fibre with
  | some (f, .hold) =>
    let t := s.light.change.target
    setSwitch t f (modLight (fun g => { g with change := { g.change with fibre := some (f, .switched) }, txLocked := g.txLocked.set f 0 }) s)
  | _ => s

/-- The positions of a fibre's transmit rings that have a line. -/
def txRings (s : State) (f : Nat) : Nat := maskOf (((nibsOf s f).filter (fun n => n.tx != 255)).map (·.pos))

/-- The source that carries more fibres; where both carry as many, the one that is active (DESIGN CHOICE, assumption 51). -/
def busier (s : State) : Nat :=
  let b := ((List.range 24).filter (fun f => getF s (.lgtFibreStatus f) F.lgtFibreStatus_source == 1)).length
  if b = 12 then activeSrc s else if 12 < b then 1 else 0

/-- CHANGEOVER_RINGS_LOCKED: steps 4 and 5 of R356, or the return of R357. -/
def ringsLocked (locked : Bool) (s : State) : State :=
  match s.light.change.fibre with
  | some (f, .switched) =>
    let rings := txRings s f
    let s := modLight (fun g => { g with change := { g.change with fibre := none }, txLocked := g.txLocked.set f rings }) s
    if locked then
      let s := bumpF (fibreGo f s) .lgtCombStatus F.lgtCombStatus_fibres_done 1
      if (nextFibre s).isNone then endChange s else s
    else
      let s := fibreGo f (setSwitch (1 - s.light.change.target) f s)
      let s := setF (modChange (fun c => { c with busy := false }) s) .lgtCombStatus F.lgtCombStatus_active (busier s)
      raise (lightErr (16 + f / 6) 0x0807 f 0) s
  | _ => s

/-! ### Levels and slopes (R353, R354) -/

/-- A quotient to the nearest integer, halves up (DESIGN CHOICE, assumption 53). -/
def nearest (a b : Int) : Int := (2 * a + b) / (2 * b)

/-- The slope as LGT_ED_e_MON_s_w shows it: in 0.005 dB per hour, held to int8, 0 until it is fitted (Table 12.8). -/
def slopeField (l : Line) : Int := l.slope.elim 0 (fun k => max (-128) (min 127 (nearest (120 * k.1) k.2)))

/-- Whether a line's slope predicts red: negative, and the mean would reach P0 less red within slope_hours. -/
def predictsRed (s : State) (l : Line) : Bool :=
  let h := getF s .lgtThresh F.lgtThresh_slope_hours
  match l.slope, l.mean, l.p0 with
  | some k, some v, some p => decide (h ≠ 0 ∧ k.1 < 0 ∧ v * k.2 + 60 * k.1 * h ≤ (p - margin s F.lgtThresh_red) * k.2)
  | _, _, _ => false

/-- The level of Table 12.3 that a line's mean gives, coded as Table 12.8 codes it. -/
def levelNow (s : State) (l : Line) : Nat :=
  if lineBelow l (margin s F.lgtThresh_floor) then 4
  else if lineBelow l (margin s F.lgtThresh_red) then 3
  else if lineBelow l (margin s F.lgtThresh_amber) then 1
  else if predictsRed s l then 2
  else 0

/-- Levels in rising order of gravity: normal, amber by slope, amber, red, floor. -/
def gravity (l : Nat) : Nat :=
  match l with
  | 0 => 0
  | 1 => 2
  | 2 => 1
  | n => n

/-- Whether a mean is at or above a level's threshold plus the clear margin. Amber by slope has no threshold: it clears when the slope no longer predicts red. -/
def cleared (s : State) (l : Line) : Bool :=
  let above (f : Fld) : Bool := !lineBelow l (margin s f - margin s F.lgtThresh_clear)
  match l.level with
  | 1 => above F.lgtThresh_amber
  | 2 => !predictsRed s l
  | 3 => above F.lgtThresh_red
  | 4 => above F.lgtThresh_floor
  | _ => true

/-- The transmit rings of an edge die on a line that their fibre takes from a source, as fibre and position. -/
def ringsOn (s : State) (e c w : Nat) : List (Nat × Nat) :=
  ((List.range 6).flatMap (fun p => ((nibsOf s (e * 6 + p)).filter (fun n => n.tx == w)).map (fun n => (e * 6 + p, n.pos)))).filter
    (fun r => getF s (.lgtFibreStatus r.1) F.lgtFibreStatus_source == c)

/-- What a line in use does on reaching a level (Table 12.3). -/
def levelAction (e c w lvl : Nat) (s : State) : State :=
  let active := c == activeSrc s
  let err (code : Nat) (s : State) : State := raise (lightErr (16 + e) code 0 w) s
  match lvl with
  | 4 =>
    each (ringsOn s e c w) (fun r s => setLock r.1 r.2 true false (txLeave r.1 r.2 s)) (err 0x0803 s)
  | 3 =>
    let s := modSource c (fun x => { x with faded := true }) (err 0x0802 s)
    if active then redActive s else s
  | 0 => s
  | _ => let s := err 0x0801 s; if active then startSpare s else s

/-- Levels passed on the way from one to another, the milder first: a line that falls past several takes the action of each (DEDUCED, assumption 52). -/
def passed (s : State) (l : Line) (old new : Nat) : List Nat :=
  ([2, 1, 3, 4] : List Nat).filter (fun v => decide (gravity old < gravity v ∧ gravity v ≤ gravity new) && (v != 2 || (new == 2 && predictsRed s l)))

/-- A line has left the floor: its rings that have locked again rejoin (R353). -/
def leaveFloor (e c w : Nat) (s : State) : State :=
  each ((ringsOn s e c w).filter (fun r => (s.light.txLocked.get r.1 0).testBit r.2)) (fun r => txJoin r.1 r.2) s

/-- A line's level after a mean of 1 s (R353). -/
def setLevel (e c w : Nat) (s : State) : State :=
  let l := lineAt s e c w
  if !(sourceAt s c).p0 then s
  else
    let new := levelNow s l
    if gravity l.level < gravity new then
      let s := modLine e c w (fun l => { l with level := new, clear := 0 }) s
      if lineInUse s e w then each (passed s l l.level new) (levelAction e c w) s else s
    else if new = l.level ∨ !cleared s l then modLine e c w (fun l => { l with clear := 0 }) s
    else if l.clear + 1 ≥ (if l.level = 4 then 1 else 60) then
      let s := modLine e c w (fun l => { l with level := new, clear := 0 }) s
      if l.level = 4 then leaveFloor e c w s else s
    else modLine e c w (fun l => { l with clear := l.clear + 1 }) s

/-- The mean of some samples. -/
def meanOf (l : List Int) : Option Int := if l.isEmpty then none else some (nearest (l.foldl (· + ·) 0) l.length)

/-- LINE_MEAN_UPDATE: the mean of the running second. -/
def meanUpdate (e c w : Nat) (s : State) : State :=
  if e < 4 ∧ c < 2 ∧ w < 72 ∧ 1 < sourceState s c ∧ !inReset s (16 + e) then
    let m := meanOf (lineAt s e c w).samples
    let s := modLine e c w (fun l => { l with mean := m, samples := [], minute := l.minute ++ m.toList }) s
    dueChange (if m.isSome then setLevel e c w s else s)
  else s

/-- The least-squares slope of some one-minute means, as a fraction of 0.01 dB per minute with a positive denominator. -/
def fitSlope (l : List (Nat × Int)) : Int × Int :=
  let n : Int := l.length
  let sum (f : Nat × Int → Int) : Int := l.foldl (fun a p => a + f p) 0
  let sx := sum (fun p => p.1)
  let sy := sum (fun p => p.2)
  let num := n * sum (fun p => p.1 * p.2) - sx * sy
  let den := n * sum (fun p => (p.1 : Int) * p.1) - sx * sx
  if den = 0 then (0, 1) else (num, den)

/-- SLOPE_UPDATE (R354): the minute's mean joins those of the last 24 h, and the slope is fitted where 6 h of them are held. -/
def slopeUpdate (e c w : Nat) (s : State) : State :=
  if e < 4 ∧ c < 2 ∧ w < 72 ∧ !inReset s (16 + e) then
    let now := nowNs s / (60 * 10 ^ 9)
    let l := lineAt s e c w
    let minutes := (l.minutes.filter (fun p => decide (now < p.1 + 1440))) ++ ((meanOf l.minute).toList.map (fun v => (now, v)))
    modLine e c w (fun l => { l with
      minute := [], minutes := minutes, slope := if 360 ≤ minutes.length then some (fitSlope minutes) else none }) s
  else s

/-! ### Commissioning and the comb control register (R352, R356, R358, R359) -/

/-- Whether every line of a source reads +3.00 dBm or more. -/
def allBright (s : State) (c : Nat) : Bool := combLines.all (fun p => (lineAt s p.1 c p.2).mean.any (fun v => decide (300 ≤ v)))

/-- A source is commissioned (R352). -/
def commissionSrc (c : Nat) (s : State) : State :=
  let x := sourceAt s c
  if x.fitted && x.en && x.rdy && x.faultN && allBright s c then
    let s := each combLines (fun p => modLine p.1 c p.2 (fun l => { l with p0 := l.mean, minutes := [], minute := [], slope := none })) s
    let s := modSource c (fun x => { x with p0 := true, faded := false }) s
    dueChange (setF s .lgtCombCtl F.lgtCombCtl_commission_status 2)
  else setF (raise { lightErr 16 0x0809 0 0 with cont := contX } s) .lgtCombCtl F.lgtCombCtl_commission_status 3

/-- A write of LGT_COMB_CTL (Table 12.6): its fields, then commission, spare_start, spare_stop and switch. -/
def combCtl (val : BitVec 32) (s : State) : State :=
  if inReset s 16 then s
  else
    let v := val.toNat
    let s := setF (setF s .lgtCombCtl F.lgtCombCtl_auto (bits v 0 1)) .lgtCombCtl F.lgtCombCtl_commission_src (bits v 5 1)
    let s := if v.testBit 4 then commissionSrc (bits v 5 1) s else s
    let s := if v.testBit 1 then startSpare s else s
    let s := if v.testBit 2 && !s.light.change.busy && !s.light.change.due then setEn (spareSrc s) false s else s
    if v.testBit 3 && !s.light.change.busy && eligible s (spareSrc s) then beginChange s else s

/-- A write of LGT_THRESH (R360). -/
def threshWrite (val : BitVec 64) (s : State) : State :=
  let r := Reg.lgtThresh
  if inReset s 16 then s
  else if F.lgtThresh_amber.of val < F.lgtThresh_red.of val ∧ F.lgtThresh_red.of val < F.lgtThresh_floor.of val then setReg s r (rwBits r val)
  else raise { lightErr 16 0x080A 0 0 with cont := contX } s

/-! ### Start (R359) -/

/-- How good a choice a source is at start: 0 a candidate, 1 fitted, 2 not. -/
def startRank (s : State) (c : Nat) : Nat :=
  let x := sourceAt s c
  if !x.fitted then 2 else if x.p0 && !x.faded then 0 else 1

/-- Active names a source, and every switch stands at it. -/
def setActive (c : Nat) (s : State) : State := each (List.range 24) (setSwitch c) (setF s .lgtCombStatus F.lgtCombStatus_active c)

/-- The firmware chooses the active source and enables it and no other (R359). -/
def startLight (s : State) : State :=
  let c := if startRank s 1 < startRank s 0 then 1 else 0
  let s := setEn (1 - c) false (setActive c s)
  if (sourceAt s c).fitted then setEn c true s else s

/-- The source first enabled has not become Ready, or has gone to Fault while it warmed: the other is taken where it is at least as good a choice (R359; DEDUCED, assumption 54). -/
def startFallback (s : State) : State :=
  let a := activeSrc s
  let b := spareSrc s
  if startRank s b < 2 ∧ startRank s b ≤ startRank s a then
    raise (lightErr 16 0x0804 0 0) (setEn b true (setActive b (setEn a false s)))
  else s

/-! ### Signals of the units -/

/-- LGT_CSM_s_PRSNT_N changes (R350, R358, R359). -/
def presentChange (c : Nat) (high : Bool) (s : State) : State :=
  let x := sourceAt s c
  if high then
    if x.fitted then
      let s := setEn c false (modSource c (fun x => { x with fitted := false, rdy := false }) s)
      if c = activeSrc s then activeLost s else s
    else s
  else if x.fitted then s
  else
    let s := modSource c (fun x => { x with fitted := true }) s
    let late := c = activeSrc s ∨ (sourceAt s (activeSrc s)).fitted = false
    if late ∧ getF s .pwrState F.pwrState_state ≠ 3 then setEn c true s else s

/-- LGT_CSM_s_RDY changes. -/
def readyChange (c : Nat) (high : Bool) (s : State) : State := dueChange (modSource c (fun x => { x with rdy := high }) s)

/-- LGT_CSM_s_FAULT_N changes (R358, R359). -/
def faultChange (c : Nat) (high : Bool) (s : State) : State :=
  let x := sourceAt s c
  let s := modSource c (fun x => { x with faultN := high }) s
  if high then dueChange s
  else if x.faultN && x.fitted && x.en && c == activeSrc s then (if x.rdy then activeLost s else startFallback s)
  else s

/-! ### Rings (R355) -/

/-- RING_UNLOCK. A receive filter of a fibre that the peer holds is not counted, nor a transmit ring of a fibre that changes over. -/
def ringUnlock (f nib : Nat) (tx : Bool) (s : State) : State :=
  let locked := (if tx then s.light.txLocked else s.light.rxLocked).get f 0
  if f < 24 ∧ nib < 16 ∧ !inReset s (16 + f / 6) ∧ locked.testBit nib ∧ !((if tx then s.fabric.held else s.fabric.peerHeld).contains f) then
    let line := ((nibsOf s f).find? (·.pos == nib)).elim 0 (fun n => if tx then n.tx else n.rx)
    let s := bumpF (setLock f nib tx false s) (.lgtFibreStatus f) F.lgtFibreStatus_unlocks 1
    let s := raise (lightErr (16 + f / 6) 0x0806 f line) s
    if tx then txLeave f nib s
    else each (fibreLinks s f) (fun l s => darkIfBare l (modLink l (fun k => { k with rxActive := k.rxActive ^^^ (k.rxActive &&& 2 ^ nib) }) s)) s
  else s

/-- RING_RELOCK: the ring joins again, or the filter delivers again. -/
def ringRelock (f nib : Nat) (tx : Bool) (s : State) : State :=
  if f < 24 ∧ nib < 16 ∧ !inReset s (16 + f / 6) then
    let s := setLock f nib tx true s
    if tx then txJoin f nib s
    else each ((fibreLinks s f).filter (fun l => (linkAt s l).delin.testBit nib)) (fun l => modLink l (fun k => { k with rxActive := k.rxActive ||| 2 ^ nib })) s
  else s

/-! ### The commands -/

def execCombPresentChange (src : Nat) (high : Bool) (s : State) : Host.Outcome State Fault Refusal :=
  .next (if src < 2 then presentChange src high s else s)
def execCombReadyChange (src : Nat) (high : Bool) (s : State) : Host.Outcome State Fault Refusal :=
  .next (if src < 2 then readyChange src high s else s)
def execCombFaultChange (src : Nat) (high : Bool) (s : State) : Host.Outcome State Fault Refusal :=
  .next (if src < 2 then faultChange src high s else s)

/-- LINE_POWER_SAMPLE (R351). -/
def execLinePowerSample (e src line : Nat) (power : Int) (s : State) : Host.Outcome State Fault Refusal :=
  .next (if e < 4 ∧ src < 2 ∧ line < 72 ∧ 1 < sourceState s src ∧ !inReset s (16 + e) then
    modLine e src line (fun l => { l with samples := l.samples ++ [power] }) s else s)

def execLineMeanUpdate (e src line : Nat) (s : State) : Host.Outcome State Fault Refusal := .next (meanUpdate e src line s)
def execSlopeUpdate (e src line : Nat) (s : State) : Host.Outcome State Fault Refusal := .next (slopeUpdate e src line s)
def execCommission (val : BitVec 32) (s : State) : Host.Outcome State Fault Refusal := .next (regWrite .lgtCombCtl (combCtl val) s)
def execSpareStart (val : BitVec 32) (s : State) : Host.Outcome State Fault Refusal := .next (regWrite .lgtCombCtl (combCtl val) s)
def execSpareStop (val : BitVec 32) (s : State) : Host.Outcome State Fault Refusal := .next (regWrite .lgtCombCtl (combCtl val) s)
def execSwitch (val : BitVec 32) (s : State) : Host.Outcome State Fault Refusal := .next (regWrite .lgtCombCtl (combCtl val) s)
def execLgtThreshWrite (val : BitVec 64) (s : State) : Host.Outcome State Fault Refusal := .next (regWrite .lgtThresh (threshWrite val) s)
def execChangeoverFibreBegin (s : State) : Host.Outcome State Fault Refusal := .next (fibreBegin s)
def execChangeoverAcksDone (s : State) : Host.Outcome State Fault Refusal := .next (acksDone s)
def execChangeoverRingsLocked (locked : Bool) (s : State) : Host.Outcome State Fault Refusal := .next (ringsLocked locked s)

/-- SOURCE_START_TIMEOUT (R359): the active source is on and not Ready, warming or in Fault. -/
def execSourceStartTimeout (s : State) : Host.Outcome State Fault Refusal :=
  .next (let x := sourceAt s (activeSrc s); if x.fitted && x.en && sourceState s (activeSrc s) != 3 then startFallback s else s)

def execRingUnlock (f nib : Nat) (tx : Bool) (s : State) : Host.Outcome State Fault Refusal := .next (ringUnlock f nib tx s)
def execRingRelock (f nib : Nat) (tx : Bool) (s : State) : Host.Outcome State Fault Refusal := .next (ringRelock f nib tx s)

end Sys2Proof.Machine
end

