-- ==== Sys2Proof/Machine/Ingress.lean ====
section
/-! DEFINITION. Packets that arrive: the ingress checks, delivery, forwarding and the landing of write packets (R324, R330, R341, R342). -/

namespace Sys2Proof.Machine

/-- The route entry that a label selects in an edge die, where it is valid (R330). -/
def routeOf (s : State) (e label : Nat) : Option RouteEntry :=
  ((sectionOf s e).bind (fun t => t.routes[label]?)).filter (·.valid)

/-- Whether a channel's landing window grants a right over a range (Table 11.15). -/
def landingGrants (s : State) (win : Nat) (right : Right) (a n : Nat) : Bool :=
  (s.windows.get? win).any (fun w => w.granting.isNone && !w.revoking && w.rights.testBit right.bit && decide (w.base ≤ a ∧ a + n ≤ w.base + w.len))

/-- Whether a write packet may land under a window. -/
def landingOk (s : State) (win : Nat) (p : WritePkt) : Bool :=
  landingGrants s win .w p.dest p.data.length && (!p.post || (p.postAddr % 8 == 0 && landingGrants s win .a p.postAddr 8))

/-- The compute die in reset that a range lies in. -/
def resetDie (s : State) (a n : Nat) : Option Nat :=
  ([a, a + n - 1].filterMap (ownerOf s)).find? (fun d => decide (d < 16) && inReset s d)

/-- A landing into a compute die in reset is recorded once for each reset (Table 11.15). -/
def noteTargetReset (l d : Nat) (s : State) : State :=
  if s.fabric.recorded.contains d then s
  else raise (linkErr s l 0x0715 contL 0) (modFab (fun b => { b with recorded := d :: b.recorded }) s)

/-- A packet fails an ingress check: the link's ingress freezes (R342). -/
def ingressFails (l code : Nat) (s : State) : State := freezeIn l 0 (raise (linkErr s l code contF 0) s)

/-- A record of a landing by a link. -/
def landErr (s : State) (l a : Nat) : Err := { linkErr s l 0 contV 0 with mkind := 4, midx := fibreOf l, addr := a }

/-- A delivered write packet is performed: its data in address order, then its post (R324). -/
def performWrite (l : Nat) (p : WritePkt) (s : State) : State :=
  let n := p.data.length
  let e := landErr s l p.dest
  let s := testWrite (lapSeen s) none e p.dest n (store p.dest p.data s)
  if p.post then
    let v := atomicVal .add 8 (rdN s p.postAddr 8) p.postVal.toNat 0
    testWrite (lapSeen s) none e p.postAddr 8 (store p.postAddr (bytesLE 8 v) s)
  else s

/-- A delivered write packet (Table 11.15, R207, R302). One that the lap block refuses freezes the ingress with the lap code; one that meets poison in part is dropped (assumption 55). -/
def deliverWrite (l win : Nat) (p : WritePkt) (s : State) : State :=
  let n := p.data.length
  let code := if lapCode s false p.dest n ≠ 0 then lapCode s false p.dest n else if p.post then lapCode s false p.postAddr 8 else 0
  if !landingOk s win p then ingressFails l 0x0713 s
  else
    let s := probe (if p.post then [(p.postAddr, 8)] else []) [(p.dest, n)] s
    match (resetDie s p.dest n).or (if p.post then resetDie s p.postAddr 8 else none) with
    | some d => noteTargetReset l d s
    | none =>
      if code ≠ 0 then freezeIn l 0 (raise { landErr s l p.dest with code := code, cont := contF } s)
      else
        match poisonPartial s p.dest n with
        | some u => raise { landErr s l u with code := 0x0406, cont := contL, detail := unitDetail s u 0 0 } s
        | none => performWrite l p s

/-- The engine that holds a packet's relay, started or posted; where none does, the one of the edge die it came to (R330). -/
def engineOf (s : State) (e : Nat) (p : RelayPkt) : Nat :=
  let has (i : Nat) : Bool := started s i p || (engineAt s i).posts.any (fun q => q.ext.tag == p.tag && q.ext.lap == p.lap)
  ((e :: List.range 4).find? has).getD e

/-- The landing address of a packet's relay. -/
def landingOf (s : State) (e : Nat) (p : RelayPkt) : Option Nat :=
  let g := engineAt s e
  let mine (x : Ext) : Bool := x.tag == p.tag && x.lap == p.lap
  (((g.slots.map (·.2.post)) ++ g.posts).find? (fun q => mine q.ext)).map (·.ext.dst)

/-- A delivered relay packet: data aimed at a compute die in reset is discarded, anything else goes to its relay (R256, R341). -/
def deliverRelay (e l : Nat) (p : RelayPkt) (s : State) : State :=
  let e := engineOf s e p
  match if p.type = 0 then (landingOf s e p).bind (fun a => resetDie s a 1) else none with
  | some d => noteTargetReset l d s
  | none => relayArrives e l p s

/-- The class of a packet (Table 11.4). -/
def Cargo.cls : Cargo → Nat
  | .relay p => if p.kind = 5 then 0 else 1
  | .write _ => 2

/-- A C0 to C2 packet whose turn it is on a link's channel: the checks of Table 11.15, then delivery or transit (R321, R330, R341, R342). -/
def packetTaken (l ch : Nat) (pkt : Packet) (s : State) : State :=
  let e := edOf l
  let took (free : Bool) (s : State) : State := acceptPacket e ch (flitsOf pkt) pkt.cls free s
  if (linkAt s l).frozenIn then took true s
  else if (chanAt s e ch).state ≠ .open then ingressFails l 0x0711 (took true s)
  else if pkt.job % 256 ≠ jobOf s % 256 then ingressFails l 0x0710 (took true s)
  else
    match routeOf s e pkt.label with
    | none => ingressFails l 0x0712 (took true s)
    | some r =>
      if !r.deliver then
        modChan e ch (fun q => { q with transit := q.transit ++ [(chanKey r.ed r.chan, { pkt with label := r.label })] }) (took false s)
      else
        let s := took true s
        match pkt.cargo with
        | .relay p => deliverRelay e l p s
        | .write p => deliverWrite l ((chanEntry s e ch).elim 0xFFFF (·.window)) p s

/-- Packets that arrived early are taken as their turn comes (R322), at most as many as are held. -/
def takeEarly (e ch : Nat) : Nat → State → State
  | 0, s => s
  | n + 1, s =>
    match (chanAt s e ch).early.find? (fun p => p.seq == (chanAt s e ch).expect) with
    | none => s
    | some p => takeEarly e ch n (packetTaken p.link ch p.packet (modChan e ch (fun q => { q with early := q.early.filter (·.seq != p.seq) }) s))

/-- A C0 to C2 packet that has arrived whole on a link (R322): one in sequence is taken, with those that waited for it; one ahead of its turn is held; a duplicate is discarded. -/
def packetArrives (l label : Nat) (a : Arrival) (c : Cargo) (s : State) : State :=
  if !linkLive s l || (linkAt s l).state != .up then s
  else
    match chanOf s l with
    | none => if (linkAt s l).frozenIn then s else ingressFails l 0x0711 s
    | some ch =>
      let e := edOf l
      let pkt : Packet := ⟨c.cls, label, a.job, none, c⟩
      if ahead (chanAt s e ch) a.seq = 0 then takeEarly e ch (chanAt s e ch).early.length (packetTaken l ch pkt s)
      else holdEarly e ch l a.seq a.nibs pkt s

def execRelayPacketReceive (l label : Nat) (a : Arrival) (p : RelayPkt) (s : State) : Host.Outcome State Fault Refusal :=
  .next (packetArrives l label a (.relay p) s)

def execWritePacket (l label : Nat) (a : Arrival) (p : WritePkt) (s : State) : Host.Outcome State Fault Refusal :=
  .next (if 1 ≤ p.data.length ∧ p.data.length ≤ 3808 then packetArrives l label a (.write p) s else s)

end Sys2Proof.Machine
end

