-- ==== Sys2Proof/Machine/SweyrImage.lean ====
section
/-! DEFINITION. What a Sweyr link carries bit by bit: the 128-byte flit with its CRC, the head of a message, link control, the lanes of a flit, and the frames of the
sideband (R367 to R371, R375, Tables 13.3 to 13.7 and 13.9). -/

namespace Sys2Proof.Machine

/-! ### Flits (R368, R369) -/

/-- A Sweyr flit but for its CRC. -/
structure SwlFlit where
  type : Nat
  vc : Nat
  last : Bool
  poison : Bool
  seq : Nat
  ack : Option Nat
  payload : List Byte
  deriving DecidableEq, Repr

/-- The fields of a flit lie within their widths, its type is not reserved, and its payload is 120 bytes. -/
def SwlFlit.fits (f : SwlFlit) : Prop := f.type < 5 ∧ f.vc < 4 ∧ f.seq < 256 ∧ (∀ a ∈ f.ack, a < 256) ∧ f.payload.length = 120

/-- Bytes 0 to 123 of a flit (Table 13.3). -/
def SwlFlit.body (f : SwlFlit) : List Byte :=
  bytesLE 1 (f.type + 16 * f.vc + 64 * f.last.toNat + 128 * f.poison.toNat) ++ (bytesLE 1 f.seq ++ (bytesLE 1 (f.ack.getD 0) ++ (bytesLE 1 f.ack.isSome.toNat ++ f.payload)))

/-- A flit's 128 bytes. -/
def SwlFlit.image (f : SwlFlit) : List Byte := f.body ++ bytesLE 4 (crc32c f.body)

/-- The fields that 128 bytes hold, whatever their CRC. -/
def swlFlitFields (bs : List Byte) : SwlFlit :=
  let t := field bs 0 1
  ⟨t % 16, t / 16 % 4, t.testBit 6, t.testBit 7, field bs 1 1, if (field bs 3 1).testBit 0 then some (field bs 2 1) else none, (bs.drop 4).take 120⟩

/-- The flit that 128 bytes spell: none where the CRC fails or the type is reserved. Split markers have their type on links of version 1.2, where `markers` (Table 13.4). -/
def readSwlFlit (markers : Bool) (bs : List Byte) : Option SwlFlit :=
  let f := swlFlitFields bs
  if bs.length = 128 ∧ field bs 124 4 = crc32c (bs.take 124) ∧ f.type < (if markers then 5 else 4) then some f else none

/-! ### Lanes (R367) -/

/-- The lanes of a width and group, coded as byte 1 of Table 13.12: the first, and how many. -/
def laneGroup (code : Nat) : Nat × Nat :=
  let w := 64 / 2 ^ (code % 4)
  (code / 4 * w, w)

/-- What lane `lane` carries in unit interval `ui` after a flit's first; none for a lane outside the group or after the flit. -/
def laneBit (code lane ui : Nat) (image : List Byte) : Option Bool :=
  let (first, w) := laneGroup code
  let b := ui * w + (lane - first)
  if first ≤ lane ∧ lane < first + w ∧ b < 8 * image.length then some ((image.getD (b / 8) 0).toNat.testBit (b % 8)) else none

/-! ### Messages (R370, R371) -/

/-- The virtual channel of an opcode (Table 13.7). -/
def vcOf (op : Nat) : Nat := op / 16

/-- Whether an opcode is one of Table 13.7. -/
def opKnown (op : Nat) : Bool := ([0x01, 0x02, 0x03, 0x04, 0x11, 0x12, 0x13, 0x14, 0x21, 0x31] : List Nat).contains op

/-- Whether messages of an opcode carry a payload. -/
def opCarries (op : Nat) : Bool := ([0x02, 0x04, 0x11, 0x21, 0x31] : List Nat).contains op

/-- Flits of a message: a payload of 64 bytes or less rides in the head (R370). -/
def msgFlits (m : SwlMsg) : Nat := if m.data.length ≤ 64 then 1 else 1 + (m.data.length + 119) / 120

/-- A head flit's payload (Table 13.6). -/
def headBytes (op : Nat) (m : SwlMsg) : List Byte :=
  bytesLE 1 op ++ bytesLE 1 m.statusOnly.toNat ++ bytesLE 2 m.src ++ bytesLE 2 m.dst ++ bytesLE 2 m.tag ++ bytesLE 8 m.addr ++ bytesLE 4 m.len ++ bytesLE 1 m.atomic ++
  bytesLE 1 m.status ++ bytesLE 2 m.residue ++ bytesLE 1 m.overflow.toNat ++ bytesLE 3 0 ++ bytesLE 8 m.operand.toNat ++ bytesLE 8 m.compare.toNat ++ bytesLE 4 m.master ++
  bytesLE 8 m.packet.toNat ++ padTo 64 (if m.data.length ≤ 64 then m.data else [])

/-- The types and payloads of a message's flits, the head first. -/
def msgBodies (op : Nat) (m : SwlMsg) : List (Nat × List Byte) :=
  (1, headBytes op m) :: (if m.data.length ≤ 64 then [] else (pieces 120 ((m.data.length + 119) / 120) m.data).map (fun l => (2, padTo 120 l)))

/-- A message's flits, numbered from a sequence, each with the ack that stands. -/
def swlFlits (op seq : Nat) (ack : Option Nat) (m : SwlMsg) : List SwlFlit :=
  (msgBodies op m).zipIdx.map (fun b => ⟨b.1.1, vcOf op, b.2 + 1 == msgFlits m, m.poison.contains b.2, (seq + b.2) % 256, ack, b.1.2⟩)

/-- The opcode and fields of a head's payload, with the payload that its message carries. -/
def readHead (b : List Byte) (data : List Byte) (poison : List Nat) : Nat × SwlMsg :=
  let f (o n : Nat) : Nat := field b o n
  let op := f 0 1
  (op, ⟨(f 1 1).testBit 0, f 2 2, f 4 2, f 6 2, f 8 8, f 16 4, f 20 1, f 21 1, f 22 2, (f 24 1).testBit 0, BitVec.ofNat 64 (f 28 8), BitVec.ofNat 64 (f 36 8), f 44 4,
    BitVec.ofNat 64 (f 48 8), if opCarries op then data.take (f 16 4) else [], poison⟩)

/-- The message that a run of flits is: a head, data flits of its channel in sequence, and `last` on the last one alone. -/
def readMessage (fs : List SwlFlit) : Option (Nat × SwlMsg) :=
  match fs with
  | [] => none
  | h :: ds =>
    let whole := h.type == 1 && ds.all (fun d => d.type == 2 && d.vc == h.vc) &&
      fs.zipIdx.all (fun f => f.1.seq == (h.seq + f.2) % 256 && f.1.last == (f.2 + 1 == fs.length)) && decide (fs.length ≤ 33)
    let poison := (fs.zipIdx.filter (·.1.poison)).map (·.2)
    if whole then some (readHead h.payload (if ds.isEmpty then h.payload.drop 56 else ds.flatMap (·.payload)) poison) else none

/-! ### What an end sends and hears -/

/-- An unsequenced flit: idle, link control or a split marker. -/
def plainFlit (type : Nat) (ack : Option Nat) (bs : List Byte) : SwlFlit := ⟨type, 0, true, false, 0, ack, padTo 120 bs⟩

/-- The Sweyr flits of something sent; none for what does not leave by a Sweyr link. -/
def Out.swlFlits : Out → List SwlFlit
  | .sweyr _ op seq first m ack _ => (Machine.swlFlits op ((seq + 256 * 33 - first) % 256) ack m).drop first
  | .sweyrIdle _ ack => [plainFlit 0 ack []]
  | .sweyrCredit _ c ack => [plainFlit 3 ack (bytesLE 1 1 ++ bytesLE 1 0 ++ c.flatMap (bytesLE 2))]
  | .sweyrNak _ seq ack => [plainFlit 3 ack (bytesLE 1 2 ++ bytesLE 1 seq)]
  | _ => []

/-- The flits of an arrival of a message of an opcode. -/
def arrivalFlits (op : Nat) (a : SwlIn) : List SwlFlit :=
  ((Machine.swlFlits op ((a.seq + 256 * 33 - a.first) % 256) a.ack a.msg).drop a.first).take a.count

/-- Whether some flits of one message bring a command to an end (Table 13.7). -/
def flitsBring (x : Nat) (fs : List SwlFlit) (i : Instr) : Prop :=
  ∃ a : SwlIn, fs ≠ [] ∧ ((i = .read x a ∧ fs = arrivalFlits 0x01 a) ∨ (i = .write x a ∧ fs = arrivalFlits 0x02 a) ∨ (i = .atomic x a ∧ fs = arrivalFlits 0x03 a) ∨ (i = .tallyAdd x a ∧ fs = arrivalFlits 0x04 a) ∨
    (i = .readResp x a ∧ fs = arrivalFlits 0x11 a) ∨ (i = .writeAck x a ∧ fs = arrivalFlits 0x12 a) ∨ (i = .atomicResp x a ∧ fs = arrivalFlits 0x13 a) ∨ (i = .tallyAck x a ∧ fs = arrivalFlits 0x14 a) ∨
    (i = .packet x a ∧ fs = arrivalFlits 0x21 a) ∨ (i = .notice x a ∧ fs = arrivalFlits 0x31 a))

/-- Whether an unsequenced flit brings a command to an end (Tables 13.4 and 13.5). An idle flit is a credit of nothing: it may carry an ack. A marker's time is laid out as the
model's choice (assumption 117). -/
def SwlFlit.brings (x : Nat) (f : SwlFlit) (i : Instr) : Prop :=
  let b (o n : Nat) : Nat := field f.payload o n
  match f.type with
  | 0 => i = .credit x 0 0 0 0 f.ack
  | 3 => (b 0 1 = 1 ∧ i = .credit x (b 2 2) (b 4 2) (b 6 2) (b 8 2) f.ack) ∨ (b 0 1 = 2 ∧ i = .nak x (b 1 1))
  | 4 => i = .sweyrSplitMarker x (b 0 8) (b 8 2)
  | _ => False

/-! ### The sideband (R375) -/

/-- A frame: kind, length, body and CRC-32C. -/
def frameBytes (kind : Nat) (body : List Byte) : List Byte :=
  let b := bytesLE 1 kind ++ (bytesLE 1 body.length ++ body)
  b ++ bytesLE 4 (crc32c b)

/-- The kind and body of a frame: none, where it is dropped, its CRC failing or its length not being that of a body of 64 bytes or less. -/
def readFrame (bs : List Byte) : Option (Nat × List Byte) :=
  let n := field bs 1 1
  if n ≤ 64 ∧ bs.length = n + 6 ∧ field bs (n + 2) 4 = crc32c (bs.take (n + 2)) then some (field bs 0 1, (bs.drop 2).take n) else none

/-- The bytes of a frame sent. -/
def Out.frame : Out → Option (List Byte)
  | .sideband _ kind body => some (frameBytes kind body)
  | _ => none

/-- Whether a frame's bytes bring a command to an end (Table 13.9); one dropped or of a reserved kind brings none. TIME's body is laid out as the model's choice
(assumption 117). -/
def frameBrings (x : Nat) (bs : List Byte) (i : Instr) : Prop :=
  match readFrame bs with
  | none => False
  | some (kind, b) =>
    match kind with
    | 1 => i = .cap x b
    | 2 => i = .capAck x
    | 3 => i = .trainReq x (field b 0 1)
    | 4 => i = .laneResult x (BitVec.ofNat 64 (natLE b))
    | 5 => i = .widthCheck x (BitVec.ofNat 64 (natLE b))
    | 6 => i = .active x
    | 7 => i = .resetNotice x
    | 8 => i = .retrainReq x
    | 9 => i = .time x (field b 0 8) (field b 8 2)
    | 10 => i = .mgmt x b
    | _ => False

end Sys2Proof.Machine
end

