-- ==== Sys2Proof/Machine/SweyrLink.lean ====
section
/-! DEFINITION. Ends of Sweyr links: capability blocks, training, the width check, retry and credits, and the control register (R366 to R384, R391 to R394). An end is
numbered 2 L + n. -/

namespace Sys2Proof.Machine

/-- An end as a cold reset leaves it: Reset, nothing learnt. -/
def SwlEnd.cold : SwlEnd :=
  ⟨.reset, 0, 0, 0, 0, false, [], false, false, 0, none, none, 0, 0, false, false, false, 0, 0, [], [0, 0, 0, 0], [0, 0, 0, 0], false, 0, 0, [], []⟩

/-- An end. -/
def endAt (s : State) (x : Nat) : SwlEnd := s.sweyr.ends.get x SwlEnd.cold

/-- An end changed. -/
def modEnd (x : Nat) (f : SwlEnd → SwlEnd) (s : State) : State :=
  { s with sweyr := { s.sweyr with ends := s.sweyr.ends.set x (f (endAt s x)) } }

/-- A link is disabled at an end. -/
def endDisabled (s : State) (x : Nat) : Bool := flag s (.swlCtl x) F.swlCtl_disable

/-- Whether an end can be commanded: it exists, and its die runs. -/
def endLive (s : State) (x : Nat) : Bool := decide (x < 448) && !inReset s (swlEndDie x)

/-- A record of a link end (Table 18.2). -/
def swlErr (x code cont : Nat) : Err :=
  { code := code, cont := cont, die := swlEndDie x, mkind := 5, midx := x / 2, detail := x / 2 + x % 2 * 2 ^ 16 }

/-! ### Lane groups (R367, R379) -/

/-- The width and group that a mask of passing lanes allows, of the widths that both ends support, coded as byte 1 of Table 13.12: 64; a half; a quarter; none. `widths` is laid out as
byte 7 of Table 13.10. -/
def widthOf (widths : Nat) (m : BitVec 64) : Option Nat :=
  let all (bit lo n : Nat) : Bool := widths.testBit bit && m.toNat / 2 ^ lo % 2 ^ n == 2 ^ n - 1
  if all 0 0 64 then some 0
  else if all 1 0 32 then some 1
  else if all 1 32 32 then some 5
  else ((List.range 4).find? (fun q => all 2 (16 * q) 16)).map (fun q => 2 + 4 * q)

/-- Whether quarter 0 passed. -/
def quarter0 (m : BitVec 64) : Bool := m.toNat % 65536 == 65535

/-! ### Capability blocks (R376 to R378) -/

/-- The module number and side of an end (Table 13.10). -/
def endModule (x : Nat) : Nat := if x / 2 < 192 then x / 2 % 8 else 2 + x / 2 % 2
def endSide (x : Nat) : Nat :=
  let n := x % 2
  if x / 2 < 96 then (if n = 0 then 1 else 3)
  else if x / 2 < 192 then (if n = 0 then 2 else 0)
  else ((x / 2 - 192) / 8 + 2 * n) % 4

/-- The version that an end's die offers: edge dies 1.1, compute dies 1.2. -/
def ownVersion (x : Nat) : Nat := if swlEndDie x < 16 then 0x12 else 0x11

/-- An end's own capability block (Table 13.10). What the spec gives no value, the lowest version accepted among them, is the part's (assumption 56). -/
def ownCap (s : State) (x : Nat) : List Byte :=
  let d := swlEndDie x
  let compute := decide (d < 16)
  let b := bytesLE 4 0x43424B5A ++ bytesLE 1 (ownVersion x) ++ bytesLE 1 0x10 ++ bytesLE 1 (Nat.min 3 (getF s (.swlCtl x) F.swlCtl_rate_cap)) ++ bytesLE 1 7 ++
    bytesLE 1 3 ++ bytesLE 1 (if compute then 7 else 5) ++ (List.range 4).flatMap (fun v => bytesLE 2 (Config.sweyrBuffer v)) ++
    bytesLE 1 33 ++ bytesLE 1 128 ++ bytesLE 1 (if compute then 0 else 1) ++ bytesLE 1 (d % 16) ++
    bytesLE 2 (getF s .devId F.devId_vendor) ++ bytesLE 2 Config.productCode ++ bytesLE 1 (endModule x) ++ bytesLE 1 (endSide x) ++ bytesLE 32 0
  b ++ bytesLE 4 (crc32c b)

/-- The least buffer that a peer must have on each virtual channel, in flits (Table 13.11): the largest message that will be sent to it there. A PACKET is 33 flits and is sent only where
that feature is in effect; a NOTICE is one. -/
def leastBuffers (largest version features : Nat) : List Nat :=
  [largest, largest, if features.testBit 2 ∧ 0x11 ≤ version ∧ largest = 33 then 33 else 0, 1]

/-- Whether a capability block is refused (R376, R378): magic, CRC, reserved values, or a buffer smaller than the largest message that will be sent to it. -/
def capBad (b : List Byte) : Bool :=
  let f (o n : Nat) : Nat := field b o n
  let version (v : Nat) : Bool := decide (0x10 ≤ v ∧ v ≤ 0x12)
  let largest := Nat.min 33 (f 18 1)
  b.length != 64 || f 0 4 != 0x43424B5A || f 60 4 != crc32c (b.take 60) || !version (f 4 1) || !version (f 5 1) || decide (3 < f 6 1) ||
  decide (7 < f 7 1) || !(f 7 1).testBit 2 || decide (3 < f 8 1) || decide (7 < f 9 1) || decide (f 18 1 < 3 ∨ 33 < f 18 1) ||
  decide (f 19 1 < 32 ∨ 128 < f 19 1) || decide (2 < f 20 1) || decide (15 < f 21 1) || decide (7 < f 26 1) || decide (3 < f 27 1) ||
  f 28 32 != 0 || (List.range 4).any (fun v => decide (f (10 + 2 * v) 2 < (leastBuffers largest (f 4 1) (f 9 1)).getD v 0))

/-- The largest message, in flits, that an end may send (Table 13.11). -/
def largestOf (k : SwlEnd) : Nat := Nat.min 33 (field k.cap 18 1)

/-- Whether the feature of a bit is in effect: both ends have it, and the version does. Version 1.0 has no atomics and no PACKET; PACKET asks that both ends accept messages of 33
flits (R378). -/
def featureOn (k : SwlEnd) (bit : Nat) : Bool :=
  (field k.cap 9 1).testBit bit && decide (0x11 ≤ k.version) && (bit != 1 || k.version == 0x12) && (bit != 2 || largestOf k == 33)

/-- Whether a flit option is in effect: the poison bit honoured (0), acks in the headers of other flits (1). Gulyobex dies offer both. -/
def optionOn (k : SwlEnd) (bit : Nat) : Bool := (field k.cap 8 1).testBit bit

/-- A frame is sent on the sideband (Table 13.9). -/
def frame (x kind : Nat) (body : List Byte) (s : State) : State := emit (.sideband x kind body) s

/-! ### Going Down (R391) -/

/-- The pair of a link, and the ends of its two modules. -/
def pairOf (x : Nat) : Nat := x / 4
def pairEnds (x : Nat) : List Nat := (List.range 4).map (fun i => x / 4 * 4 + i)

/-- Whether a link carries nothing for good: an end is Down or holds it disabled. -/
def linkOut (s : State) (l : Nat) : Bool :=
  [2 * l, 2 * l + 1].any (fun x => (endAt s x).state == .down || endDisabled s x)

/-- Whether both modules of a pair are out. -/
def pairLost (s : State) (p : Nat) : Bool := linkOut s (2 * p) && linkOut s (2 * p + 1)

/-- Both modules of a pair out: recorded once for the pair (R391). What waits for it is answered when it is next looked at. -/
def checkPair (x : Nat) (s : State) : State :=
  let p := pairOf x
  if pairLost s p && !s.sweyr.lost.contains p then
    raise { swlErr x 0x090A contE with midx := x / 2 } { s with sweyr := { s.sweyr with lost := p :: s.sweyr.lost } }
  else s

/-- An end goes Down, for a reason that is recorded. -/
def endDown (x code : Nat) (s : State) : State :=
  checkPair x (modEnd x (fun k => { k with state := .down }) (raise (swlErr x code contQ) s))

/-! ### Training (R379 to R384) -/

/-- An end forgets what it has been trained to; exclusions and the fallback stay (R380, R384). -/
def SwlEnd.untrained (k : SwlEnd) : SwlEnd := { SwlEnd.cold with excl := k.excl, fallback := k.fallback }

/-- Full training starts: the capability block is sent (R379 step 1). -/
def startFull (x : Nat) (s : State) : State :=
  if endDisabled s x then s
  else frame x 0x01 (ownCap s x) (modEnd x (fun k => { k.untrained with state := .capability, full := true }) s)

/-- The lane test begins (R379 step 2): the receiving end asks for the pattern. -/
def startTest (x : Nat) (s : State) : State :=
  let s := modEnd x (fun k => { k with pass := none, peerPass := none, checked := false, gotActive := false }) s
  frame x 0x03 (bytesLE 1 (endAt s x).rate) s

/-- A retrain starts (R379): version, rate, sequences and replay stores are kept. -/
def startRetrain (x : Nat) (ask : Bool) (s : State) : State :=
  let s := bumpF s (.swlErrcnt x) F.swlErrcnt_retrains 1
  let s := modEnd x (fun k => { k with state := .retrain, full := false, nakRun := 0, nakTimes := [], naking := false }) s
  startTest x (if ask then frame x 0x08 [] s else s)

/-- The highest rate of a version (R376). -/
def versionRate (v : Nat) : Nat := if v ≤ 0x10 then 2 else 3

/-- Both capability blocks are acknowledged: the outcome of Table 13.11. -/
def negotiateEnd (x : Nat) (s : State) : State :=
  let k := endAt s x
  let peer := field k.cap 4 1
  let v := Nat.min (ownVersion x) peer
  if v < 0x10 ∨ v < field k.cap 5 1 then endDown x 0x0904 s
  else
    let rate := Nat.min (Nat.min (field k.cap 6 1) (versionRate v)) (getF s (.swlCtl x) F.swlCtl_rate_cap)
    startTest x (modEnd x (fun k => { k with
      state := .laneTest, version := v, rate := rate, nextSeq := 0, expect := 0, replay := [],
      credits := (List.range 4).map (fun i => field k.cap (10 + 2 * i) 2), freed := [0, 0, 0, 0] }) s)

/-- A CAP frame (R376 to R379). An end in Reset that is not disabled answers the peer's CAP by training. -/
def capIn (x : Nat) (blk : List Byte) (s : State) : State :=
  let k := endAt s x
  if !endLive s x || endDisabled s x || !(k.state == .reset || k.state == .capability) then s
  else
    let s := if k.state = .reset then startFull x s else s
    if capBad blk then
      let s := modEnd x (fun k => { k with badCaps := k.badCaps + 1 }) s
      if 3 ≤ (endAt s x).badCaps then endDown x 0x0905 s else s
    else
      let s := frame x 0x02 [] (modEnd x (fun k => { k with cap := blk, gotCap := true, badCaps := 0 }) s)
      if (endAt s x).capAcked then negotiateEnd x s else s

/-- A CAP_ACK frame (R379). -/
def capAckIn (x : Nat) (s : State) : State :=
  if endLive s x && (endAt s x).state == .capability then
    let s := modEnd x (fun k => { k with capAcked := true }) s
    if (endAt s x).gotCap then negotiateEnd x s else s
  else s

/-- Whether an end is in its lane test: of a full training or of a retrain. -/
def testing (k : SwlEnd) : Bool := k.state == .laneTest || (k.state == .retrain && (k.pass.isNone || k.peerPass.isNone))

/-- The width and group an end runs for a mask: quarter 0 in fallback (R384). -/
def usable (k : SwlEnd) (m : BitVec 64) : Option Nat :=
  if k.fallback then (if quarter0 m then some 2 else none) else widthOf (field k.cap 7 1) m

/-- The lane map's CRC and the word of Table 13.12, as an end forms it. -/
def checkWord (x : Nat) (k : SwlEnd) : BitVec 64 :=
  let own := k.pass.getD 0
  let peer := k.peerPass.getD 0
  let first := x % 2 = 0
  let map := if first then bytesLE 8 own.toNat ++ bytesLE 8 peer.toNat else bytesLE 8 peer.toNat ++ bytesLE 8 own.toNat
  let to1 := if first then k.tx else k.rx
  let to0 := if first then k.rx else k.tx
  BitVec.ofNat 64 (k.version + to1 * 2 ^ 8 + to0 * 2 ^ 16 + k.fallback.toNat * 2 ^ 24 + crc32c map * 2 ^ 32)

/-- Both directions are tested: the width check begins (R379 step 6). -/
def beginCheck (x : Nat) (s : State) : State :=
  let k := endAt s x
  if k.pass.isSome && k.peerPass.isSome then
    let s := if k.full then modEnd x (fun k => { k with state := .widthCheck }) s else s
    frame x 0x05 (bytesLE 8 (checkWord x k).toNat) s
  else s

/-- LANE_TEST_DONE (R379, R380): lanes that failed are excluded, the width is chosen, and the mask returned; with no usable quarter the next lower rate is tried, and no lane is excluded for it
(DEDUCED, assumption 57). -/
def laneTestDone (x : Nat) (pass : BitVec 64) (s : State) : State :=
  let k := endAt s x
  if !endLive s x || !testing k || k.pass.isSome then s
  else
    let m := pass &&& ~~~ k.excl
    match usable k m with
    | some w =>
      let fresh := ~~~ pass &&& ~~~ k.excl
      let s := if fresh = 0 then s else raise (swlErr x 0x0902 contQ) s
      let s := modEnd x (fun k => { k with excl := k.excl ||| fresh, pass := some m, rx := w }) s
      beginCheck x (frame x 0x04 (bytesLE 8 m.toNat) s)
    | none =>
      if k.fallback ∨ k.rate = 0 then endDown x 0x0906 s
      else
        let s := modEnd x (fun k => { k with rate := k.rate - 1 }) s
        frame x 0x03 (bytesLE 1 (endAt s x).rate) s

/-- TRAIN_REQ (R379): the peer's receiver asks for the pattern, at a rate that may be lower than before, and gets it. -/
def trainReqIn (x rate : Nat) (s : State) : State :=
  if endLive s x && testing (endAt s x) && decide (rate ≤ (endAt s x).rate) then emit (.trainPattern x rate) (modEnd x (fun k => { k with rate := rate }) s) else s

/-- LANE_RESULT (R379): the peer's mask gives the width of this end's transmitter. -/
def laneResultIn (x : Nat) (pass : BitVec 64) (s : State) : State :=
  let k := endAt s x
  if endLive s x && testing k && k.peerPass.isNone then
    match usable k pass with
    | some w => beginCheck x (modEnd x (fun k => { k with peerPass := some pass, tx := w }) s)
    | none => if k.fallback then endDown x 0x0906 s else s
  else s

/-- An end becomes Active once the words agreed and the peer's ACTIVE has come. -/
def becomeActive (x : Nat) (s : State) : State :=
  let k := endAt s x
  if k.checked && k.gotActive then
    bumpF (modEnd x (fun k => { k with state := .active, checked := false, gotActive := false, mismatches := 0 }) s) (.swlStatus x) F.swlStatus_trainings 1
  else s

/-- The words agree, or are no longer compared: ACTIVE is sent. -/
def checkPassed (x : Nat) (s : State) : State := becomeActive x (frame x 0x06 [] (modEnd x (fun k => { k with checked := true }) s))

/-- Whether an end has sent its width check word and awaits the peer's. -/
def checking (k : SwlEnd) : Bool := (k.state == .widthCheck || k.state == .retrain) && k.pass.isSome && k.peerPass.isSome && !k.checked

/-- WIDTH_CHECK (R382, R384). -/
def widthCheckIn (x : Nat) (word : BitVec 64) (s : State) : State :=
  let k := endAt s x
  if !endLive s x || !checking k then s
  else if k.fallback || word == checkWord x k then checkPassed x s
  else
    let s := bumpF s (.swlErrcnt x) F.swlErrcnt_disagree 1
    let s := modEnd x (fun k => { k with mismatches := k.mismatches + 1 }) s
    if k.mismatches + 1 < 3 then startRetrain x true s
    else
      let s := raise (swlErr x 0x0903 contQ) (modEnd x (fun k => { k with fallback := true, tx := 2, rx := 2 }) s)
      if (k.pass.any quarter0) && (k.peerPass.any quarter0) then checkPassed x s else endDown x 0x0906 s

/-- ACTIVE (R379). -/
def activeIn (x : Nat) (s : State) : State :=
  let k := endAt s x
  if endLive s x && (k.state == .widthCheck || k.state == .retrain) && k.pass.isSome && k.peerPass.isSome then
    becomeActive x (modEnd x (fun k => { k with gotActive := true }) s)
  else s

/-- RETRAIN_REQ (R379). -/
def retrainReqIn (x : Nat) (s : State) : State :=
  let k := (endAt s x).state
  if endLive s x && (k == .active || k == .widthCheck) then startRetrain x false s else s

/-- The peer's die resets (R383): an end that stays up discards its trained state and waits for the peer's CAP. -/
def peerReset (x : Nat) (s : State) : State :=
  if endLive s x then modEnd x (fun _ => SwlEnd.cold) s else s

/-! ### Credits and retry (R372 to R374) -/

/-- Flits acknowledged up to a sequence number leave the replay store. -/
def ackUpTo (x seq : Nat) (s : State) : State :=
  let k := endAt s x
  match k.replay.findIdx? (fun f => f.seq == seq) with
  | some i => modEnd x (fun k => { k with replay := k.replay.drop (i + 1), nakRun := 0 }) s
  | none => s

/-- The last sequence number accepted in order. -/
def lastSeq (k : SwlEnd) : Nat := (k.expect + 255) % 256

/-- The ack that the flits an end sends carry, where that option is in effect. -/
def ackOf (k : SwlEnd) : Option Nat := if optionOn k 1 then some (lastSeq k) else none

/-- The first flit of each message in a replay store: a head, or the oldest flit of the store. -/
def runHeads (l : List SentFlit) : List SentFlit := (l.zipIdx.filter (fun f => f.2 == 0 || f.1.idx == 0)).map (·.1)

/-- What an end sends again: the replay store, in order, with the ack that stands now. -/
def resendAll (x : Nat) (s : State) : State :=
  each (runHeads (endAt s x).replay) (fun f s => emit (.sweyr x f.op f.seq f.idx f.msg (ackOf (endAt s x)) true) s) s

/-- The limit of retry is reached: recorded, and a lossless retrain (R374). -/
def retryLimit (x : Nat) (s : State) : State := startRetrain x true (raise (swlErr x 0x0901 contQ) s)

/-- NAK (R373, R374). -/
def nakIn (x seq : Nat) (s : State) : State :=
  if endLive s x && (endAt s x).state == .active then
    let k := endAt s x
    let now := nowNs s
    let run := if k.nakRun ≠ 0 ∧ k.nakSeq = seq then k.nakRun + 1 else 1
    let times := k.nakTimes.filter (fun t => decide (now < t + 10 ^ 6)) ++ [now]
    let s := ackUpTo x seq s
    let s := modEnd x (fun k => { k with nakSeq := seq, nakRun := run, nakTimes := times }) s
    if 8 ≤ run ∨ 64 ≤ times.length then retryLimit x s else resendAll x s
  else s

/-- A flit is discarded that failed CRC or came out of sequence (R373): one nak is sent until the next in order arrives. -/
def nakOnce (x : Nat) (s : State) : State :=
  let k := endAt s x
  if k.naking then s
  else bumpF (modEnd x (fun k => { k with naking := true }) (emit (.sweyrNak x (lastSeq k) (ackOf k)) s)) (.swlErrcnt x) F.swlErrcnt_naks 1

/-- A flit fails CRC or has a reserved type (R369, R373): counted and discarded. -/
def crcFail (x : Nat) (s : State) : State := nakOnce x (bumpF s (.swlErrcnt x) F.swlErrcnt_crc_fail 1)

/-- Buffers of a virtual channel are free again, to be returned as credits (R372). -/
def freeBuf (x v n : Nat) (s : State) : State := modEnd x (fun k => { k with freed := k.freed.set v (k.freed.getD v 0 + n) }) s

/-- The incomplete message of a virtual channel is discarded, and its credits are returned (R370). -/
def dropPart (x v : Nat) (s : State) : State :=
  match (endAt s x).parts.find? (·.vc == v) with
  | none => s
  | some p => freeBuf x v p.count (modEnd x (fun k => { k with parts := k.parts.erase p }) s)

/-- The next flit in sequence is accepted: `n` of them. An ack goes out at least every 32 flits (R373). -/
def accept (x n : Nat) (s : State) : State :=
  let before := (endAt s x).expect
  let s := modEnd x (fun k => { k with expect := (k.expect + n) % 256, naking := false }) s
  if before / 32 ≠ (before + n) / 32 then emit (.sweyrIdle x (some (lastSeq (endAt s x)))) s else s

/-- A flit that is no part of a message taken whole (R369, R371, R373): one that fails CRC or has a reserved type is counted; one out of sequence is discarded with a nak; the head of a
reserved opcode is discarded with 0x0909, and a data flit of no message that is held with it. Any other is brought by the row of its message. -/
def flitIn (x : Nat) (image : List Byte) (s : State) : State :=
  if !endLive s x || (endAt s x).state != .active then s
  else
    match readSwlFlit (featureOn (endAt s x) 1) image with
    | none => crcFail x s
    | some f =>
      let s := f.ack.elim s (fun q => ackUpTo x q s)
      let op := field f.payload 0 1
      if f.type ≠ 1 ∧ f.type ≠ 2 then s
      else if f.seq ≠ (endAt s x).expect then nakOnce x s
      else if f.type = 1 ∧ !opKnown op then
        raise (swlErr x 0x0909 contL) (freeBuf x f.vc 1 (dropPart x f.vc (accept x 1 s)))
      else if f.type = 2 ∧ !(endAt s x).parts.any (·.vc == f.vc) then freeBuf x f.vc 1 (accept x 1 s)
      else s

/-! ### The control register (Table 13.17) -/

/-- A write of SWL_L_CTL (R379, R380, R393): its fields, then relearn over retrain. -/
def swlControl (x : Nat) (val : BitVec 32) (s : State) : State :=
  if !endLive s x then s
  else
    let v := val.toNat
    let l := x / 2
    let was := endDisabled s x
    if v.testBit 2 && !was && !linkOut s l && linkOut s (l ^^^ 1) then raise (swlErr x 0x090B contX) s
    else
      let s := setF (setF s (.swlCtl x) F.swlCtl_disable (bits v 2 1)) (.swlCtl x) F.swlCtl_rate_cap (bits v 3 2)
      if v.testBit 2 then (if was then s else checkPair x (modEnd x (fun k => k.untrained) s))
      else if v.testBit 1 then startFull x (modEnd x (fun k => { k with excl := 0, fallback := false }) s)
      else if was then startFull x s
      else if v.testBit 0 then
        let k := (endAt s x).state
        if k == .down then startFull x s else if k == .active then startRetrain x true s else s
      else s

/-! ### A die's reset (R383, R388) -/

/-- The ends of a die. -/
def endsOf (d : Nat) : List Nat := (List.range 448).filter (fun x => swlEndDie x == d)

/-! ### The commands on links -/

/-- CAP_RESEND_TIMER (R379): until the peer's CAP and a CAP_ACK have come. -/
def execCapResendTimer (x : Nat) (s : State) : Host.Outcome State Fault Refusal :=
  .next (if endLive s x && (endAt s x).state == .capability then frame x 0x01 (ownCap s x) s else s)

def execTrainReq (x rate : Nat) (s : State) : Host.Outcome State Fault Refusal := .next (trainReqIn x rate s)
def execRetrainReq (x : Nat) (s : State) : Host.Outcome State Fault Refusal := .next (retrainReqIn x s)

/-- MGMT (R375): boot and firmware transfers, handed to the die's control processor. The sideband works in every state; no frame has a body beyond 64 bytes. -/
def execMgmt (x : Nat) (data : List (BitVec 8)) (s : State) : Host.Outcome State Fault Refusal :=
  .next (if x < 448 ∧ data.length ≤ 64 then emit (.firmware data) s else s)

/-- SWEYR_ACK_TIMER (R373). -/
def execSweyrAckTimer (x : Nat) (s : State) : Host.Outcome State Fault Refusal :=
  .next (if endLive s x && (endAt s x).state == .active then emit (.sweyrIdle x (some (lastSeq (endAt s x)))) s else s)

/-- SWEYR_CREDIT_TIMER (R372). -/
def execSweyrCreditTimer (x : Nat) (s : State) : Host.Outcome State Fault Refusal :=
  .next (if endLive s x && (endAt s x).state == .active && (endAt s x).freed.any (· != 0) then
    modEnd x (fun k => { k with freed := [0, 0, 0, 0] }) (emit (.sweyrCredit x (endAt s x).freed (ackOf (endAt s x))) s) else s)

/-- SWEYR_RESEND_TIMEOUT (R373). -/
def execSweyrResendTimeout (x : Nat) (s : State) : Host.Outcome State Fault Refusal :=
  .next (if endLive s x && (endAt s x).state == .active then resendAll x s else s)

end Sys2Proof.Machine
end

