-- ==== Sys2Proof/Machine/Sweyr.lean ====
section
/-! DEFINITION. Sweyr messages: their paths over the die mesh and the links, arbitration, splitting, what a node does with each, and the reset of a die
(R362 to R365, R370, R371, R378, R385 to R391). -/

namespace Sys2Proof.Machine

/-- The die and router of a node id (Table 13.6). -/
def nodeDie (n : Nat) : Nat := n % 32
def nodeRouter (n : Nat) : Nat := n / 32 % 16

/-- The router of a compute die to which what holds an address is attached (R362): cluster c at (1 + c div 4, c mod 4), memory group g at (0, g) or (3, g - 4). -/
def homeRouter (s : State) (a : Nat) : Option Nat :=
  let cluster (c : Nat) : Nat := (1 + c / 4) * 4 + c % 4
  match placeOf s a with
  | .lpddr d o =>
    let g := (dramOf (regVal s (.cmpMemInterleave d)) (chanBytes s) o).1 / 4
    some (if g < 4 then g else 12 + (g - 4))
  | .well _ c _ => some (cluster c)
  | .folio _ k _ => some (cluster (k / 8))
  | .tiles _ k _ => some (cluster (k / 8))
  | _ => none

/-! ### Paths (R363 to R365) -/

/-- The router of a compute die that a side's module belongs to. -/
def borderRouter (side pos : Nat) : Nat :=
  match side with
  | 0 => pos
  | 1 => pos * 4 + 3
  | 2 => 12 + pos
  | _ => pos * 4

/-- The router at a compute die's end of a link. -/
def endRouter (x : Nat) : Nat := borderRouter (endSide x) (endModule x / 2)

/-- The side of a compute die on which another die lies: N, E, S, W as 0 to 3. -/
def sideTo (d n : Nat) : Nat :=
  if n < 16 then (if n + 4 = d then 0 else if n = d + 1 then 1 else if n = d + 4 then 2 else 3) else n - 16

/-- The end by which a die reaches a neighbour over module `m` of the side. -/
def endTo (d n m : Nat) : Nat :=
  if d < 16 ∧ n < 16 then
    let a := Nat.min d n
    let far := if a = d then 0 else 1
    if d / 4 = n / 4 then 2 * ((a / 4 * 3 + a % 4) * 8 + m) + far else 2 * (96 + a * 8 + m) + far
  else
    let e := Nat.max d n - 16
    let cd := Nat.min d n
    let i := if e % 2 = 0 then cd % 4 else cd / 4
    2 * (192 + e * 8 + i * 2 + m % 2) + (if d < 16 then 0 else 1)

/-- The router at which a message leaves a compute die for the next one, or for its node (R364): along the row first. -/
def exitRouter (d r next : Nat) (m : SwlMsg) : Nat :=
  if nodeDie m.dst = d then nodeRouter m.dst
  else if next < 16 then
    let col := if nodeDie m.dst < 16 then nodeRouter m.dst % 4 else 1
    match sideTo d next with
    | 0 => col
    | 1 => r / 4 * 4 + 3
    | 2 => 12 + col
    | _ => r / 4 * 4
  else borderRouter (next - 16) 1

/-- The die after a die on a message's path. -/
def nextDie (d : Nat) (m : SwlMsg) : Nat := (pathDies d (nodeDie m.dst)).getD 1 d

/-- The end over which a message leaves a die for a neighbour (R365): module (source + destination) mod 2 of the pair, or the other where that one is out; none where both are. -/
def chooseEnd (s : State) (d next pos : Nat) (m : SwlMsg) : Option Nat :=
  let x := endTo d next (2 * pos + (m.src + m.dst) % 2)
  let y := endTo d next (2 * pos + (m.src + m.dst + 1) % 2)
  if !linkOut s (x / 2) then some x else if !linkOut s (y / 2) then some y else none

/-- The arbiter a message at a router of a compute die, or at an edge die, contends at next; none where its pair is lost. -/
def nextArb (s : State) (d r : Nat) (m : SwlMsg) : Option Arb :=
  let n := nextDie d m
  if d < 16 then
    let t := exitRouter d r n m
    if t % 4 ≠ r % 4 then some (.mesh d r (if r % 4 < t % 4 then 2 else 4))
    else if t ≠ r then some (.mesh d r (if r < t then 3 else 1))
    else if nodeDie m.dst = d then some (.mesh d r 0)
    else (chooseEnd s d n (if n < 16 then (if sideTo d n % 2 = 1 then r / 4 else r % 4) else 1) m).map .swl
  else (chooseEnd s d n 1 m).map .swl

/-! ### Arbitration (R385 to R387) -/

/-- The key of an arbiter. -/
def arbKey : Arb → Nat
  | .mesh d r p => (d * 16 + r) * 5 + p
  | .swl x => 1000000 + x

/-- The arbiter of a key. -/
def arbOfKey (k : Nat) : Arb := if k < 1000000 then .mesh (k / 80) (k / 5 % 16) (k % 5) else .swl (k - 1000000)

/-- The die of an arbiter, and its router. -/
def arbDie : Arb → Nat
  | .mesh d _ _ => d
  | .swl x => swlEndDie x
def arbRouter : Arb → Nat
  | .mesh _ r _ => r
  | .swl x => endRouter x

/-- An arbiter. -/
def arbAt (s : State) (a : Arb) : Arbiter := s.sweyr.arbs.get (arbKey a) ⟨none, [], []⟩

/-- An arbiter changed. -/
def modArb (a : Arb) (f : Arbiter → Arbiter) (s : State) : State :=
  { s with sweyr := { s.sweyr with arbs := s.sweyr.arbs.set (arbKey a) (f (arbAt s a)) } }

/-- The register of an arbiter's priorities. -/
def arbReg : Arb → Reg
  | .mesh d r p => .cmpMeshArb d (r * 5 + p)
  | .swl x => .swlArb x

/-- The priority of an input. -/
def prioOf (s : State) (a : Arb) (i : Nat) : Nat := bits (getF s (arbReg a) F.swlArb_prio) (4 * i) 4

/-- Whether the next hop can take a message whole (R372, R373). Buffers inside the mesh always can (assumption 59). -/
def canGo (s : State) (a : Arb) (op : Nat) (m : SwlMsg) : Bool :=
  match a with
  | .mesh .. => true
  | .swl x =>
    let k := endAt s x
    k.state == .active && decide (msgFlits m ≤ k.credits.getD (vcOf op) 0) && decide (k.replay.length + msgFlits m ≤ 128)

/-- What an input offers: the oldest message of the first virtual channel, in the order 3, 1, 2, 0, whose next hop has credits. -/
def offerOf (s : State) (a : Arb) (i : Nat) : Option (Nat × Nat × SwlMsg) :=
  ([3, 1, 2, 0] : List Nat).findSome? (fun v =>
    ((arbAt s a).requests.find? (fun q => q.1 == i && vcOf q.2.1 == v)).filter (fun q => canGo s a q.2.1 q.2.2))

/-- How long ago an input was granted: its place in the order of grants, never counting as longest. -/
def lastGrant (l : List Nat) (i : Nat) : Nat := l.findIdx (· == i)

/-- The better of two inputs: the higher priority, then the one granted least recently. -/
def betterOf (s : State) (a : Arb) (x y : Nat × Nat × SwlMsg) : Nat × Nat × SwlMsg :=
  let g (i : Nat) : Nat := lastGrant (arbAt s a).recent i
  if prioOf s a x.1 < prioOf s a y.1 ∨ (prioOf s a x.1 = prioOf s a y.1 ∧ g x.1 < g y.1) then y else x

/-- The winner among the inputs that offer a message. -/
def winnerOf (s : State) (a : Arb) : Option (Nat × Nat × SwlMsg) :=
  match (List.range 5).filterMap (offerOf s a) with
  | [] => none
  | x :: xs => some (xs.foldl (betterOf s a) x)

/-- A grant. -/
def grant (a : Arb) (w : Nat × Nat × SwlMsg) (s : State) : State :=
  modArb a (fun b => { b with holder := some w, recent := w.1 :: b.recent.filter (· != w.1) }) s

/-- An arbiter decides: an idle one grants, and a strictly higher priority revokes the holder's grant. The loser's message stays among the requests. -/
def contend (a : Arb) (s : State) : State :=
  match winnerOf s a, (arbAt s a).holder with
  | some w, none => grant a w s
  | some w, some h => if prioOf s a h.1 < prioOf s a w.1 then grant a w s else s
  | none, _ => s

/-- A message requests an output. -/
def request (a : Arb) (i op : Nat) (m : SwlMsg) (s : State) : State :=
  contend a (modArb a (fun b => { b with requests := b.requests ++ [(i, op, m)] }) s)

/-! ### Splitting (R378) -/

/-- The payload that a link's largest message carries. -/
def partSize (s : State) (x : Nat) : Nat :=
  let k := endAt s x
  if k.cap.isEmpty then 3840 else (largestOf k - 1) * 120

/-- The flits with the poison bit of the part of a message that starts at data flit `k`. A part of 64 bytes or less rides in its head. -/
def partPoison (m : SwlMsg) (k : Nat) (data : List Byte) : List Nat :=
  let n := (data.length + 119) / 120
  if data.length ≤ 64 then (if m.poison.contains (k + 1) then [0] else []) else ((List.range n).map (· + 1)).filter (fun i => m.poison.contains (k + i))

/-- The parts of a WRITE or READ_RESP for a link: each with its own address and length. -/
def splitMsg (n : Nat) (m : SwlMsg) : List SwlMsg :=
  if n = 0 ∨ m.data.length ≤ n then [m]
  else (pieces n ((m.data.length + n - 1) / n) m.data).zipIdx.map (fun p =>
    { m with addr := m.addr + p.2 * n, len := p.1.length, data := p.1, poison := partPoison m (p.2 * n / 120) p.1 })

/-- A message goes to an arbiter: split where its link asks for it. A PACKET is never split; on a link without the feature it is discarded with 0x0909. -/
def enter (d : Nat) (a : Arb) (i op : Nat) (m : SwlMsg) (s : State) : State :=
  match a with
  | .mesh .. => request a i op m s
  | .swl x =>
    if op = 0x21 ∧ !(endAt s x).cap.isEmpty ∧ !featureOn (endAt s x) 2 then raise (swlErr x 0x0909 contL) s
    else
      let parts := if op = 0x02 ∨ op = 0x11 then splitMsg (partSize s x) m else [m]
      let s := if op = 0x02 ∧ 1 < parts.length then
          { s with sweyr := { s.sweyr with merges := ⟨d, m.src, m.dst, m.tag, parts.length, 0⟩ :: s.sweyr.merges } }
        else s
      each parts (fun q s => request a i op q s) s

/-! ### Placing a message (R364, R388, R391) -/

/-- The response to a request. -/
def responseTo (m : SwlMsg) (status : Nat) (operand : BitVec 64) (data : List Byte) : SwlMsg :=
  { m with statusOnly := data.isEmpty, src := m.dst, dst := m.src, len := data.length, atomic := 0, status := status, residue := 0, overflow := false,
           operand := operand, compare := 0, packet := 0, data := data, poison := [] }

/-- The opcode of a request's response. -/
def answers (op : Nat) : Nat := op + 0x10

/-- An ack meets the newest of the splits that a die has made of its WRITE; a part split again, on its way to another module, has one of its own. -/
def mergeSteps (d : Nat) : Nat → SwlMsg → State → Option SwlMsg × State
  | 0, m, s => (some m, s)
  | n + 1, m, s =>
    match s.sweyr.merges.find? (fun g => g.die == d && g.src == m.dst && g.dst == m.src && g.tag == m.tag) with
    | none => (some m, s)
    | some g =>
      let st := if g.status = 0 then m.status else g.status
      let rest := s.sweyr.merges.erase g
      if g.left ≤ 1 then mergeSteps d n { m with status := st } { s with sweyr := { s.sweyr with merges := rest } }
      else (none, { s with sweyr := { s.sweyr with merges := { g with left := g.left - 1, status := st } :: rest } })

/-- The ack of a split WRITE is merged where it was split: none while a part is outstanding, otherwise the ack that goes on. -/
def mergeAck (d op : Nat) (m : SwlMsg) (s : State) : Option SwlMsg × State :=
  if op = 0x12 then mergeSteps d s.sweyr.merges.length m s else (some m, s)

/-- Whether a message cannot go on from a die: a die on its path, or on the path back, is in reset, or the pair it would take is lost. -/
def cannotGo (s : State) (d r : Nat) (m : SwlMsg) : Bool := cutOff s d (nodeDie m.dst) || (nextArb s d r m).isNone

/-- A response or notice stands at a router: it goes on, or is discarded. -/
def placeReply (d r i op : Nat) (m : SwlMsg) (s : State) : State :=
  match mergeAck d op m s with
  | (none, s) => s
  | (some m, s) =>
    if cannotGo s d r m then s else (nextArb s d r m).elim s (fun a => enter d a i op m s)

/-- Whether the next link of an ATOMIC or TALLY_ADD has no atomics (R376, R377). -/
def noAtomics (s : State) (d r op : Nat) (m : SwlMsg) : Bool :=
  match nextArb s d r m with
  | some (.swl x) => (op == 0x03 || op == 0x04) && !(endAt s x).cap.isEmpty && !featureOn (endAt s x) 0
  | _ => false

/-- A message stands at a router: a request that cannot go on is answered at once with status 1 (R388); an atomic whose next link has none, with status 3 (assumption 121). -/
def place (d r i op : Nat) (m : SwlMsg) (s : State) : State :=
  if op / 16 = 0 ∧ cannotGo s d r m = true then placeReply d r 0 (answers op) (responseTo m 1 0 []) s
  else if noAtomics s d r op m then placeReply d r 0 (answers op) (responseTo m 3 0 []) s
  else placeReply d r i op m s

/-! ### What waits for a link that is out (R365, R391), and dies whose links come back (R388) -/

/-- The messages that wait for a link end go to the other module of its pair, or are answered where both are out. -/
def reroute (x : Nat) (s : State) : State :=
  let d := swlEndDie x
  let r := if d < 16 then endRouter x else 0
  let l := (arbAt s (.swl x)).requests
  each l (fun q s =>
    if cannotGo s d r q.2.2 then (if q.2.1 / 16 = 0 then placeReply d r 0 (answers q.2.1) (responseTo q.2.2 1 0 []) s else s)
    else (nextArb s d r q.2.2).elim s (fun a => enter d a q.1 q.2.1 q.2.2 s)) (modArb (.swl x) (fun b => { b with holder := none, requests := [] }) s)

/-- A die whose links are all Active again, but for those that are out, takes messages again (R388). -/
def rejoin (d : Nat) (s : State) : State :=
  if (endsOf d).all (fun x => (endAt s x).state == .active || linkOut s (x / 2)) then
    { s with sweyr := { s.sweyr with awaiting := s.sweyr.awaiting.filter (· != d) } }
  else s

/-- What follows when a command has made an end Active, or taken its link out. -/
def linkSettled (x : Nat) (before s : State) : State :=
  let out := !linkOut before (x / 2) && linkOut s (x / 2)
  let up := (endAt before x).state != .active && (endAt s x).state == .active
  let s := if out then reroute (x / 2 * 2 + 1) (reroute (x / 2 * 2) s) else s
  if out || up then rejoin (swlEndDie (x / 2 * 2 + 1)) (rejoin (swlEndDie (x / 2 * 2)) s) else s

/-! ### What a node does -/

/-- The operation and width of an ATOMIC: Table 2.7 in the order listed, a line's widths in their order. -/
def atomicCode (c : Nat) : Option (AtomOp × Nat) :=
  ([(.add, 4), (.add, 8), (.min, 4), (.min, 8), (.minu, 4), (.minu, 8), (.max, 4), (.max, 8), (.maxu, 4), (.maxu, 8), (.swap, 4), (.swap, 8), (.cas, 4), (.cas, 8),
    (.fadd, 4)] : List (AtomOp × Nat))[c]?

/-- Whether an address is served at a node: it is the die's, and at a compute die it is attached to that router (R362). -/
def servedAt (s : State) (d r a : Nat) : Bool := ownerOf s a == some d && (homeRouter s a).all (· == r)

/-- The status that a memory gives an access that it does not perform: an address that is not served at the node and a lap-scoped write are refused, poison is reported. -/
def nodeStatus (s : State) (d r a n : Nat) (write : Bool) : Nat :=
  if n = 0 then 0
  else if inReset s d then 1
  else if !servedAt s d r a ∨ ownerOf s (a + n - 1) ≠ some d then 3
  else if write && lapCode s true a n != 0 then 3
  else if (if write then poisonPartial s a n else poisonHit s a n).isSome then 2
  else 0

/-- A record of a write by a Sweyr message. -/
def msgErr (m : SwlMsg) (code cont : Nat) : Err :=
  { code := code, cont := cont, die := nodeDie m.dst, mkind := m.master % 256, midx := m.master / 65536 % 65536, addr := m.addr }

/-- Bytes written by a message, tested as its lap asks. -/
def msgStore (m : SwlMsg) (bs : List Byte) (s : State) : State :=
  testWrite (lapSeen s) none (msgErr m 0 contV) m.addr bs.length (store m.addr bs s)

/-- A TALLY_ADD (R240, R245): the words added with saturation, and the residues checked unless an overflow flag is set. -/
def tallyAddAt (m : SwlMsg) (s : State) : SwlMsg × State :=
  let old := (pieces 4 60 (Mem.read s.mem m.addr 240)).map natLE
  let add := (pieces 4 60 m.data).map natLE
  let out := zipWith tallyWord old add
  let words := out.map (·.1)
  let sat := out.any (·.2)
  let bad := !m.overflow && !sat && residueOf words != (residueOf old + m.residue) % 65521
  let s := msgStore m (words.flatMap (bytesLE 4)) s
  ({ responseTo m (if bad then 4 else 0) 0 [] with overflow := m.overflow || sat }, s)
where
  zipWith (f : Nat → Nat → Nat × Bool) (a b : List Nat) : List (Nat × Bool) := (List.zip a b).map (fun p => f p.1 p.2)

/-- The codes of what a request reads at its node are checked (R298, R301). -/
def messageChecked (d op : Nat) (m : SwlMsg) (s : State) : State :=
  if !servedAt s d (nodeRouter m.dst) m.addr then s
  else
    match op with
    | 0x01 => probe [(m.addr, m.len)] [] s
    | 0x02 => probe [] [(m.addr, m.len)] s
    | 0x03 => probe [(m.addr, 8)] [] s
    | _ => probe [(m.addr, 240)] [] s

/-- A request is performed at its node, and answered (R57, R371). One that carries data read from poisoned storage is not performed, and is answered with status 2 (assumption 121). -/
def performAt (d op : Nat) (m : SwlMsg) (s : State) : SwlMsg × State :=
  let r := nodeRouter m.dst
  let s := messageChecked d op m s
  if !m.poison.isEmpty then (responseTo m 2 0 [], s)
  else
  match op with
  | 0x01 =>
    let st := nodeStatus s d r m.addr m.len false
    (responseTo m st 0 (if st = 0 ∧ !m.statusOnly then Mem.read s.mem m.addr m.len else []), s)
  | 0x02 =>
    let st := nodeStatus s d r m.addr m.len true
    (responseTo m st 0 [], if st = 0 then msgStore m m.data s else s)
  | 0x03 =>
    match atomicCode m.atomic with
    | none => (responseTo m 3 0 [], s)
    | some (f, n) =>
      let st := if m.addr % n ≠ 0 then 3 else Nat.max (nodeStatus s d r m.addr n true) (nodeStatus s d r m.addr n false)
      if st ≠ 0 then (responseTo m st 0 [], s)
      else
        let old := rdN s m.addr n
        let v := atomicVal f n old m.operand.toNat m.compare.toNat
        (responseTo m 0 (atomicOld f n old) [], msgStore m (bytesLE n v) s)
  | _ =>
    let st := nodeStatus s d r m.addr 240 true
    if st ≠ 0 then (responseTo m st 0 [], s) else tallyAddAt m s

/-- The optical header that a PACKET carries in head bytes 48 to 55 (R378). -/
def packetHeader (p : Packet) (n : Nat) : BitVec 64 :=
  let flits := (n + 239) / 240
  BitVec.ofNat 64 (headType p.cargo + 2 ^ 5 + p.cls * 2 ^ 6 + p.job % 256 * 2 ^ 8 + p.label * 2 ^ 16 + flits * 2 ^ 24 + (n - 240 * (flits - 1)) * 2 ^ 32)

/-- The label with which a packet held for transit came to its edge die `e'`: the one whose route leads to the channel and label that it was given. -/
def labelIn (s : State) (e' e c label : Nat) : Nat :=
  ((sectionOf s e').bind (fun t => t.routes.findIdx? (fun r => r.valid && !r.deliver && r.ed == e && r.chan == c && r.label == label))).getD label

/-- An optical packet in transit from a channel of one edge die to another edge die, as a PACKET (R378); its source is the fibre it came by. -/
def packetMsg (s : State) (key e c : Nat) (p : Packet) : SwlMsg :=
  let e' := key / 64
  let bs := (payloads p.cargo).flatMap (fun b => padTo b.1 b.2)
  { statusOnly := false, src := 16 + e', dst := 16 + e, tag := 0, addr := 0, len := bs.length, atomic := 0, status := 0, residue := 0, overflow := false, operand := 0, compare := 0,
    master := 4 + fibreOf ((chanLinks s e' (key % 64)).headD 0) * 2 ^ 16, packet := packetHeader { p with label := labelIn s e' e c p.label } bs.length, data := bs, poison := [] }

/-- A PACKET reaches its edge die (R330, R378): its label selects a route entry of the edge die it came from, or of its own where it came from a compute die, which delivers it or gives
its channel (assumption 60). Its payload is what its flit count and the valid bytes of its last flit say. -/
def takePacket (d : Nat) (m : SwlMsg) (s : State) : State :=
  let e := d - 16
  let h := m.packet.toNat
  let data := m.data.take (240 * (bits h 24 8 - 1) + bits h 32 8)
  let c : Cargo := if bits h 0 5 = 2 then .relay (readRelay data) else .write (readWrite data)
  match if m.poison.isEmpty then routeOf s (if 16 ≤ nodeDie m.src then nodeDie m.src - 16 else e) (bits h 16 8) else none with
  | none => s
  | some r =>
    if r.deliver then
      match c with
      | .relay p => relayArrives (engineOf s e p) (e * 6 * 32) p s
      | .write p => performWrite (e * 6 * 32) p s
    else modChan r.ed r.chan (fun q => { q with queue := q.queue ++ [⟨bits h 6 2, r.label, bits h 8 8, none, c⟩] }) s

/-- A queue is frozen without a descriptor's fault of its own: its oldest descriptor in flight completes with status FROZEN. -/
def freezeQueueOf (q code : Nat) (s : State) : State :=
  let r := queueAt s q
  let s := setQueue s q { r with state := if r.state = .running then .frozen else r.state, freezeCode := code }
  match s.host.descs.find? (·.q == q) with
  | some d => complete d 4 code [] (setQueue s q { queueAt s q with freezeIndex := d.index })
  | none => s

/-- The source master of a message is frozen with a code (R387, R390); `e` is the record made where the source is no runner. -/
def freezeMaster (m : SwlMsg) (code : Nat) (e : Err) (s : State) : State :=
  let i := m.master / 65536 % 65536
  match m.master % 256 with
  | 1 => freezeAt i (runnerAt s i).pc code m.addr s
  | 2 => freezeQueueOf i code (raise e s)
  | 3 => endRelay (i / 64) (i % 64) 2 code (raise e s)
  | 4 => each (fibreLinks s i) (fun l => freezeIn l 0) (raise e s)
  | _ => raise e s

/-- A part of what a READ asked for comes back (R378): the parts are put together by address, and once all that the access of the tag reads is there it goes to the master; where no
access of a runner has the tag, a response goes on as it comes. -/
def gather (m : SwlMsg) (s : State) : State :=
  let d := nodeDie m.dst
  let mine (r : SwlReply) : Bool := r.die == d && r.master == m.master && r.tag == m.tag
  let access := s.accesses.find? (fun a => m.master % 256 == 1 && a.runner == m.master / 65536 % 65536 && a.id == m.tag)
  let old := ((s.sweyr.replies.find? mine).elim [] (·.parts)).filter (·.1 != m.addr)
  let parts := old.filter (fun p => decide (p.1 < m.addr)) ++ (m.addr, m.data) :: old.filter (fun p => decide (m.addr < p.1))
  let whole := access.all (fun a => decide (sumOf (a.chunks.map (·.2)) ≤ sumOf (parts.map (·.2.length))))
  let s := { s with sweyr := { s.sweyr with
    replies := s.sweyr.replies.filter (fun r => !mine r) ++ (if whole then [] else [⟨d, m.master, m.tag, parts⟩]) } }
  if whole then emit (.readBack m.master m.tag ((parts.headD (m.addr, [])).1) (parts.flatMap (·.2))) s else s

/-- The parts of a READ that comes back with a status are discarded. -/
def ungather (m : SwlMsg) (s : State) : State :=
  { s with sweyr := { s.sweyr with replies := s.sweyr.replies.filter (fun r => !(r.die == nodeDie m.dst && r.master == m.master && r.tag == m.tag)) } }

/-- A response reaches its source (R390): status 1 freezes a runner with 0x0908 and ends a descriptor with TARGET_RESET; 2, 3 and 4 are handled as R302, R207 and R245 give;
the lap code of a status 3 is the one Table 7.5 gives for its address (assumption 111). The access
of the module that its tag names is performed by its own command. Data of poisoned storage is as status 2. -/
def takeReply (op : Nat) (m : SwlMsg) (s : State) : State :=
  let i := m.master / 65536 % 65536
  let status := if m.poison.isEmpty then m.status else 2
  let s := if status = 0 then s else ungather m s
  match status with
  | 0 => if op = 0x11 ∧ m.data ≠ [] then gather m s else s
  | 1 =>
    match m.master % 256 with
    | 1 => freezeAt i (runnerAt s i).pc 0x0908 m.addr (modCore (coreOf i) (fun c => { c with mover := c.mover.filter (fun t => !(t.runner == i && t.id == m.tag)) })
      { s with accesses := s.accesses.filter (fun a => !(a.runner == i && a.id == m.tag)) })
    | 2 => (s.host.descs.find? (·.q == i)).elim s (fun d => operandRefused d 0x0908 m.addr s)
    | 3 => targetResets (i / 64) (i % 64) m.addr s
    | _ => s
  | 2 => freezeMaster m 0x0406 { msgErr m 0x0406 contF with detail := unitDetail s m.addr 0 0 } s
  | 3 =>
    let code := if lapCode s true m.addr m.len = 0x0604 then 0x0604 else 0x0603
    freezeMaster m code (msgErr m code contF) s
  | 4 => freezeMaster m 0x0501 (msgErr m 0x0501 contV) s
  | _ => s

/-- A message reaches its node. -/
def deliver (d op : Nat) (m : SwlMsg) (s : State) : State :=
  match vcOf op with
  | 0 =>
    let (r, s) := performAt d op m s
    place d (nodeRouter m.dst) 0 (answers op) r s
  | 1 => takeReply op m s
  | 2 => if d < 16 then s else takePacket d m s
  | _ => emit (.firmware m.data) s

/-! ### Transfers -/

/-- A message goes out on a link: its credits are spent, its flits numbered and kept (R372, R373). The poison bit goes out where it is honoured. -/
def sendMsg (x op : Nat) (m : SwlMsg) (s : State) : State :=
  let k := endAt s x
  let m := if optionOn k 0 then m else { m with poison := [] }
  let n := msgFlits m
  let v := vcOf op
  let flits := (List.range n).map (fun i => (⟨(k.nextSeq + i) % 256, m, op, i⟩ : SentFlit))
  modEnd x (fun k => { k with
    replay := k.replay ++ flits, nextSeq := (k.nextSeq + n) % 256, credits := k.credits.set v (k.credits.getD v 0 - n) })
    (emit (.sweyr x op k.nextSeq 0 m (ackOf k) false) s)

/-- The router next to a router on a port, and the input it reaches there. -/
def meshNext (r p : Nat) : Nat × Nat :=
  match p with
  | 1 => (r - 4, 3)
  | 2 => (r + 1, 4)
  | 3 => (r + 4, 1)
  | _ => (r - 1, 2)

/-- The holder's message crosses its output, and the next holder is decided (R385). One that can no longer go, its link not Active or its credits gone, waits among the requests
(R365, R372). -/
def transfer (a : Arb) (s : State) : State :=
  match (arbAt s a).holder with
  | none => contend a s
  | some h =>
    if !canGo s a h.2.1 h.2.2 then contend a (modArb a (fun b => { b with holder := none }) s)
    else
    let s := modArb a (fun b => { b with holder := none, requests := b.requests.erase h }) s
    let s := match a with
      | .mesh d r p => if p = 0 then deliver d h.2.1 h.2.2 s else place d (meshNext r p).1 (meshNext r p).2 h.2.1 h.2.2 s
      | .swl x => sendMsg x h.2.1 h.2.2 s
    contend a s

/-- What the arbiters do as time passes: every holder's message crosses. -/
def swlTick (s : State) : State := each (s.sweyr.arbs.map (·.1)) (fun k => transfer (arbOfKey k)) s

/-! ### Messages that arrive -/

/-- Whether a message breaks its opcode's limits (R371). -/
def msgBad (op : Nat) (m : SwlMsg) : Bool :=
  match op with
  | 0x01 => !m.data.isEmpty || decide (3840 < m.len)
  | 0x02 => m.data.length != m.len || m.len == 0 || decide (3840 < m.len)
  | 0x04 => m.data.length != m.len || m.len != 240
  | 0x11 => m.data.length != m.len || decide (3840 < m.len) || (m.status != 0 && m.len != 0)
  | 0x21 => m.data.length != m.len || m.len == 0 || decide (3840 < m.len)
  | 0x31 => m.data.length != m.len || decide (64 < m.len)
  | _ => !m.data.isEmpty || m.len != 0

/-- A message that has arrived whole on a link is sent on or performed (R370). -/
def passOn (x op : Nat) (m : SwlMsg) (s : State) : State :=
  let d := swlEndDie x
  if d ≥ 16 then (if nodeDie m.dst = d then deliver d op m s else place d 0 0 op m s)
  else place d (endRouter x) (endSide x + 1) op m s

/-- Flits of a message in sequence (R370, R371): a head discards what its virtual channel held in part, and is discarded itself where it breaks its opcode's limits; the message goes on once
all its flits are there, and its buffer is freed. Data flits of a message that is not held are discarded. -/
def takeFlits (x op first n : Nat) (m : SwlMsg) (s : State) : State :=
  let v := vcOf op
  if first = 0 then
    let s := dropPart x v s
    if msgBad op m then raise (swlErr x 0x0909 contL) (freeBuf x v n s)
    else if msgFlits m ≤ n then passOn x op m (freeBuf x v n s)
    else modEnd x (fun k => { k with parts := ⟨v, op, m, n⟩ :: k.parts }) s
  else if (endAt s x).parts.find? (·.vc == v) = some ⟨v, op, m, first⟩ then
    if msgFlits m ≤ first + n then passOn x op m (freeBuf x v n (dropPart x v s))
    else modEnd x (fun k => { k with parts := ⟨v, op, m, first + n⟩ :: k.parts.filter (·.vc != v) }) s
  else freeBuf x v n s

/-- Flits of a message arrive on a link (R370 to R373): those out of sequence are discarded with a nak; those in sequence are counted and acknowledged. -/
def messageIn (x op : Nat) (a : SwlIn) (s : State) : State :=
  if !endLive s x || (endAt s x).state != .active then s
  else
    let s := a.ack.elim s (fun q => ackUpTo x q s)
    if a.seq ≠ (endAt s x).expect then contend (.swl x) (nakOnce x s)
    else
      let m := if optionOn (endAt s x) 0 then a.msg else { a.msg with poison := [] }
      let n := Nat.min a.count (msgFlits m - a.first)
      takeFlits x op a.first n m (contend (.swl x) (accept x n s))

/-- CREDIT (R372). -/
def creditIn (x : Nat) (c : List Nat) (ack : Option Nat) (s : State) : State :=
  if endLive s x && (endAt s x).state == .active then
    let s := ack.elim s (fun q => ackUpTo x q s)
    contend (.swl x) (modEnd x (fun k => { k with credits := (List.range 4).map (fun i => k.credits.getD i 0 + c.getD i 0) }) s)
  else s

/-- PACKET_FORWARD (R330): the oldest packet held for transit to this channel; its ingress buffer is freed. One held in another edge die crosses to this one as a PACKET
(R378), and then waits for its turn in the channel's own queue. -/
def packetForward (e c cls : Nat) (s : State) : State :=
  match s.fabric.chans.find? (fun q => q.2.transit.any (fun t => t.1 == chanKey e c && t.2.cls == cls)) with
  | some (k, ch) =>
    match ch.transit.find? (fun t => t.1 == chanKey e c && t.2.cls == cls) with
    | some t =>
      if cls < 3 ∧ sendable s e c cls (flitsOf t.2) ∧ turnOf s e c cls then
        let s := modChan (k / 64) (k % 64) (fun ch => { ch with
          transit := ch.transit.erase t, freed := ch.freed.set cls (nth ch.freed cls + 1) }) s
        if k / 64 = e then sendPacket e c t.2 s else place (16 + k / 64) 0 0 0x21 (packetMsg s k e c t.2) s
      else s
    | none => s
  | none => s

/-! ### The watchdog (R387) and resets (R388) -/

/-- The record of an arbiter's watchdog. Its master is the source on a Sweyr module, whose link the detail names, and the arbiter in the mesh (assumption 58). -/
def watchdogErr (a : Arb) (m : SwlMsg) : Err :=
  match a with
  | .mesh d r p => { code := 0x0907, cont := contF, die := d, mkind := 6, midx := r * 5 + p, addr := m.addr }
  | .swl x => { swlErr x 0x0907 contF with mkind := m.master % 256, midx := m.master / 65536 % 65536, addr := m.addr }

/-- ARBITER_WATCHDOG: the arbiter is reset, its holder's message discarded, and the source frozen. -/
def arbWatchdog (a : Arb) (s : State) : State :=
  match (arbAt s a).holder with
  | none => s
  | some h =>
    let s := modArb a (fun b => { holder := none, recent := [], requests := b.requests.erase h }) s
    contend a (freezeMaster h.2.2 0x0907 (watchdogErr a h.2.2) s)

/-- The messages an arbiter holds that can no longer go on: requests are answered with status 1, the rest are discarded. -/
def purgeArb (a : Arb) (s : State) : State :=
  let d := (arbDie a)
  let gone (q : Nat × Nat × SwlMsg) : Bool := cutOff s d (nodeDie q.2.2.dst)
  let out := (arbAt s a).requests.filter gone
  let s := modArb a (fun b => { b with holder := b.holder.filter (fun h => !gone h), requests := b.requests.filter (fun q => !gone q) }) s
  contend a (each out (fun q s => place d (arbRouter a) 0 q.2.1 q.2.2 s) s)

/-- A die has entered reset (R383, R388): it sends RESET_NOTICE on every link, its own ends and buffers are as after a cold reset, and messages for it or across it are answered. -/
def swlDieReset (d : Nat) (s : State) : State :=
  let s := each (endsOf d) (fun x s => modEnd x (fun _ => SwlEnd.cold) (frame x 0x07 [] s)) s
  let s := { s with sweyr := { s.sweyr with
    arbs := s.sweyr.arbs.filter (fun p => arbDie (arbOfKey p.1) != d), merges := s.sweyr.merges.filter (·.die != d),
    awaiting := d :: s.sweyr.awaiting.filter (· != d), replies := s.sweyr.replies.filter (·.die != d) } }
  each (s.sweyr.arbs.map (·.1)) (fun k => purgeArb (arbOfKey k)) s

/-- A die has left reset: its ends run full training (R383). -/
def swlDieReady (d : Nat) (s : State) : State := each (endsOf d) startFull s

/-! ### The commands -/

def execRead (x : Nat) (m : SwlIn) (s : State) : Host.Outcome State Fault Refusal := .next (messageIn x 0x01 m s)
def execWrite (x : Nat) (m : SwlIn) (s : State) : Host.Outcome State Fault Refusal := .next (messageIn x 0x02 m s)
def execAtomic (x : Nat) (m : SwlIn) (s : State) : Host.Outcome State Fault Refusal := .next (messageIn x 0x03 m s)
def execTallyAdd (x : Nat) (m : SwlIn) (s : State) : Host.Outcome State Fault Refusal := .next (messageIn x 0x04 m s)
def execReadResp (x : Nat) (m : SwlIn) (s : State) : Host.Outcome State Fault Refusal := .next (messageIn x 0x11 m s)
def execWriteAck (x : Nat) (m : SwlIn) (s : State) : Host.Outcome State Fault Refusal := .next (messageIn x 0x12 m s)
def execAtomicResp (x : Nat) (m : SwlIn) (s : State) : Host.Outcome State Fault Refusal := .next (messageIn x 0x13 m s)
def execTallyAck (x : Nat) (m : SwlIn) (s : State) : Host.Outcome State Fault Refusal := .next (messageIn x 0x14 m s)
def execPacket (x : Nat) (m : SwlIn) (s : State) : Host.Outcome State Fault Refusal := .next (messageIn x 0x21 m s)
def execNotice (x : Nat) (m : SwlIn) (s : State) : Host.Outcome State Fault Refusal := .next (messageIn x 0x31 m s)

def execPacketForward (e c cls : Nat) (s : State) : Host.Outcome State Fault Refusal := .next (packetForward e c cls s)

def execCredit (x c0 c1 c2 c3 : Nat) (ack : Option Nat) (s : State) : Host.Outcome State Fault Refusal := .next (creditIn x [c0, c1, c2, c3] ack s)
def execNak (x seq : Nat) (s : State) : Host.Outcome State Fault Refusal := .next (nakIn x seq s)

/-- WIDTH_CHECK and ACTIVE may make the link Active, so that its arbiter contends. -/
def execWidthCheck (x : Nat) (word : BitVec 64) (s : State) : Host.Outcome State Fault Refusal := .next (contend (.swl x) (linkSettled x s (widthCheckIn x word s)))
def execActive (x : Nat) (s : State) : Host.Outcome State Fault Refusal := .next (contend (.swl x) (linkSettled x s (activeIn x s)))

def execCap (x : Nat) (blk : List (BitVec 8)) (s : State) : Host.Outcome State Fault Refusal := .next (linkSettled x s (capIn x blk s))
def execCapAck (x : Nat) (s : State) : Host.Outcome State Fault Refusal := .next (linkSettled x s (capAckIn x s))
def execLaneTestDone (x : Nat) (pass : BitVec 64) (s : State) : Host.Outcome State Fault Refusal := .next (linkSettled x s (laneTestDone x pass s))
def execLaneResult (x : Nat) (pass : BitVec 64) (s : State) : Host.Outcome State Fault Refusal := .next (linkSettled x s (laneResultIn x pass s))

/-- SWEYR_CRC_FAIL (R369, R371, R373): a flit that is discarded. -/
def execSweyrCrcFail (f : SwlHeard) (s : State) : Host.Outcome State Fault Refusal := .next (contend (.swl f.x) (flitIn f.x f.image s))

def execResetNotice (x : Nat) (s : State) : Host.Outcome State Fault Refusal := .next (peerReset x s)
def execForwardedClockLoss (x : Nat) (s : State) : Host.Outcome State Fault Refusal := .next (peerReset x s)

/-- A write of an arbiter's priority register (R385, R386). -/
def arbWrite (a : Arb) (val : BitVec 64) (s : State) : State :=
  let ok := match a with
    | .mesh d r p => decide (d < 16 ∧ r < 16 ∧ p < 5)
    | .swl x => decide (x < 448)
  if ok && !inReset s (arbDie a) then contend a (setReg s (arbReg a) (rwBits (arbReg a) val)) else s

def execArbPriorityWrite (a : Arb) (val : BitVec 64) (s : State) : Host.Outcome State Fault Refusal := .next (regWrite (arbReg a) (arbWrite a val) s)

def execArbiterWatchdog (a : Arb) (s : State) : Host.Outcome State Fault Refusal := .next (arbWatchdog a s)

/-- A write of SWL_L_CTL, with what follows for the messages that wait. -/
def swlCtlWrite (x : Nat) (val : BitVec 32) (s : State) : State := linkSettled x s (swlControl x val s)

def execSwlRetrain (x : Nat) (val : BitVec 32) (s : State) : Host.Outcome State Fault Refusal := .next (regWrite (.swlCtl x) (swlCtlWrite x val) s)
def execSwlRelearn (x : Nat) (val : BitVec 32) (s : State) : Host.Outcome State Fault Refusal := .next (regWrite (.swlCtl x) (swlCtlWrite x val) s)
def execSwlDisable (x : Nat) (val : BitVec 32) (s : State) : Host.Outcome State Fault Refusal := .next (regWrite (.swlCtl x) (swlCtlWrite x val) s)

end Sys2Proof.Machine
end

