-- ==== Sys2Proof/Machine/Resets.lean ====
section
/-! DEFINITION. Resets: which register fields survive, and what a die warm, module warm, cold, job and core reset do to every other piece of state (R13, R14, R40, R440 to
R446, R450). -/

namespace Sys2Proof.Machine

/-! ### Register fields (R13) -/

/-- A register's word after an event that the fields chosen survive. -/
def survivors (keep : Fld → Bool) (p : Reg × Word) : Reg × Word :=
  (p.1, p.1.fields.foldl (fun w f => if keep f then f.into w (f.of p.2) else w) (coldOf p.1))

/-- Fields of the registers chosen that the event does not spare return to their cold values. -/
def surviveRegs (which : Reg → Bool) (keep : Reg → Fld → Bool) (s : State) : State :=
  { s with regs := s.regs.map (fun p => if which p.1 then survivors (keep p.1) p else p) }

/-- Fields that report state which a job reset and a park keep (Table 15.9): they go on reporting it (DEDUCED, assumption 61). -/
def liveField : Reg → Fld → Bool
  | .lgtFibreStatus _, f => f == F.lgtFibreStatus_source
  | .hifLinkStatus, f => f.acc == .ro
  | .timStatus, f => f.acc == .ro
  | .pwrMode, f => f == F.pwrMode_changing
  | .pwrState, f => f == F.pwrState_state
  | .pwrCoreReset, f => f == F.pwrCoreReset_busy
  | .pwrInput, f => f.acc == .ro
  | .pwrDieThrottle _, f => f.acc == .ro
  | .secBootStatus, f => f == F.secBootStatus_stage
  | .secFwVersion, f => f.acc == .ro
  | .secSvn, f => f.acc == .ro
  | .secRecoveryCtl, f => f == F.secRecoveryCtl_status
  | .secDebugNonce, f => f.acc == .ro
  | _, _ => false

/-! ### What runners and memory lose -/

/-- Runners chosen become Free at once, with what they had outstanding dropped (R445, R446). -/
def dropRunners (which : Nat → Bool) (s : State) : State :=
  let s := { s with
    accesses := s.accesses.filter (fun a => !which a.runner)
    cores := s.cores.map (fun c => (c.1, { c.2 with mover := c.2.mover.filter (fun t => !which t.runner), array := c.2.array.filter (fun o => !which o.runner) })) }
  each ((s.runners.filter (fun p => which p.1 && p.2.state != .free)).map (·.1)) freeRunner s

/-- A range of memory zeroed with valid codes (R301). -/
def wipeRange (a n : Nat) (s : State) : State :=
  { s with mem := Mem.zero s.mem a n, memp := { s.memp with faults := s.memp.faults.filter (fun p => !decide (a ≤ p.1 ∧ p.1 < a + n)) } }

/-- A core's folio, tiles and vector registers zeroed. -/
def wipeCore (k : Nat) (s : State) : State := wipeRange (folioAddr k) 0x20_0000 (wipeRange (tileBlock k) 0x4_0000 s)

/-- A die's wells zeroed, but for a scale table that lies in one, which is kept (Table 6.7, R194). -/
def wipeWells (d : Nat) (s : State) : State :=
  let a := 0x1000_0000_0000 + d * 0x800_0000
  let t := tableBase s
  if a ≤ t ∧ t < a + 0x800_0000 then wipeRange a (t - a) (wipeRange (t + 0x1_0000) (a + 0x800_0000 - (t + 0x1_0000)) s) else wipeRange a 0x800_0000 s

/-- A compute die's folios, tiles and vector registers zeroed. -/
def wipeStores (d : Nat) (s : State) : State :=
  wipeRange (0x1100_0000_0000 + d * 0x800_0000) 0x800_0000 (wipeRange (0x1200_0000_0000 + d * 0x800_0000) 0x800_0000 s)

/-- A compute die's wells, folios, tiles and vector registers zeroed. -/
def wipeDie (d : Nat) (s : State) : State := wipeRange (0x1000_0000_0000 + d * 0x800_0000) 0x800_0000 (wipeStores d s)

/-- Cores as after a reset (Table 4.6), their lanes seeded from their die's CMP_VEC_SEED (Table 5.9). -/
def freshCores (ks : List Nat) (s : State) : State :=
  { s with cores := s.cores.filter (fun c => !ks.contains c.1) ++ ks.map (fun k => (k, { Core.cold with genSeed := regVal s (.cmpVecSeed (k / 64)) })) }

/-- The die of a hurdle. -/
def hurdleDie (key : Nat) : Nat :=
  let u := key % 2 ^ 20 / 16
  if key < 2 ^ 20 then u / 64 else if key < 2 ^ 21 then u / 8 else u

/-- A LAUNCH completes with a status before its runners end; its shares elsewhere keep running (R101, R445). -/
def endLaunch (l : Launch) (status code : Nat) (s : State) : State :=
  let s := { s with launches := s.launches.map (fun m => if m.id = l.id then { m with desc := 0 } else m) }
  (descOf s l.desc).elim s (fun d => complete d status code (bytesLE 8 l.lid.toNat) (if code = 0 then s else raise (descErr d code contE) s))


/-- Accesses and transfers of other dies that a die in reset cuts off end with status TARGET_RESET (R388, R390). -/
def refuseCut (s : State) : State :=
  let accs := s.accesses.filterMap (fun a => (rangesReset s (dieOfRunner a.runner) a.ranges).map (fun x => (a, x)))
  let moves := s.cores.flatMap (fun c => c.2.mover.filterMap (fun t => (rangesReset s (c.1 / 64) t.ranges).map (fun x => (t, x))))
  let gone := accs.map (·.1.id) ++ moves.map (·.1.id)
  let s := { s with
    accesses := s.accesses.filter (fun a => !gone.contains a.id)
    cores := s.cores.map (fun c => (c.1, { c.2 with mover := c.2.mover.filter (fun t => !gone.contains t.id) })) }
  let s := each accs (fun p s => freezeAt p.1.runner p.1.pc 0x0908 p.2 s) s
  let s := each moves (fun p s => freezeAt p.1.runner p.1.pc 0x0908 p.2 s) s
  wakeAll (each ((accs.map (·.1.runner)) ++ (moves.map (·.1.runner))) runnerFreed s)

/-! ### Die warm reset (R441 to R444) -/

/-- The mailbox party whose reset a die's is (Table 14.10). -/
def partyOfDie (d : Nat) : Nat := if d < 16 then 6 + d else d - 14

/-- What a compute die loses. -/
def computeLoses (d : Nat) (s : State) : State :=
  let s := newMapping d s
  let s := each (s.launches.filter (·.dies.testBit d)) (fun l => endLaunch l 3 0x0A15) s
  let s := { s with
    shares := s.shares.filter (fun x => x.core / 64 != d)
    hurdles := s.hurdles.filter (fun h => hurdleDie h.1 != d)
    progs := s.progs.del d }
  let s := dropRunners (fun w => dieOfRunner w == d) s
  let s := forgetQueues d (freeEntries (fun e => e.dies.testBit d) s)
  let s := launchCheck (freshCores (coresOfDie d) (wipeWells d (wipeStores d (freshHidden d (fun _ => true) s))))
  let c := s.census
  { s with
    census := { c with
      bins := c.bins.filter (fun p => p.1 / 128 / 8192 != d), tops := c.tops.filter (fun p => p.1 / 8192 != d),
      saturated := c.saturated.filter (fun k => k / 8192 != d) }
    fabric := { s.fabric with recorded := s.fabric.recorded.filter (· != d) } }

/-- What one of ED1 to ED3 loses (R345, R358): its links go Dark, its channels start afresh, and its fibres are passed over by a changeover. -/
def edgeLoses (d : Nat) (s : State) : State :=
  let e := d - 16
  let s := freshHidden d (fun _ => true) s
  let mine (f : Nat) : Bool := f / 6 == e
  let s := each ((s.fabric.links.filter (fun l => mine (fibreOf l.1) && l.2.state != .dark)).map (·.1)) linkDark s
  let s := modFab (fun b => { b with
    links := b.links.filter (fun l => !mine (fibreOf l.1))
    chans := (b.chans.filter (fun c => c.1 / 64 != e)).map (fun c =>
      let gone (i : Nat) : Nat := (c.2.transit.filter (fun t => t.1 / 64 == e && t.2.cls == i)).length
      (c.1, { c.2 with transit := c.2.transit.filter (fun t => t.1 / 64 != e), freed := (List.range 4).map (fun i => nth c.2.freed i + gone i) }))
    stranded := b.stranded.filter (fun q => q.1 != e)
    falseStarts := b.falseStarts.filter (fun f => !mine f.1)
    held := b.held.filter (fun f => !mine f)
    peerHeld := b.peerHeld.filter (fun f => !mine f) }) s
  let c := s.census
  let s := { s with census := { c with
    bins := c.bins.filter (fun p => p.1 / 128 / 8192 != d), tops := c.tops.filter (fun p => p.1 / 8192 != d),
    saturated := c.saturated.filter (fun k => k / 8192 != d) } }
  modLight (fun g => { g with
    lines := g.lines.map (fun l => if l.1 / 144 = e then (l.1, { l.2 with samples := [], mean := none, level := 0, clear := 0, minutes := [], minute := [] }) else l)
    txLocked := g.txLocked.filter (fun f => !mine f.1)
    rxLocked := g.rxLocked.filter (fun f => !mine f.1)
    change := { g.change with fibre := g.change.fibre.filter (fun f => !mine f.1) } }) s

/-- Whether a trip, the loss of both references, a failed training, a processor that does not start or the recovery loader keeps a die in reset (R289, R429, R443, R458, R463). -/
def mustStay (s : State) (d : Nat) : Bool :=
  s.power.tripped.contains d || s.power.noRef.contains d || (s.memp.trained.get? d == some false) ||
  (getF s .secBootStatus F.secBootStatus_die_fail).testBit d || (getF s .secBootStatus F.secBootStatus_stage == 7 && d != 16)

/-- A cause that held a die in reset has cleared: what else holds it still does. -/
def releaseDie (d : Nat) (s : State) : State :=
  match s.power.resets.get? d with
  | some r => { s with power := { s.power with resets := s.power.resets.set d { r with held := r.held && mustStay s d } } }
  | none => s

/-- A cause of die warm reset as PWR_RESET_CAUSE codes it when the die is ED0 (Table 15.22). The causes are numbered 1 uncorrectable error, 2 dead pin, 3 watchdog,
4 clock loss, 5 trip, 6 PWR_RESET_CTL, 7 processor start (assumption 62). -/
def moduleCause (cause : Nat) : Nat :=
  match cause with
  | 3 => 4
  | 4 => 5
  | 5 => 6
  | 6 => 7
  | _ => 3

/-- The state that every reset of the module keeps: what waits, what has been sent, the part, and what lies outside it. -/
def bare (s : State) : State :=
  { State.reset with
    pending := s.pending, out := s.out, resp := s.resp, nextId := s.nextId, free := s.free
    mem := s.mem.filter (fun c => decide (hostBase ≤ c.1))
    memp := { State.reset.memp with marked := s.memp.marked, repaired := s.memp.repaired, spares := s.memp.spares, advised := s.memp.advised }
    power := { Power.cold with volts := s.power.volts, auxVolts := s.power.auxVolts, slotId := s.power.slotId }
    sec := { Sec.cold with part := s.sec.part, slot := s.sec.slot, revoked := s.sec.revoked, svn := s.sec.svn } }

/-- P0 of each line, which the SPI NOR keeps (R352). -/
def savedLines (s : State) : Tab Line := s.light.lines.map (fun l => (l.1, { Line.cold with p0 := l.2.p0 }))

/-- The registers of ch. 18 with fields that list W: an uncorrectable error in ED0's control SRAM clears them with the ring (R301). -/
def errKept : Reg → Bool
  | .errRingStatus | .errRingPage | .errCount _ => true
  | _ => false

/-- A module warm reset (R440, Table 15.9): every die is in reset until boot; `held` keeps it there. -/
def moduleWarmReset (cause : Nat) (held : Bool) (s : State) : State :=
  let s := each (List.range 16) (fun d s => remap d (regVal s (.cmpMemInterleave d)) (coldOf (.cmpMemInterleave d)) (newMapping d s)) s
  let s := each s.memp.dead (fun p s => markRow p.2 s) s
  let b := bare s
  let regs := (surviveRegs (fun _ => true) (fun r f => f.w && !(cause == 3 && errKept r)) { s with regs := s.power.saved ++ s.regs }).regs
  let s' : State := { b with
    regs := regs
    mem := s.mem.filter (fun c => decide (c.1 < 0x600_0000_0000 ∨ hostBase ≤ c.1))
    memp := { b.memp with
      poison := s.memp.poison, rows := s.memp.rows, trained := s.memp.trained,
      faults := s.memp.faults.filter (fun p => decide (p.1 < 0x600_0000_0000)) }
    light := { Light.cold with sources := s.light.sources, lines := savedLines s }
    power := { b.power with
      switchOpen := s.power.switchOpen, pwrgd := s.power.pwrgd, tripped := s.power.tripped,
      ovAt := s.power.ovAt, ovAtBoot := s.power.ovAtBoot, auxNoted := s.power.auxNoted, noRef := s.power.noRef,
      resets := (List.range 20).map (fun d => (d, ⟨cause, d == 16 && (held || s.power.tripped.contains 16 || s.power.noRef.contains 16)⟩)) }
    sec := { b.sec with eid := s.sec.eid, dynAddr := s.sec.dynAddr }
    blotter := if cause = 3 then Blotter.cold else { s.blotter with events := [] } }
  setF s' .pwrResetCause F.pwrResetCause_cause cause

/-- A cold reset (R440): the cold state. Comb sources lose EN, host memory and the SPI NOR stand. -/
def coldReset (s : State) : State :=
  let b := bare s
  { b with light := { Light.cold with
      sources := s.light.sources.map (fun c => (c.1, { c.2 with en := false }))
      lines := savedLines s } }

/-- A die enters die warm reset (R441, R444). Where it is in reset already its reset starts over, with one further record, on a die that has nothing left to lose; a reset of ED0 is a
module warm reset. -/
def dieWarmReset (d cause : Nat) (held : Bool) (s : State) : State :=
  if d = 16 then moduleWarmReset (moduleCause cause) held s
  else if 20 ≤ d then s
  else
    let was := (s.power.resets.get? d).isSome
    let due := s.memp.dead.filter (fun p => p.1 == d)
    let s := raise { code := 0x0C08, cont := contL, die := d, detail := cause } s
    let s := { s with power := { s.power with resets := s.power.resets.set d ⟨cause, held || (s.power.resets.get? d).any (·.held)⟩, onB := s.power.onB.filter (· != d) } }
    let s := if was then s else
      surviveRegs (fun r => r.holder == d) (fun _ f => f.d) { s with power := { s.power with rungs := s.power.rungs.filter (fun p => p.1 / 4 != d) } }
    let s := if was then s else if d < 16 then computeLoses d s else edgeLoses d s
    let s := refuseCut (swlDieReset d s)
    let s := relaysDieReset d (lapDieReset d s)
    let s := mailboxReset (partyOfDie d) { s with
      sec := { s.sec with retried := s.sec.retried.filter (· != d) }, clock := { s.clock with dieOff := s.clock.dieOff.del d } }
    each due (fun p s => markRow p.2 s) (modMem (fun m => { m with dead := m.dead.filter (fun p => p.1 != d) }) s)

/-- The resets that uncorrectable errors have made due begin (R301). -/
def contain (s : State) : State :=
  let l := (s.memp.dead.map (·.1)).eraseDups
  if l.contains 16 then dieWarmReset 16 1 false s else each l (fun d s => dieWarmReset d 1 false s) s

/-- DIE_RESET_READY: a die whose cause has cleared admits accesses again, its LPDDR6 retrained from the stored results (Table 15.6, R291, R345, R383). -/
def dieReady (d : Nat) (s : State) : State :=
  match s.power.resets.get? d with
  | none => s
  | some r =>
    if r.held || (s.power.resets.get? 16).isSome then s
    else
      let s := { s with power := { s.power with resets := s.power.resets.del d }, sec := { s.sec with retried := s.sec.retried.filter (· != d) } }
      let s := if d < 16 then setF s (.memDieStatus d) F.memDieStatus_trained 1 else each (List.range 6) (fun p => setSwitch (activeSrc s) ((d - 16) * 6 + p)) s
      swlDieReady d (raise { code := 0x0C09, cont := contL, die := d } s)

/-! ### Job reset (R445) -/

/-- The lap block returns to Idle (R215, R445): what waits for a lap is cancelled, open laps end without a vote. -/
def lapJobReset (s : State) : State :=
  let s := each s.lap.opens cancelOpen s
  let s := each (openLaps s) (fun o => endVotes o.lap 5 3) s
  let s := modLap (fun l => { l with
    state := 0, older := none, spec := none, exchange := none, opens := [], votes := [], pendSnap := [], pendTable := none }) s
  let s := writeLapRecord s
  modLap (fun l => { l with ready := 0, newest := 0, settled := 0, outcome := 0, history := [], wipes := 0, dries := [] }) s

/-- The commit relay leaves its slot without an outcome: its lap has ended. -/
def dropCommit (s : State) : State :=
  modEngine 0 (fun g => { g with slots := g.slots.filter (fun p => !p.2.post.ext.commits) }) s

/-- JOB_RESET: relays are cancelled, LAUNCHes with waiting shares too, runners are Free, and the state of the job is cleared. -/
def jobReset (s : State) : State :=
  let s := dropCommit (lapJobReset s)
  let s := cancelAll s
  let s := each (List.range 4) (fun e => modEngine e (fun g => { g with held := [] })) s
  let s := each (s.launches.filter (fun l => s.shares.any (·.launch == l.id))) (fun l => endLaunch l 5 0) s
  let s := launchCheck (dropRunners (fun _ => true) { s with shares := [] })
  let s := haltCheck { s with hurdles := [], heat := Heat.cold, census := Census.cold, accesses := [] }
  let installs := s.relays.installs
  let s := { s with relays := { s.relays with installs := [] } }
  let s := surviveRegs (fun _ => true) (fun r f => f.j || liveField r f) s
  let s := each installs (fun p s => (descOf s p.1).elim (setF s .colLayout F.colLayout_current p.2) (fun d => succeed d (setF s .colLayout F.colLayout_current p.2))) s
  let s := modFab (fun b => { b with falseStarts := [] }) { s with cores := [] }
  let s := each (List.range 16) (fun d s => wipeWells d (wipeStores d s)) s
  freshCores ((List.range 16).flatMap (fun d => if regVal s (.cmpVecSeed d) = 0 then [] else coresOfDie d)) s

/-! ### Core reset (R446) -/

/-- The registers of a core. -/
def coreReg (k : Nat) : Reg → Bool
  | .cmpCoreStatus i => i == k
  | .cmpCoreWait i => i == k
  | .cmpCoreCtl i => i == k
  | .cmpCoreFreeze i => i == k
  | .cmpCoreDbgSel i => i == k
  | .cmpCoreDbgData i => i == k
  | .cmpCoreMtx i => i == k
  | .cmpCoreOdrainAddr i => i == k
  | .cmpCoreOdrainCtl i => i == k
  | .cmpCoreMtxScale i _ => i == k
  | _ => false

/-- A core's reset. -/
def coreReset (k : Nat) (s : State) : State :=
  let s := dropRunners (fun w => coreOf w == k) s
  let s := { s with
    hurdles := s.hurdles.filter (fun h => decide (2 ^ 20 ≤ h.1) || h.1 / 16 != k)
    regs := s.regs.filter (fun p => !coreReg k p.1) }
  wakeAll (haltCheck (freshCores [k] (wipeCore k s)))

/-- A write of PWR_CORE_RESET (Table 15.19): its fields, then go, which is ignored while a reset is in progress and for a die in reset (R444). -/
def coreResetWrite (val : BitVec 32) (s : State) : State :=
  let r := Reg.pwrCoreReset
  let v := val.toNat
  let k := bits v 0 4 * 64 + bits v 4 6
  let s := setF (setF s r F.pwrCoreReset_die (bits v 0 4)) r F.pwrCoreReset_core (bits v 4 6)
  if !v.testBit 10 || s.power.resetCore.isSome || inReset s (bits v 0 4) then s
  else
    let s := coreReset k s
    { setF s r F.pwrCoreReset_busy 1 with power := { s.power with resetCore := some k } }

/-- A write of PWR_RESET_CTL (Table 15.18). A module warm reset overrides the narrower ones. -/
def resetCtl (val : BitVec 64) (s : State) : State :=
  let v := val.toNat
  if v.testBit 16 then moduleWarmReset 7 false s
  else
    let s := if v.testBit 20 then jobReset s else s
    each ((List.range 20).filter (fun d => v.testBit d)) (fun d => dieWarmReset d 6 false) s

/-! ### The commands -/

def execColdReset (s : State) : Host.Outcome State Fault Refusal := .next (coldReset s)
def execModuleWarmReset (cause : Nat) (s : State) : Host.Outcome State Fault Refusal :=
  .next (if 1 ≤ cause ∧ cause ≤ 7 then moduleWarmReset cause false s else s)
def execDieWarmReset (d cause : Nat) (s : State) : Host.Outcome State Fault Refusal := .next (dieWarmReset d cause false s)
def execDieResetReady (d : Nat) (s : State) : Host.Outcome State Fault Refusal := .next (dieReady d s)
def execJobReset (s : State) : Host.Outcome State Fault Refusal := .next (regWrite .pwrResetCtl jobReset s)
def execCoreReset (val : BitVec 32) (s : State) : Host.Outcome State Fault Refusal := .next (regWrite .pwrCoreReset (coreResetWrite val) s)

/-- CORE_RESET_COMPLETE. -/
def execCoreResetComplete (s : State) : Host.Outcome State Fault Refusal := 
  .next { setF s .pwrCoreReset F.pwrCoreReset_busy 0 with power := { s.power with resetCore := none } }

end Sys2Proof.Machine
end

