-- ==== Sys2Proof/Machine/Clock.lean ====
section
/-! DEFINITION. Clocks and the throttle ladder, power modes, fabric time with its inputs and outputs, and the supply inputs (R424 to R439, R443, R451, R475 to R480). -/

namespace Sys2Proof.Machine

/-- The power state changed. -/
def modPower (f : Power → Power) (s : State) : State := { s with power := f s.power }

/-- The clock changed. -/
def modClock (f : Clock → Clock) (s : State) : State := { s with clock := f s.clock }

/-! ### Islands and references (R424 to R426, R443) -/

/-- A mode's core clock in kHz (Table 1.7). -/
def modeClock (m : Nat) : Nat := if m = 0 then 1800000 else if m = 1 then 1500000 else 1100000

/-- A mode's power ceiling in W (Table 1.7). -/
def modeCeiling (m : Nat) : Nat := if m = 0 then 14500 else if m = 1 then 11500 else 8000

/-- A die's rung: the greatest that a cause demands (R428). Causes: 0 rate, 1 hot, 2 ceiling, 3 supply. -/
def rungOf (s : State) (d : Nat) : Nat := maxOf ((List.range 4).map (fun c => s.power.rungs.get (d * 4 + c) 0))

/-- An island's rated clock, where the spec gives one: a core's by mode and rung (R29, R427), a mesh's 2.0 GHz (R362). Islands are numbered: cores, 1,024 on the 128 clusters, 1,152 on
the 16 meshes, then memory groups, edge dies and always-on islands. -/
def ratedClock (s : State) (i : Nat) : Option Nat :=
  if i < 1024 then some (modeClock (getF s .pwrMode F.pwrMode_current) * (8 - rungOf s (i / 64)) / 8)
  else if 1152 ≤ i ∧ i < 1168 then some 2000000
  else none

/-- An island's clock in kHz: what its generator was last set to, otherwise its rated clock. -/
def islandClock (s : State) (i : Nat) : Option Nat :=
  match s.power.islands.get? i with
  | some k => some k
  | none => ratedClock s i

/-- No island runs above its rated clock (R29, R427): one that does is lowered to it. -/
def capIslands (s : State) : State :=
  modPower (fun p => { p with islands := p.islands.map (fun q => (q.1, (ratedClock s q.1).elim q.2 (Nat.min q.2))) }) s

/-- ADAPTIVE_CLOCK_ADJUST (R425): never above the rated clock. -/
def adjustClock (i khz : Nat) (s : State) : State :=
  if i < 1320 then modPower (fun p => { p with islands := p.islands.set i ((ratedClock s i).elim khz (Nat.min khz)) }) s else s

/-- OSC_A_LOSS (R426). -/
def oscALoss (d : Nat) (s : State) : State :=
  if 20 ≤ d ∨ s.power.onB.contains d then s
  else raise { code := 0x0B01, cont := contL, die := d } (modPower (fun p => { p with onB := d :: p.onB }) s)

/-- BOTH_REF_LOSS (R443): the die is reset and held. -/
def bothRefLoss (d : Nat) (s : State) : State :=
  if 20 ≤ d then s
  else
    let s := modPower (fun p => { p with noRef := d :: p.noRef.filter (· != d) }) s
    dieWarmReset d 4 true (raise { code := 0x0B02, cont := contD, die := d } s)

/-- REFERENCE_RESTORED (R443): a reference has been present for 10 ms. -/
def refBack (d : Nat) (s : State) : State :=
  if s.power.noRef.contains d then releaseDie d (modPower (fun p => { p with noRef := p.noRef.filter (· != d) }) s) else s

/-! ### The throttle ladder (R427 to R429) -/

/-- A die's hottest reading. -/
def setTemp (d : Nat) (temp : Int) (s : State) : State := setF s (.pwrDieThrottle d) F.pwrDieThrottle_temp (wrap 8 temp)

/-- A die reads a temperature: that of an LPDDR6 package is not its hottest sensor's (R483). -/
def readTemp (d : Nat) (r : Reading) (s : State) : State := if r.package then s else setTemp d r.temp s

/-- Table 17.6: where a reading is hot, and where it trips its die. -/
def hotAt (s : State) (r : Reading) : Int := if r.package then 95 else getF s .pwrThermCfg F.pwrThermCfg_hot
def tripAt (r : Reading) : Int := if r.package then 105 else 115

/-- A cause demands a rung of a die, whose cores then run no faster than the rung allows (R28, R427); where it demanded none before, an engagement is counted. -/
def engage (d cause rung : Nat) (s : State) : State :=
  let s := if s.power.rungs.get (d * 4 + cause) 0 = 0 then bumpF s (.pwrDieThrottle d) F.pwrDieThrottle_events 1 else s
  capIslands (modPower (fun p => { p with rungs := p.rungs.set (d * 4 + cause) (Nat.min 7 rung) }) s)

/-- A cause's record for a die: at most one in any 1 s (R428). -/
def throttleNote (d cause code : Nat) (s : State) : State :=
  let k := d * 4 + cause
  if (s.power.noted.get? k).any (fun t => decide (nowNs s < t + 10 ^ 9)) then s
  else raise { code := code, cont := contL, die := d } (modPower (fun p => { p with noted := p.noted.set k (nowNs s) }) s)

/-- Compute dies not in reset. -/
def runningDies (s : State) : List Nat := (List.range 16).filter (fun d => !inReset s d)

/-- RATE_THROTTLE. -/
def rateThrottle (d : Nat) (temp : Int) (s : State) : State :=
  if d < 16 ∧ !inReset s d then throttleNote d 0 0x0C01 (engage d 0 4 (setTemp d temp s)) else s

/-- HOT_THROTTLE: one rung higher while hot holds, recorded at the first. On an edge die, which has no rung (R427), the cause engages with no further effect. -/
def hotThrottle (d : Nat) (r : Reading) (s : State) : State :=
  if d < (if r.package then 16 else 20) ∧ !inReset s d then
    let s := readTemp d r s
    if hotAt s r ≤ r.temp then
      let n := s.power.rungs.get (d * 4 + 1) 0
      let s := engage d 1 (n + 1) s
      if n = 0 then throttleNote d 1 0x0C03 s else s
    else s
  else s

/-- The 10 ms mean of the input power, and its peak. -/
def inputPower (watts : Nat) (s : State) : State :=
  let s := setF s .pwrInput F.pwrInput_power_w (Nat.min watts 0xFFFF)
  setF s .pwrInput F.pwrInput_peak_w (Nat.max (Nat.min watts 0xFFFF) (getF s .pwrInput F.pwrInput_peak_w))

/-- CEILING_THROTTLE: every compute die one rung higher. Its record, like the supply's, is ED0's (assumption 64). -/
def ceilingThrottle (watts : Nat) (s : State) : State :=
  let s := inputPower watts s
  if modeCeiling (getF s .pwrMode F.pwrMode_current) * 98 < watts * 100 then
    let first := (runningDies s).all (fun d => s.power.rungs.get (d * 4 + 2) 0 == 0)
    let s := each (runningDies s) (fun d s => engage d 2 (s.power.rungs.get (d * 4 + 2) 0 + 1) s) s
    if first then throttleNote 16 2 0x0C02 s else s
  else s

/-- SUPPLY_LOW: rung 4 on every compute die. Volts are in 10 mV. -/
def supplyLow (volts : Nat) (s : State) : State :=
  let s := modPower (fun p => { p with volts := volts }) s
  if volts < 4400 then throttleNote 16 3 0x0C05 (each (runningDies s) (fun d => engage d 3 4) s) else s

/-- THROTTLE_RELEASE: one rung lower. -/
def throttleRelease (d cause : Nat) (s : State) : State :=
  if d < 20 ∧ cause < 4 then modPower (fun p => { p with rungs := p.rungs.set (d * 4 + cause) (p.rungs.get (d * 4 + cause) 0 - 1) }) s else s

/-- THERMTRIP (R429, R483). -/
def thermtrip (d : Nat) (r : Reading) (s : State) : State :=
  if d < (if r.package then 16 else 20) ∧ tripAt r ≤ r.temp ∧ !s.power.tripped.contains d then
    let s := if s.power.tripped.isEmpty then emit (.pin .thermtripN false) s else s
    let s := modPower (fun p => { p with tripped := d :: p.tripped }) (readTemp d r s)
    let s := dieWarmReset d 5 true (raise { code := 0x0C04, cont := if d = 16 then contM else contD, die := d } s)
    readTemp d r s
  else s

/-- THERMTRIP_RESUME (R429): the die may leave reset, unless something else holds it too. -/
def thermtripResume (d : Nat) (temp : Int) (s : State) : State :=
  if s.power.tripped.contains d && decide (temp ≤ getF s .pwrThermCfg F.pwrThermCfg_resume) then
    let s := releaseDie d (modPower (fun p => { p with tripped := p.tripped.filter (· != d) }) (setTemp d temp s))
    if s.power.tripped.isEmpty then emit (.pin .thermtripN true) s else s
  else s

/-! ### Power modes (R31, R451) -/

/-- A write of PWR_MODE. A mode asked for during a change takes effect when that change completes. -/
def modeChange (val : BitVec 32) (s : State) : State :=
  let m := val.toNat % 4
  if m = 3 then reject 0x0C06 s
  else
    let s := setF s .pwrMode F.pwrMode_mode m
    if flag s .pwrMode F.pwrMode_changing || getF s .pwrMode F.pwrMode_current == m then s
    else setF (modPower (fun p => { p with nextMode := some m }) s) .pwrMode F.pwrMode_changing 1

/-- MODE_CHANGE_COMPLETE: no core runs above the new mode's clock (R29). -/
def modeComplete (s : State) : State :=
  match s.power.nextMode with
  | none => s
  | some m =>
    let s := capIslands (setF (modPower (fun p => { p with nextMode := none }) s) .pwrMode F.pwrMode_current m)
    let last := getF s .pwrMode F.pwrMode_mode
    if last = m then setF s .pwrMode F.pwrMode_changing 0 else modPower (fun p => { p with nextMode := some last }) s

/-! ### The pacer (R431) -/

/-- A coordinate's place in the order that elects a pacer. -/
def coordOrder (c : Nat) : Nat := (c % 16 * 16 + c / 16 % 16) * 16 + c / 256

/-- The lowest member of the installed lane plan. -/
def lowestMember (s : State) : Option Nat :=
  (s.fabric.plan.elim [] (·.members)).foldl (fun m c => some (m.elim c (fun x => if coordOrder c < coordOrder x then c else x))) none

/-- Whether this module is the pacer. -/
def isPacer (s : State) : Bool := flag s .timPacer F.timPacer_valid && hasCoord s && getF s .timPacer F.timPacer_coord == coordOf s

/-! ### Time (R430 to R435) -/

/-- Fabric time in 2^-16 ns. -/
def timeUnits (s : State) : Nat := s.clock.ns * 65536 + s.clock.frac

/-- Fabric time set, modulo 2^64 ns. -/
def setUnits (u : Int) (s : State) : State :=
  let n := wrap 80 u
  modClock (fun c => { c with ns := n / 65536, frac := n % 65536 }) s

/-- Fabric time is stepped, and recorded. -/
def stepTime (by_ : Int) (s : State) : State := note 0x0B05 (modClock (fun c => { c with steer := 0 }) (setUnits (timeUnits s + by_) s))

/-- Whether a link carries split markers: Up at fabric level 1.2 (R433). -/
def measures (s : State) (l : Nat) : Bool := linkLive s l && (linkAt s l).state == .up && decide (2 ≤ (linkAt s l).minor)

/-- Whether a link may lead to a parent: it measures, its channel is Open, and its peer announces a path to the pacer. -/
def mayParent (s : State) (l : Nat) : Bool :=
  measures s l && (chanOf s l).any (fun c => (chanAt s (edOf l) c).state == .open) &&
  (s.clock.heard.get? l).any (fun h => decide (h.hops < 255) && h.pacer == getF s .timPacer F.timPacer_coord)

/-- What a link's peer announced. -/
def heardOf (s : State) (l : Nat) : Heard := s.clock.heard.get l ⟨255, 0, 0⟩

/-- The best parent: the fewest hops, then the lowest coordinate. -/
def bestParent (s : State) : Option Nat :=
  ((s.clock.heard.map (·.1)).filter (mayParent s)).foldl (fun b l =>
    some (b.elim l (fun m =>
      let (x, y) := (heardOf s l, heardOf s m)
      if x.hops < y.hops ∨ (x.hops = y.hops ∧ coordOrder x.coord < coordOrder y.coord) then l else m))) none

/-- The parent chosen or kept (R432); with none, the module free-runs and says so once. -/
def chooseParent (s : State) : State :=
  let r := Reg.timStatus
  if isPacer s || !flag s .timPacer F.timPacer_valid then s
  else
    match bestParent s with
    | none =>
      let s := modClock (fun c => { c with parent := none, steer := 0, nearSince := none }) s
      let s := setF (setF (setF s r F.timStatus_parent_fibre 31) r F.timStatus_hops 255) r F.timStatus_state 0
      if s.clock.noPath then s else note 0x0B04 (modClock (fun c => { c with noPath := true }) s)
    | some b =>
      let keep := s.clock.parent.any (fun l => mayParent s l && decide ((heardOf s l).hops ≤ (heardOf s b).hops))
      let l := if keep then s.clock.parent.getD b else b
      let s := if keep then s else setF (modClock (fun c => { c with parent := some l, nearSince := none }) s) r F.timStatus_state 1
      setF (setF (modClock (fun c => { c with noPath := false }) s) r F.timStatus_parent_fibre (fibreOf l)) r F.timStatus_hops (Nat.min 255 ((heardOf s l).hops + 1))

/-- The parent's channel has closed: the module chooses again (R432). What was heard on links that no longer measure is forgotten. -/
def rechoose (s : State) : State :=
  if s.clock.parent.any (fun l => !mayParent s l) then
    chooseParent (modClock (fun c => { c with heard := c.heard.filter (fun p => measures s p.1) }) s)
  else s

/-! ### PACER_SET (R431) -/

/-- TIM_STATUS as a new pacer leaves it: the pacer itself is Locked (DEDUCED from R435, assumption 65), any other module chooses a parent (R432). -/
def timRole (s : State) : State :=
  let r := Reg.timStatus
  let p := isPacer s
  let s := modClock (fun c => { c with parent := none, nearSince := none, steer := 0, noPath := false, badEdges := 0 }) s
  let s := setF (setF s r F.timStatus_pacer p.toNat) r F.timStatus_hops (if p then 0 else 255)
  chooseParent (setF (setF (setF s r F.timStatus_parent_fibre 31) r F.timStatus_pps_locked 0) r F.timStatus_state (if p then 2 else 0))

/-- The pacer is named; a change of it is recorded. -/
def setPacer (c : Nat) (named : Bool) (s : State) : State :=
  let r := Reg.timPacer
  let known := flag s r F.timPacer_valid
  let old := getF s r F.timPacer_coord
  let was := isPacer s
  let s := setF (setF (setF s r F.timPacer_coord c) r F.timPacer_named named.toNat) r F.timPacer_valid 1
  let s := if known && old != c then note 0x0B03 s else s
  if (known && old == c) && was == flag s .timStatus F.timStatus_pacer then s else timRole s

/-- The pacer by election, where none is named (R431): after a lane plan, a PACER_SET or a new coordinate. -/
def electPacer (s : State) : State :=
  if flag s .timPacer F.timPacer_named then (if isPacer s == flag s .timStatus F.timStatus_pacer then s else timRole s)
  else
    match lowestMember s with
    | some c => setPacer c false s
    | none => s

/-- PACER_SET. -/
def pacerSet (mode coord : Nat) (d : Desc) (s : State) : State :=
  if mode % 2 = 1 then
    if (s.fabric.plan.elim [] (·.members)).contains coord then succeed d (setPacer coord true s) else failDesc d 0x0B06 s
  else succeed d (electPacer (setF s .timPacer F.timPacer_named 0))

/-! ### Splits (R433, R434) -/

/-- An integer held to a signed field of 16 bits. -/
def sat16 (i : Int) : Int := max (-32768) (min 32767 i)

/-- The split measured with the parent (R433, R434): delay and offset in 2^-16 ns; the counter is steered by at most 200 ppm, or stepped past 10 µs. -/
def applySplit (t1 t2 t3 t4 : Int) (s : State) : State :=
  let r := Reg.timStatus
  let d := ((t2 - t1) + (t4 - t3)) / 2
  let o := ((t4 - t3) - (t2 - t1)) / 2
  let s := setF (setF s r F.timStatus_offset (wrap 16 (sat16 (o / 65536)))) r F.timStatus_delay (Nat.min 65535 (d / 65536).toNat)
  if 10000 * 65536 < o.natAbs then setF (modClock (fun c => { c with nearSince := none }) (stepTime (-o) s)) r F.timStatus_state 1
  else
    let near := decide (o.natAbs ≤ 4 * 65536)
    let since := if near then some (s.clock.nearSince.getD s.clock.ns) else none
    let locked := since.any (fun t => decide (t + 10 ^ 9 ≤ s.clock.ns))
    setF (modClock (fun c => { c with steer := -o, steerMax := 13, nearSince := since }) s) r F.timStatus_state (if locked then 2 else 1)

/-- A link's split markers. -/
def splitOf (s : State) (l : Nat) : Split := s.clock.splits.get l ⟨0, 0, 0, 0⟩

/-- TIME_MESSAGE. -/
def timeMessageIn (l : Nat) (m : TimeMsg) (s : State) : State :=
  if !measures s l then s
  else
    let coord := (linkAt s l).peer.elim 0 (·.coord)
    let s := chooseParent (modClock (fun c => { c with heard := c.heard.set l ⟨m.hops, m.pacer, coord⟩ }) s)
    let k := splitOf s l
    if s.clock.parent = some l ∧ m.seen = k.sent ∧ m.sent = k.seen ∧ isPacer s = false then
      applySplit k.sentAt (m.seenNs * 65536 + m.seenFrac : Nat) (m.sentNs * 65536 + m.sentFrac : Nat) k.seenAt s
    else s

/-- Whether a split marker is one of the three further copies of the last one (R317), and how many of those are still to come after it. -/
def copyLeft (s : State) (l num : Nat) : Option Nat :=
  match (linkAt s l).marker with
  | some (m, n + 1) => if m = num then some n else none
  | _ => none

/-- SPLIT_MARKER: the first copy of the peer's marker is timestamped. -/
def splitMarkerIn (l num : Nat) (s : State) : State :=
  if measures s l then
    match copyLeft s l num with
    | some n => modLink l (fun k => { k with marker := some (num, n) }) s
    | none =>
      modClock (fun c => { c with splits := c.splits.set l { splitOf s l with seen := num % 4096, seenAt := timeUnits s } })
        (modLink l (fun k => { k with marker := some (num, 3) }) s)
  else s

/-- SPLIT_MEASURE: a marker goes out, and a time message reports both timestamps. Nothing goes out on a held fibre (R356). -/
def splitMeasure (l : Nat) (s : State) : State :=
  if measures s l && !s.fabric.held.contains (fibreOf l) then
    let k := { splitOf s l with sent := ((splitOf s l).sent + 1) % 4096, sentAt := timeUnits s }
    let s := sendControl l 5 k.sent (modClock (fun c => { c with splits := c.splits.set l k }) s)
    let msg : TimeMsg := ⟨getF s .timStatus F.timStatus_hops, getF s .timPacer F.timPacer_coord, k.sent, k.sentAt / 65536,
      k.sentAt % 65536, k.seen, k.seenAt / 65536, k.seenAt % 65536, getF s .timStatus F.timStatus_state⟩
    (chanOf s l).elim (emit (.timeMessage l msg) s) (fun c => sendC3 (edOf l) c [.time l msg] s)
  else s

/-- ED0's time reaches a die (R430): by a split marker on an Active Sweyr link of version 1.2, by a TIME frame on one of an earlier version. The die's counter takes it, within
1 ns of ED0's own. -/
def dieTimeIn (x : Nat) (marker : Bool) (units : Nat) (s : State) : State :=
  let k := endAt s x
  if endLive s x && k.state == .active && (featureOn k 1 == marker) && swlEndDie x != 16 then
    modClock (fun c => { c with dieOff := c.dieOff.set (swlEndDie x) (max (-65536) (min 65536 ((units : Int) - timeUnits s))) }) s
  else s

/-! ### Outputs and input (R436 to R439) -/

/-- PPS_IN is lost or off time (R438). -/
def ppsBad (s : State) : State :=
  let s := setF (setF s .timStatus F.timStatus_pps_locked 0) .timStatus F.timStatus_state 3
  note 0x0B07 (modClock (fun c => { c with badEdges := 0, steer := 0 }) s)

/-- PPS_IN_EDGE, at the fabric time at which it was observed. -/
def ppsEdge (ns : Nat) (s : State) : State :=
  if !isPacer s || !flag s .timCtl F.timCtl_pps_in then s
  else
    let e : Int := (ns : Int) - getF s .timCtl F.timCtl_cable_ns
    let past := e % (10 ^ 9 : Int)
    if !flag s .timStatus F.timStatus_pps_locked then
      let s := stepTime (-past * 65536) s
      modClock (fun c => { c with badEdges := 0 }) (setF (setF s .timStatus F.timStatus_pps_locked 1) .timStatus F.timStatus_state 2)
    else
      let off := if past < 5 * 10 ^ 8 then past else past - 10 ^ 9
      if 1000 < off.natAbs then
        if 3 ≤ s.clock.badEdges + 1 then ppsBad s else modClock (fun c => { c with badEdges := c.badEdges + 1 }) s
      else modClock (fun c => { c with badEdges := 0, steer := -off * 65536, steerMax := 3 }) s

/-- PPS_OUT_RISE, within 2 ns of the second that it names: with pps_out set the pin rises. -/
def ppsRise (s : State) : State :=
  let s := modClock (fun c => { c with ppsNamed := some ((c.ns + 2) / 10 ^ 9 * 10 ^ 9) }) s
  if flag s .timCtl F.timCtl_pps_out then emit (.pin .ppsOut true) s else s

/-- The time-of-day frame (Table 15.4). -/
def todFrame (s : State) (t : Nat) : List Byte :=
  let r := Reg.timStatus
  let b := bytesLE 1 0x5A ++ bytesLE 1 0x54 ++ bytesLE 1 24 ++ bytesLE 1 1 ++ bytesLE 8 t ++ bytesLE 1 (getF s r F.timStatus_state) ++
    bytesLE 1 (getF s r F.timStatus_pacer + 2 * getF s r F.timStatus_pps_locked) ++ bytesLE 2 (getF s .timPacer F.timPacer_coord) ++
    bytesLE 1 (getF s r F.timStatus_hops) ++ bytesLE 3 0
  b ++ bytesLE 4 (crc32c b)

/-- TIM_SET (R439). -/
def timSet (val : BitVec 64) (s : State) : State :=
  if isPacer s then note 0x0B05 (modClock (fun c => { c with ns := val.toNat, frac := 0, steer := 0 }) s) else reject 0x0B08 s

/-- TIM_NOW_READ: the fraction is latched. -/
def timNowRead (s : State) : State :=
  { setF s .timNowFrac F.timNowFrac_frac s.clock.frac with resp := BitVec.ofNat 64 s.clock.ns }

/-- A write of TIM_CTL: an output whose bit is clear is driven low. -/
def timCtlWrite (val : Word) (s : State) : State :=
  let was := regVal s .timCtl
  let s := setReg s .timCtl (rwBits .timCtl val)
  let off (f : Fld) (p : Pin) (s : State) : State := if f.of was = 1 ∧ getF s .timCtl f = 0 then emit (.pin p false) s else s
  off F.timCtl_tenm_out .tenM (off F.timCtl_pps_out .ppsOut s)

/-- A write of PWR_THERM_CFG (Table 15.21, R451). -/
def thermCfgWrite (val : Word) (s : State) : State :=
  let h := F.pwrThermCfg_hot.of val
  let r := F.pwrThermCfg_rate.of val
  let u := F.pwrThermCfg_resume.of val
  if 60 ≤ h ∧ h ≤ 105 ∧ 20 ≤ r ∧ r ≤ 40 ∧ 60 ≤ u ∧ u ≤ 100 then setReg s .pwrThermCfg (rwBits .pwrThermCfg val) else reject 0x0C06 s

/-! ### The supply inputs (R477, R479, R480) -/

/-- Whether the module is in deep park. -/
def deepParked (s : State) : Bool := getF s .pwrState F.pwrState_state == 3

/-- PWRGD goes low where it was high. -/
def pwrgdLow (s : State) : State := if s.power.pwrgd then emit (.pin .pwrgd false) (modPower (fun p => { p with pwrgd := false }) s) else s

/-- SUPPLY_LOSS: below 40 V. -/
def supplyLoss (volts : Nat) (s : State) : State :=
  if volts < 4000 then
    let s := pwrgdLow (modPower (fun p => { p with volts := volts }) s)
    if deepParked s then s else coldReset s
  else s

/-- INPUT_OVERVOLTAGE: above 58 V, recorded at most once an hour. -/
def overvoltage (volts : Nat) (s : State) : State :=
  let s := modPower (fun p => { p with volts := volts }) s
  if volts ≤ 5800 ∨ s.power.ovAt.any (fun t => decide (nowNs s < t + 3600 * 10 ^ 9)) then s
  else note 0x0C0A (modPower (fun p => { p with ovAt := some (nowNs s) }) s)

/-- INPUT_SWITCH_OPEN: above 60 V, as a loss of 50 V; where the auxiliary input holds up the record waits for the next boot. -/
def switchOpens (volts : Nat) (s : State) : State :=
  if 6000 < volts then
    let s := pwrgdLow (modPower (fun p => { p with volts := volts }) s)
    let s := if deepParked s then s else coldReset s
    modPower (fun p => { p with switchOpen := true, ovAtBoot := decide (1100 ≤ p.auxVolts) }) s
  else s

/-- INPUT_SWITCH_RECLOSE. -/
def switchCloses (volts : Nat) (s : State) : State :=
  if s.power.switchOpen && decide (4400 ≤ volts ∧ volts ≤ 5800) then modPower (fun p => { p with switchOpen := false, volts := volts }) s else s

/-- AUX_LOST: below 11 V. -/
def auxLost (volts : Nat) (s : State) : State :=
  if volts < 1100 then
    let s := modPower (fun p => { p with auxVolts := volts, ovAtBoot := p.ovAtBoot && !p.switchOpen }) s
    if deepParked s then coldReset s
    else if 4000 ≤ s.power.volts ∧ !s.power.switchOpen ∧ !s.power.auxNoted then note 0x0C0B (modPower (fun p => { p with auxNoted := true }) s)
    else s
  else s

/-- AUX_RESTORED: back in the operating range of Table 17.1. -/
def auxRestored (volts : Nat) (s : State) : State :=
  if 1140 ≤ volts ∧ volts ≤ 1260 then modPower (fun p => { p with auxVolts := volts, auxNoted := false }) s else s

/-! ### The commands -/

def execOscALoss (d : Nat) (s : State) : Host.Outcome State Fault Refusal := .next (oscALoss d s)
def execBothRefLoss (d : Nat) (s : State) : Host.Outcome State Fault Refusal := .next (bothRefLoss d s)

def execReferenceRestored (d : Nat) (s : State) : Host.Outcome State Fault Refusal := .next (refBack d s)

def execAdaptiveClockAdjust (island khz : Nat) (s : State) : Host.Outcome State Fault Refusal := .next (adjustClock island khz s)
def execRateThrottle (d : Nat) (temp : Int) (s : State) : Host.Outcome State Fault Refusal := .next (rateThrottle d temp s)
def execHotThrottle (d : Nat) (r : Reading) (s : State) : Host.Outcome State Fault Refusal := .next (hotThrottle d r s)
def execCeilingThrottle (watts : Nat) (s : State) : Host.Outcome State Fault Refusal := .next (ceilingThrottle watts s)
def execSupplyLow (volts : Nat) (s : State) : Host.Outcome State Fault Refusal := .next (supplyLow volts s)
def execThrottleRelease (d cause : Nat) (s : State) : Host.Outcome State Fault Refusal := .next (throttleRelease d cause s)
def execThermtrip (d : Nat) (r : Reading) (s : State) : Host.Outcome State Fault Refusal := .next (thermtrip d r s)
def execThermtripResume (d : Nat) (temp : Int) (s : State) : Host.Outcome State Fault Refusal := .next (thermtripResume d temp s)
def execModeChange (val : BitVec 32) (s : State) : Host.Outcome State Fault Refusal := .next (regWrite .pwrMode (modeChange val) s)
def execModeChangeComplete (s : State) : Host.Outcome State Fault Refusal := .next (modeComplete s)
def execPacerSet (h : Hdr) (mode coord : Nat) (s : State) : Host.Outcome State Fault Refusal := .next (startDesc h 0x90 (pacerSet mode coord) s)
def execTimeMessage (l : C3Link) (m : TimeMsg) (s : State) : Host.Outcome State Fault Refusal := .next (takeC3 l (timeMessageIn l.link m) s)
def execSplitMarker (l num : Nat) (s : State) : Host.Outcome State Fault Refusal := .next (splitMarkerIn l num s)
def execSplitMeasure (l : Nat) (s : State) : Host.Outcome State Fault Refusal := .next (splitMeasure l s)
def execPpsInEdge (ns : Nat) (s : State) : Host.Outcome State Fault Refusal := .next (ppsEdge ns s)

/-- PPS_IN_TIMEOUT (R438). -/
def execPpsInTimeout (s : State) : Host.Outcome State Fault Refusal :=
  .next (if isPacer s && flag s .timCtl F.timCtl_pps_in && flag s .timStatus F.timStatus_pps_locked then ppsBad s else s)

def execPpsOutRise (s : State) : Host.Outcome State Fault Refusal := .next (ppsRise s)

/-- TOD_FRAME_SEND (R437). -/
def execTodFrameSend (s : State) : Host.Outcome State Fault Refusal :=
  .next (match s.clock.ppsNamed with
    | some t => if flag s .timCtl F.timCtl_tod_out then emit (.tod (todFrame s t)) s else s
    | none => s)

def execTimSet (val : BitVec 64) (s : State) : Host.Outcome State Fault Refusal := .next (regWrite .timSet (timSet val) s)
def execTimNowRead (s : State) : Host.Outcome State Fault Refusal := .next (if inReset s 16 then { s with resp := BitVec.allOnes 64 } else timNowRead s)

def execSweyrSplitMarker (x ns frac : Nat) (s : State) : Host.Outcome State Fault Refusal := .next (dieTimeIn x true (ns * 65536 + frac) s)
def execTime (x ns frac : Nat) (s : State) : Host.Outcome State Fault Refusal := .next (dieTimeIn x false (ns * 65536 + frac) s)

def execSupplyLoss (volts : Nat) (s : State) : Host.Outcome State Fault Refusal := .next (supplyLoss volts s)
def execInputOvervoltage (volts : Nat) (s : State) : Host.Outcome State Fault Refusal := .next (overvoltage volts s)
def execInputSwitchOpen (volts : Nat) (s : State) : Host.Outcome State Fault Refusal := .next (switchOpens volts s)
def execInputSwitchReclose (volts : Nat) (s : State) : Host.Outcome State Fault Refusal := .next (switchCloses volts s)
def execAuxLost (volts : Nat) (s : State) : Host.Outcome State Fault Refusal := .next (auxLost volts s)
def execAuxRestored (volts : Nat) (s : State) : Host.Outcome State Fault Refusal := .next (auxRestored volts s)

end Sys2Proof.Machine
end

