-- ==== Sys2Proof/Machine/Setup.lean ====
section
/-! DEFINITION. The fields of a BAR0 write: access codes, and the two steps of a write under DEV_SETUP_LOCK (R10, R12, R501). -/

namespace Sys2Proof.Machine

/-- Whether setup is locked. -/
def setupLocked (s : State) : Bool := flag s .devSetupLock F.devSetupLock_lock

/-- What a write would set in a register's RWL fields that differs from what they hold. -/
def changesLocked (s : State) (r : Reg) (v : Word) : Bool :=
  (r.fields.filter (·.acc == .rwl)).any (fun f => f.of v != getF s r f)

/-- The first step of a write (R501): under the lock every RWL field of the value is what the register holds. -/
def lockedVal (s : State) (r : Reg) (v : Word) : Word :=
  if setupLocked s then (r.fields.filter (·.acc == .rwl)).foldl (fun w f => f.into w (getF s r f)) v else v

/-- The record of a locked write that would change a field. -/
def lockNote (r : Reg) (v : Word) (s : State) : State := if setupLocked s && changesLocked s r v then note 0x0A19 s else s

/-- What a register holds after a write: RW and RWL fields take the value, a 1 clears a W1C bit and sets a W1S bit, and the rest stay (Table 0.3). Bits outside its fields are ignored (R12). -/
def written (r : Reg) (old v : Word) : Word :=
  r.fields.foldl (fun w f =>
    match f.acc with
    | .rw => f.into w (f.of v)
    | .rwl => f.into w (f.of v)
    | .w1c => f.into w (Nat.xor (f.of old) (f.of old &&& f.of v))
    | .w1s => f.into w (f.of old ||| f.of v)
    | .ro => w
    | .wo => w
    | .rc => w) old

end Sys2Proof.Machine
end

