-- ==== Sys2Proof/Machine/MemProt.lean ====
section
/-! DEFINITION. Memory's own commands: accesses performed, host accesses, the interleave, refresh, the pin check and the patrol scrub (R46 to R50, R57, R58, R290, R298 to R302,
R395, R398, R399). -/

namespace Sys2Proof.Machine

/-! ### The interleave -/

/-- A mapping that carries a reserved value (R49). -/
def badMapping (v : Word) : Bool := F.cmpMemInterleave_granule.of v == 7 || decide (32 < F.cmpMemInterleave_pinned_channels.of v)

/-- MEM_INTERLEAVE_WRITE (R49, R50, R501): the mapping waits for accesses in flight, whose numbers lie below the one kept with it. -/
def interleaveWrite (d : Nat) (val : BitVec 32) (s : State) : State :=
  let r := Reg.cmpMemInterleave d
  let v := written r 0 (val.setWidth 64)
  if 16 ≤ d ∨ inReset s d then s
  else if setupLocked s then
    (if v = (s.newMaps.get? d).elim (regVal s r) (·.2) then s else note 0x0A19 s)
  else if badMapping v then raise { code := 0x0413, cont := contX, die := d } s
  else { s with newMaps := s.newMaps.set d (s.nextId, v) }

/-- Whether ranges meet a die's LPDDR6. -/
def inDram (d : Nat) (rs : List (Nat × Nat)) : Bool := meet rs [(d * 0x60_0000_0000, 0x60_0000_0000)]

/-- Whether an LPDDR6 access of a die numbered below `n` has not been performed. -/
def dramBusy (s : State) (d n : Nat) : Bool :=
  s.accesses.any (fun a => decide (a.id < n) && inDram d a.ranges) ||
  s.cores.any (fun c => c.2.mover.any (fun t => decide (t.id < n) && inDram d t.ranges))

/-- INTERLEAVE_TAKES_EFFECT. -/
def interleaveEffect (d : Nat) (s : State) : State :=
  match s.newMaps.get? d with
  | none => s
  | some (n, _) => if dramBusy s d n then s else newMapping d s

/-! ### Accesses of runners (R57, R58) -/

/-- Whether an earlier access of the same runner, or an array operation of it, meets an access (R58). -/
def accessBlocked (s : State) (a : Access) : Bool :=
  s.accesses.any (fun b => b.runner == a.runner && decide (b.id < a.id) && meet b.ranges a.ranges) ||
  (coreAt s (coreOf a.runner)).array.any (fun o => o.runner == a.runner && decide (o.id < a.id) && meet o.kind.ranges a.ranges)

/-- Bytes of an access's data, one list for each of its chunks. -/
def cut : List (Nat × Nat) → List Byte → List (Nat × List Byte)
  | [], _ => []
  | (a, n) :: cs, bs => (a, bs.take n) :: cut cs (bs.drop n)

/-- What an access reads. -/
def Access.reads (a : Access) : List (Nat × Nat) :=
  match a.kind with
  | .load .. => a.chunks
  | .copyIn _ => a.chunks
  | .atomic .. => a.chunks
  | .store _ => []

/-- What an access writes. -/
def Access.written (a : Access) : List (Nat × Nat) :=
  match a.kind with
  | .load .. => []
  | .copyIn _ => []
  | .atomic .. => a.chunks
  | .store _ => a.chunks

/-- A value loaded into a register. -/
def loadVal (n : Nat) (signed : Bool) (v : Nat) : Word := if signed then BitVec.ofInt 64 (sint (8 * n) v) else BitVec.ofNat 64 v

/-- The source of an access's reports. -/
def accessErr (a : Access) : Err := { code := 0, die := dieOfRunner a.runner, mkind := 1, midx := a.runner }

/-- An access takes effect at its memory. -/
def takeEffect (a : Access) (s : State) : State :=
  let addr := (a.chunks.headD (0, 0)).1
  match a.kind with
  | .load rd n signed => setS a.runner rd (loadVal n signed (rdN s addr n)) s
  | .copyIn dest => store dest (a.chunks.flatMap (fun c => Mem.read s.mem c.1 c.2)) s
  | .atomic op n x cmp rd =>
    let old := rdN s addr n
    let s := testWrite a.seen none (accessErr a) addr n (store addr (bytesLE n (atomicVal op n old x.toNat cmp.toNat)) s)
    setS a.runner rd (atomicOld op n old) s
  | .store data =>
    countBytes (dieOfRunner a.runner) a.counted data
      (each (cut a.chunks data) (fun p s => testWrite a.seen none (accessErr a) p.1 p.2.length (store p.1 p.2 s)) s)

/-- ACCESS_PERFORMED. -/
def accessPerformed (id : Nat) (upset : Upset) (s : State) : State :=
  match s.accesses.find? (·.id == id) with
  | none => s
  | some a =>
    if accessBlocked s a then s
    else
      let s := upsetUnit upset s
      let die := dieOfRunner a.runner
      let s := if (rangesReset s die (a.reads ++ a.written)).isSome then s else probe a.reads a.written s
      let out (s : State) : State := { s with accesses := s.accesses.filter (·.id != id) }
      let s := match memoryRefuses s die a.reads a.written with
        | some (code, x) => freezeAt a.runner a.pc code x (out s)
        | none => takeEffect a (out s)
      contain (wakeAll (runnerFreed a.runner (arraySettle 5 (coreOf a.runner) s)))

/-! ### Host accesses (R46, R398, R399) -/

/-- A record about a host access. -/
def hostErr (code a : Nat) : Err := { code := code, cont := contL, mkind := 9, addr := a }

/-- A record about a host access to a poisoned unit (R302, R493). -/
def poisonErr (s : State) (u : Nat) : Err := { hostErr 0x0406 u with detail := unitDetail s u 0 0 }

/-- Why a host access is not performed: beyond the HDM range, or unpopulated. -/
def hostRange (s : State) (a n : Nat) : Option Nat :=
  if 0x600_0000_0000 < a + n then some 0x0A16 else if !mapped s a n then some 0x0412 else none

/-- HOST_MEM_READ. With CXL.io only (R396) no read arrives. -/
def hostRead (a n : Nat) (s : State) : State :=
  let poisoned (s : State) : State := emit (.hostData (List.replicate n 0xFF) true) s
  if !hostLinkUp s then s
  else
    match hostRange s a n with
    | some code => poisoned (raise (hostErr code a) s)
    | none =>
      let s := readChecked 16 [(a, n)] [] s
      match memoryRefuses s 16 [(a, n)] [] with
      | some (code, u) => contain (poisoned (if code = 0x0406 then raise (poisonErr s u) s else s))
      | none => contain (emit (.hostData (Mem.read s.mem a n) false) s)

/-- HOST_MEM_WRITE. One that the lap block refuses is dropped and recorded (assumption 67). -/
def hostWrite (a : Nat) (bs : List Byte) (s : State) : State :=
  let n := bs.length
  if !hostLinkUp s then s
  else
    match hostRange s a n with
    | some code => raise (hostErr code a) s
    | none =>
      let lap := lapCode s false a n
      if lap ≠ 0 then raise (hostErr lap a) s
      else
        let s := readChecked 16 [] [(a, n)] s
        contain (match memoryRefuses s 16 [] [(a, n)] with
          | some (code, u) => if code = 0x0406 then raise (poisonErr s u) s else s
          | none => store a bs s)

/-- HOST_SNOOP: the answer says whether the ring cache holds the line; an invalidating snoop takes it (R395). -/
def snoop (a : Nat) (invalidate : Bool) (s : State) : State :=
  let line := a / 64
  let s := emit (.snoopAnswer a (s.host.ringCache.contains line)) s
  if invalidate then { s with host := { s.host with ringCache := s.host.ringCache.filter (· != line) } } else s

/-! ### Refresh, pin check and scrub (R290, R299, R301) -/

/-- A die's LPDDR6 is in self-refresh (R291): in reset, in park or in deep park. -/
def selfRefresh (s : State) (d : Nat) : Bool := inReset s d || decide (2 ≤ getF s .pwrState F.pwrState_state)

/-- PIN_CHECK: `pin` counts the 24 DQ pins of a channel, 12 to a sub-channel. A second wrong pattern in a row makes it dead. -/
def pinCheck (d ch pin : Nat) (good : Bool) (s : State) : State :=
  let key := (d * 32 + ch) * 24 + pin
  if 16 ≤ d ∨ 32 ≤ ch ∨ 24 ≤ pin ∨ selfRefresh s d then s
  else if good then modMem (fun m => { m with badPins := m.badPins.filter (· != key) }) s
  else if !s.memp.badPins.contains key then modMem (fun m => { m with badPins := key :: m.badPins }) s
  else
    dieWarmReset d 2 false (raise { code := 0x040C, cont := contD, die := d, mkind := 7, detail := ch + pin / 12 * 2 ^ 8 + pin % 12 * 2 ^ 16 }
      (modMem (fun m => { m with badPins := m.badPins.filter (· != key) }) s))

/-- A pass counter advances, modulo 2^32 (R299). -/
def passDone (d : Nat) (f : Fld) (s : State) : State := setF s (.memDieScrub d) f (getF s (.memDieScrub d) f + 1)

/-- PATROL_SCRUB_READ of the unit at `upset.addr`, in which nature has just inverted what the upset says. The kind of scrub is that of the storage at the address. -/
def scrubRead (d : Nat) (upset : Upset) (passEnd : Bool) (s : State) : State :=
  match unitOf s upset.addr with
  | none => s
  | some (u, size) =>
    let dram := size == 32
    let off := if dram then getF s .memScrubCfg F.memScrubCfg_dram_hours == 0 else getF s .memScrubCfg F.memScrubCfg_sram_minutes == 0
    if 20 ≤ d ∨ dieOfUnit s u ≠ d ∨ off ∨ inReset s d ∨ (d < 16 ∧ selfRefresh s d) then s
    else
      let s := if passEnd && decide (d < 16) then passDone d (if dram then F.memDieScrub_dram_passes else F.memDieScrub_sram_passes) s else s
      contain (readUnit (u, size) (upsetUnit upset s))

/-! ### The commands -/

def execMemInterleaveWrite (d : Nat) (val : BitVec 32) (s : State) : Host.Outcome State Fault Refusal := .next (regWrite (.cmpMemInterleave d) (interleaveWrite d val) s)
def execInterleaveTakesEffect (d : Nat) (s : State) : Host.Outcome State Fault Refusal := .next (interleaveEffect d s)
def execHostMemRead (addr len : Nat) (s : State) : Host.Outcome State Fault Refusal := .next (hostRead addr len s)
def execHostMemWrite (addr : Nat) (data : List (BitVec 8)) (s : State) : Host.Outcome State Fault Refusal := .next (hostWrite addr data s)
def execHostSnoop (addr : Nat) (invalidate : Bool) (s : State) : Host.Outcome State Fault Refusal := .next (snoop addr invalidate s)
def execAccessPerformed (id : Nat) (upset : Upset) (s : State) : Host.Outcome State Fault Refusal := .next (accessPerformed id upset s)

/-- REFRESH (R290): a bank keeps what it holds. Its time is out of the model. -/
def execRefresh (_d _ch _bank : Nat) (s : State) : Host.Outcome State Fault Refusal := .next s
def execPinCheck (d ch pin : Nat) (good : Bool) (s : State) : Host.Outcome State Fault Refusal := .next (pinCheck d ch pin good s)
def execPatrolScrubRead (d : Nat) (upset : Upset) (passEnd : Bool) (s : State) : Host.Outcome State Fault Refusal :=
  .next (scrubRead d upset passEnd s)

end Sys2Proof.Machine
end

