-- ==== Sys2Proof/Machine/PowerState.lean ====
section
/-! DEFINITION. Park, deep park and their exit (R447 to R449, R478). -/

namespace Sys2Proof.Machine

/-- PWR_STATE's state and status. -/
def pwrNow (state status : Nat) (s : State) : State :=
  setF (setF s .pwrState F.pwrState_state state) .pwrState F.pwrState_status status

/-- Whether an install is in progress: of a lane plan, a layout, a census, an interleave or firmware. -/
def installing (s : State) : Bool :=
  !s.fabric.installing.isEmpty || !s.relays.installs.isEmpty || s.census.install.isSome || !s.newMaps.isEmpty ||
  [1, 2, 3].contains (getF s .secFwCtl F.secFwCtl_status)

/-- Whether a request for park or deep park is refused (R448, R478). -/
def parkRefused (s : State) (deep : Bool) : Bool :=
  let st := getF s .pwrState F.pwrState_state
  s.lap.state != 0 || !(openLaps s).isEmpty || s.runners.any (fun p => p.2.state != .free) ||
  s.relays.engines.any (fun g => !g.2.slots.isEmpty || !g.2.posts.isEmpty) || (List.range 20).any (inReset s) || installing s ||
  st == 1 || st == 4 || (st == 3) || (deep && decide (s.power.auxVolts < 1140))

/-- A request for park or deep park. Park asked for in Park is done at once (assumption 86). -/
def parkAsk (deep : Bool) (s : State) : State :=
  let target := if deep then 3 else 2
  if deep = false ∧ getF s .pwrState F.pwrState_state = 2 then pwrNow 2 2 s
  else if parkRefused s deep then reject 0x0C07 (setF s .pwrState F.pwrState_status 3)
  else pwrNow 1 1 (modPower (fun p => { p with target := target }) s)

/-- Fields whose Survives column lists P are saved, and every other field returns to its cold value; what ED0 reports of kept state stays (R13, R448 step 1). -/
def saveFields (target : Nat) (s : State) : State :=
  let s := surviveRegs (fun _ => true) (fun r f => f.p || liveField r f) s
  let s := modPower (fun p => { p with saved := p.saved ++ s.regs.filter (fun q => gated target q.1.holder) }) s
  { s with regs := s.regs.filter (fun q => !gated target q.1.holder) }

/-- A repair applied: the row's contents are in its spare (R304), of which nothing has been seen yet. -/
def repairRow (r : RowId) (s : State) : State :=
  let d := match r with
    | .dram d _ _ _ => d
    | .sram a _ => dieOfUnit s a
  let detail := match r with
    | .dram _ sub bank row => sub / 2 + sub % 2 * 2 ^ 8 + bank * 2 ^ 24 + row * 2 ^ 32
    | .sram _ row => row % 2 ^ 32 * 2 ^ 32
  raise { code := 0x040A, cont := contL, die := d, mkind := 7, detail := detail }
    (modMem (fun m => { m with
      marked := m.marked.filter (· != r), repaired := m.repaired ++ [r]
      rows := m.rows.filter (fun l => markOf 0 l.row != r && markOf 1 l.row != r) }) s)

/-- Whether a row is of LPDDR6. -/
def RowId.isDram : RowId → Bool
  | .dram .. => true
  | .sram .. => false

/-- The compute dies lose what Table 15.9 does not keep across park. -/
def gateCompute (s : State) : State :=
  let s := each (List.range 16) (fun d s => wipeDie d (freshHidden d (fun _ => true) s)) s
  let s := if s.power.target = 3 then each [17, 18, 19] (fun d s => freshHidden d (fun _ => true) s) s else s
  let c := s.census
  let s := each (List.range 16) (fun d s => setF s (.cmpProgStatus d) F.cmpProgStatus_valid 0)
    { s with cores := [], progs := [], hurdles := [], census := { c with bins := [], tops := [], saturated := [] } }
  modPower (fun p => { p with rungs := [] }) s

/-- Fabric time free-runs in ED0 while links are Dark (Table 15.9). -/
def holdTime (s : State) : State :=
  let s := modClock (fun c => { c with parent := none, heard := [], splits := [], steer := 0 }) s
  if isPacer s then s else setF (setF s .timStatus F.timStatus_state 3) .timStatus F.timStatus_parent_fibre 31

/-- PARK_ENTRY_COMPLETE: steps 1 to 6 of R448 are over. -/
def parkEntered (s : State) : State :=
  if getF s .pwrState F.pwrState_state ≠ 1 then s
  else
    let target := s.power.target
    let repairs := if flag s .memRepairCfg F.memRepairCfg_ppr_at_park then s.memp.marked.filter RowId.isDram else []
    let s := each repairs repairRow s
    let s := each (liveLinks s) linkDark s
    let s := saveFields target (gateCompute s)
    let s := holdTime (modFab (fun b => { b with falseStarts := [] }) { s with sweyr := ⟨[], [], s.sweyr.lost, [], [], []⟩ })
    let s := if target = 3 then setEn 0 false (setEn 1 false s) else s
    pwrNow target 2 s

/-- A request for active (R449): the exit begins, after deep park once 50 V is present; until then the request is busy. One made in Active is done. -/
def activeAsk (s : State) : State :=
  let st := getF s .pwrState F.pwrState_state
  if st = 2 ∨ (st = 3 ∧ 4400 ≤ s.power.volts) then
    let s := if st = 3 then startLight s else s
    pwrNow 4 1 s
  else if st = 3 then pwrNow 3 1 s
  else if st = 0 then pwrNow 0 2 s
  else s

/-- POWER_UP (R479): the input has reached 44 V and every rail is in regulation. An exit from deep park that waited for 50 V begins. -/
def powerUp (s : State) : State :=
  if s.power.switchOpen || s.power.pwrgd then s
  else
    let s := emit (.pin .pwrgd true) (modPower (fun p => { p with pwrgd := true, volts := Nat.max 4400 p.volts }) s)
    if getF s .pwrState F.pwrState_state = 3 ∧ getF s .pwrState F.pwrState_status = 1 then activeAsk s else s

/-- PARK_EXIT_COMPLETE: the dies are powered, their saved fields restored, and every die admits accesses. -/
def parkExited (s : State) : State :=
  if getF s .pwrState F.pwrState_state ≠ 4 then s
  else
    let s := { s with regs := s.power.saved ++ s.regs }
    let s := modPower (fun p => { p with saved := [], target := 0 }) s
    let s := freshCores ((List.range 16).flatMap (fun d => if regVal s (.cmpVecSeed d) = 0 then [] else coresOfDie d)) s
    let s := each (List.range 20) swlDieReady s
    pwrNow 0 2 (setActive (activeSrc s) s)

/-- A write of PWR_STATE. -/
def pwrStateWrite (val : Word) (s : State) : State :=
  match F.pwrState_request.of val with
  | 1 => activeAsk s
  | 2 => parkAsk false s
  | 3 => parkAsk true s
  | _ => s

/-! ### The commands -/

def execParkRequest (s : State) : Host.Outcome State Fault Refusal := .next (parkAsk false s)
def execDeepParkRequest (s : State) : Host.Outcome State Fault Refusal := .next (parkAsk true s)
def execActiveRequest (s : State) : Host.Outcome State Fault Refusal := .next (activeAsk s)
def execParkEntryComplete (s : State) : Host.Outcome State Fault Refusal := .next (parkEntered s)
def execPowerUp (s : State) : Host.Outcome State Fault Refusal := .next (powerUp s)
def execParkExitComplete (s : State) : Host.Outcome State Fault Refusal := .next (parkExited s)

end Sys2Proof.Machine
end

