-- ==== Sys2Proof/Machine/Views.lean ====
section
/-! DEFINITION. What a register of BAR0 reads: its own fields, and the fields that report state held elsewhere (Tables 1.11, 1.12, 3.18 to 3.23, 4.12, 4.15, 6.10, 7.12, 7.17, 8.12, 9.7,
10.10, 11.17 to 11.25, 12.5 to 12.9, 13.16 to 13.20, 14.15 to 14.25, 15.10, 15.18, 15.20, 15.23, 16.15, 18.12). -/

namespace Sys2Proof.Machine

/-- Codes of Table 3.3. -/
def RState.code : RState → Nat
  | .free => 0
  | .ready => 1
  | .waiting => 2
  | .halted => 3
  | .frozen => 4

/-- Codes of Table 11.11. -/
def LState.code : LState → Nat
  | .dark => 0
  | .lock => 1
  | .align => 2
  | .negotiate => 3
  | .identify => 4
  | .up => 5
  | .quarantine => 6

/-- Codes of Table 13.13. -/
def SState.code : SState → Nat
  | .reset => 0
  | .capability => 1
  | .laneTest => 2
  | .widthCheck => 3
  | .active => 4
  | .retrain => 5
  | .down => 6

/-- Codes of Table 11.23. -/
def ChState.code : ChState → Nat
  | .closed => 0
  | .opening => 1
  | .open => 2
  | .refused => 3

/-- Codes of Table 14.4. -/
def QState.code : QState → Nat
  | .absent => 0
  | .disabled => 1
  | .running => 2
  | .frozen => 3
  | .stopping => 4

/-- A list of numbers, each in a field of `w` bits, the first lowest. -/
def packed (w : Nat) (l : List Nat) : Nat := l.foldr (fun x a => x % 2 ^ w + a * 2 ^ w) 0

/-- A runner's wait cause (Table 3.5): that of its hold while Waiting, of its halt while Halted, otherwise 0. -/
def waitCause (r : Runner) : Nat :=
  match r.state with
  | .waiting => r.wait.elim 0 Wait.cause
  | .halted => r.cause
  | .free => 0
  | .ready => 0
  | .frozen => 0

/-- Links of a fibre that exist. -/
def linksOn (s : State) (f : Nat) : List Nat := (liveLinks s).filter (fun l => fibreOf l == f)

/-- A fibre's state (Table 11.17): 5 if any of its links is Up, otherwise the greatest. -/
def fibreState (s : State) (f : Nat) : Nat :=
  let l := (linksOn s f).map (fun x => (linkAt s x).state.code)
  if l.contains 5 then 5 else maxOf l

/-- Active transmit or receive nibs of a link, as a mask: none while it is not Up or in Quarantine or Identify. -/
def activeOf (s : State) (f : Nat) (g : Link → Nat) : Nat := ((linksOn s f).map (fun l => g (linkAt s l))).foldl (· ||| ·) 0

/-- The byte that codes a width and group in SWL_L_STATUS. -/
def swlFields (s : State) (x : Nat) : List (Fld × Nat) :=
  let k := endAt s x
  [(F.swlStatus_state, k.state.code), (F.swlStatus_version, k.version % 16), (F.swlStatus_rate, k.rate), (F.swlStatus_tx, k.tx),
   (F.swlStatus_rx, k.rx), (F.swlStatus_fallback, k.fallback.toNat), (F.swlStatus_peer_version, field k.cap 4 1)]

/-- The pending relays of an engine past their timeout. -/
def timedOut (g : Engine) : Nat := (g.slots.filter (·.2.timedOut)).length

/-- A pps of signed hundredths in 16 bits, 0x8000 for none. -/
def dbm (v : Option Int) : Nat := v.elim 0x8000 (fun i => wrap 16 i)

/-- A 64-bit word of a record in the ring window (R497): slot 0 to 1023 of the page, word 0 to 7. -/
def ringWord (s : State) (slot word : Nat) : Nat :=
  match s.blotter.ring.get? (getF s .errRingPage F.errRingPage_page * 1024 + slot) with
  | some r => field (recordBytes r) (8 * word) 8
  | none => 0

/-- A mailbox's words. -/
def mailView (b : Mailbox) : List (Fld × Nat) :=
  [(F.mbxInMeta_tag, b.tag.toNat), (F.mbxInMeta_sender, b.sender), (F.mbxInMeta_full, b.full.toNat),
   (F.mbxInMeta_collision, b.collision.toNat), (F.mbxInMeta_sender_reset, b.senderReset.toNat)]

/-- The throttle causes engaged in a die, as Table 15.23 orders them. -/
def rungCauses (s : State) (d : Nat) : Nat := maskOf ((List.range 4).filter (fun c => s.power.rungs.get (d * 4 + c) 0 != 0))

/-- Whether an emergency halt in force is done: every runner has stopped and no relay is pending (R415). -/
def haltDone (s : State) : Bool :=
  flag s .hifEmergencyHalt F.hifEmergencyHalt_active &&
  s.runners.all (fun p => p.2.state == .free || p.2.state == .halted || p.2.state == .frozen) &&
  s.relays.engines.all (fun g => g.2.slots.isEmpty && g.2.posts.isEmpty)

/-- The fields of a register that report state held elsewhere. -/
def overlay (s : State) : Reg → List (Fld × Nat)
  | .devStepping => [(F.devStepping_minor, s.sec.part.stepMinor), (F.devStepping_major, s.sec.part.stepMajor), (F.devStepping_rom_version, s.sec.part.rom)]
  | .devConfig => [(F.devConfig_variant, s.sec.part.variant), (F.devConfig_package_gib, if s.sec.part.variant = 0 then 48 else 24), (F.devConfig_slot, physSlot s)]
  | .cmpMemInterleave d =>
    (s.newMaps.get? d).elim [] (fun p => [(F.cmpMemInterleave_granule, F.cmpMemInterleave_granule.of p.2),
      (F.cmpMemInterleave_pinned_channels, F.cmpMemInterleave_pinned_channels.of p.2)])
  | .cmpCoreStatus k =>
    [(F.cmpCoreStatus_state, packed 3 ((runnersOf k).map (fun w => (runnerAt s w).state.code))),
     (F.cmpCoreStatus_array_busy, (!(arrayOps s k).isEmpty).toNat), (F.cmpCoreStatus_step_done, (coreAt s k).stepDone.toNat)]
  | .cmpCoreWait k => [(F.cmpCoreWait_cause, packed 4 ((runnersOf k).map (fun w => waitCause (runnerAt s w))))]
  | .cmpCoreCtl k => [(F.cmpCoreCtl_halt, maskOf ((List.range 16).filter (fun i => (runnerAt s (k * 16 + i)).state == .halted)))]
  | .cmpCoreDbgData k => [(F.cmpCoreDbgData_value, (dbgRead s k).toNat)]
  | .cmpCoreMtx k =>
    let t0 := tileCtl s k 0
    let t1 := tileCtl s k 1
    [(F.cmpCoreMtx_interval, (coreAt s k).interval), (F.cmpCoreMtx_t0_class, t0.integer.toNat), (F.cmpCoreMtx_t1_class, t1.integer.toNat),
     (F.cmpCoreMtx_t0_pending, t0.pending), (F.cmpCoreMtx_t1_pending, t1.pending), (F.cmpCoreMtx_queued, (coreAt s k).array.length)]
  | .cmpCoreMtxScale k t => [(F.cmpCoreMtxScale_scale_a, (tileCtl s k t).sa.toNat), (F.cmpCoreMtxScale_scale_b, (tileCtl s k t).sb.toNat)]
  | .lapCensusCount => [(F.lapCensusCount_installed, s.census.slots.length)]
  | .lapStatus =>
    [(F.lapStatus_state, s.lap.state), (F.lapStatus_spec, s.lap.spec.isSome.toNat), (F.lapStatus_cast, (s.lap.older.any (·.cast.isSome)).toNat),
     (F.lapStatus_flags_old, s.lap.older.elim 0 (·.flags)), (F.lapStatus_flags_new, s.lap.spec.elim 0 (·.flags)), (F.lapStatus_open_lap, s.lap.newest)]
  | .lapFirstFault => [(F.lapFirstFault_addr, s.lap.older.elim 0 (·.fault))]
  | .colStatus e =>
    let g := engineAt s e
    [(F.colStatus_busy, g.slots.length), (F.colStatus_waiting, g.posts.length), (F.colStatus_timed_out, timedOut g)]
  | .cmpHeatStatus d =>
    [(F.cmpHeatStatus_posted, s.heat.entries.length),
     (F.cmpHeatStatus_assigned, (s.heat.entries.filter (fun e => e.2.assigned.any (·.1 == d) && !e.2.reported.contains d)).length),
     (F.cmpHeatStatus_waiting, s.heat.posts.length)]
  | .memDieStatus d =>
    [(F.memDieStatus_ppr_pending, Nat.min 255 (s.memp.marked.filter (fun r => match r with
        | .dram x _ _ _ => x == d
        | .sram .. => false)).length),
     (F.memDieStatus_poisoned, (s.memp.poison.get d []).length)]
  | .opxFibreStatus f =>
    let k := linkAt s (namedLink s f)
    let on := linksOn s f
    [(F.opxFibreStatus_state, fibreState s f), (F.opxFibreStatus_fec, k.shortFec.toNat),
     (F.opxFibreStatus_frozen_in, (on.any (fun l => (linkAt s l).frozenIn)).toNat), (F.opxFibreStatus_frozen_out, (on.any (fun l => (linkAt s l).frozenOut)).toNat),
     (F.opxFibreStatus_held, (s.fabric.held.contains f || s.fabric.peerHeld.contains f).toNat), (F.opxFibreStatus_paused_out, k.paused / 2),
     (F.opxFibreStatus_reason, k.reason), (F.opxFibreStatus_swap_partner, if k.reason = 3 then k.swap else 255),
     (F.opxFibreStatus_false_starts, Nat.min 65535 (s.fabric.falseStarts.get f 0)), (F.opxFibreStatus_level_run, k.minor)]
  | .opxFibreNibMap f =>
    [(F.opxFibreNibMap_tx_on, maskOf (((nibsOf s f).filter (·.tx != 255)).map (·.pos))), (F.opxFibreNibMap_rx_on, maskOf (((nibsOf s f).filter (·.rx != 255)).map (·.pos))),
     (F.opxFibreNibMap_tx_active, activeOf s f (·.txActive)), (F.opxFibreNibMap_rx_active, activeOf s f (·.rxActive))]
  | .opxFibrePeer f =>
    match (linkAt s (namedLink s f)).peer with
    | some p => [(F.opxFibrePeer_coord, p.coord), (F.opxFibrePeer_phys_slot, p.phys), (F.opxFibrePeer_port, p.port), (F.opxFibrePeer_fibre, p.fibre),
        (F.opxFibrePeer_level, p.level), (F.opxFibrePeer_valid, 1)]
    | none => []
  | .opxFibrePeerSerial f => [(F.opxFibrePeerSerial_serial, (linkAt s (namedLink s f)).peer.elim 0 (·.serial.toNat))]
  | .opxChanStatus e c =>
    let ch := chanAt s e c
    let up := (chanLinks s e c).filter (linkLive s)
    let nibs (g : Link → Nat) := sumOf (up.map (fun l => weight 16 (g (linkAt s l))))
    [(F.opxChanStatus_state, ch.state.code), (F.opxChanStatus_frozen_in, (up.any (fun l => (linkAt s l).frozenIn)).toNat),
     (F.opxChanStatus_frozen_out, (up.any (fun l => (linkAt s l).frozenOut)).toNat), (F.opxChanStatus_tx_nibs, nibs (·.txActive)),
     (F.opxChanStatus_rx_nibs, nibs (·.rxActive)), (F.opxChanStatus_unacked, unacked ch)]
  | .lgtCombStatus =>
    [(F.lgtCombStatus_a_state, sourceState s 0), (F.lgtCombStatus_b_state, sourceState s 1), (F.lgtCombStatus_busy, s.light.change.busy.toNat),
     (F.lgtCombStatus_a_p0, (sourceAt s 0).p0.toNat), (F.lgtCombStatus_b_p0, (sourceAt s 1).p0.toNat),
     (F.lgtCombStatus_a_faded, (sourceAt s 0).faded.toNat), (F.lgtCombStatus_b_faded, (sourceAt s 1).faded.toNat)]
  | .lgtMon e c w =>
    let l := lineAt s e c w
    [(F.lgtMon_power, dbm l.mean), (F.lgtMon_p0, dbm l.p0), (F.lgtMon_slope, wrap 8 (slopeField l)), (F.lgtMon_level, l.level),
     (F.lgtMon_in_use, (lineInUse s e w).toNat)]
  | .lgtFibreStatus f =>
    [(F.lgtFibreStatus_held, (s.light.change.fibre.any (fun p => p.1 == f)).toNat), (F.lgtFibreStatus_tx_locked, s.light.txLocked.get f 0),
     (F.lgtFibreStatus_rx_locked, s.light.rxLocked.get f 0)]
  | .swlStatus x => swlFields s x
  | .swlRxExcl x => [(F.swlRxExcl_lanes, (endAt s x).excl.toNat)]
  | .swlPeerCap x i => [(F.swlPeerCap_bytes, field (endAt s x).cap (8 * i) 8)]
  | .hifLinkStatus =>
    if getF s .pwrState F.pwrState_state = 3 then [(F.hifLinkStatus_cache, 0), (F.hifLinkStatus_mem, 0), (F.hifLinkStatus_degraded, 1)] else []
  | .hifEmergencyHalt => [(F.hifEmergencyHalt_done, (haltDone s).toNat)]
  | .hifQCtl q =>
    let r := queueAt s q
    [(F.hifQCtl_state, r.state.code), (F.hifQCtl_privileged, r.priv.toNat), (F.hifQCtl_freeze_code, r.freezeCode), (F.hifQCtl_freeze_index, r.freezeIndex)]
  | .hifQStatus q =>
    let r := queueAt s q
    [(F.hifQStatus_sq_head, r.sqHead), (F.hifQStatus_sq_tail, r.sqTail), (F.hifQStatus_cq_tail, r.cqTail), (F.hifQStatus_phase, r.phase.toNat),
     (F.hifQStatus_in_flight, inFlight s q)]
  | .mbxInPtr p => [(F.mbxInPtr_ptr, (s.host.mbx.chan.get (p * 32) Mailbox.empty).ptr.toNat)]
  | .mbxInMeta p => mailView (s.host.mbx.chan.get (p * 32) Mailbox.empty)
  | .mbxInLegacyPtr => [(F.mbxInPtr_ptr, (s.host.mbx.legacy.get 0 Mailbox.empty).ptr.toNat)]
  | .mbxInLegacyMeta => mailView (s.host.mbx.legacy.get 0 Mailbox.empty)
  | .mbxDoorbell => [(F.mbxDoorbell_bits, (s.host.mbx.bells.get 0 0).toNat)]
  | .mbxDbMask => [(F.mbxDbMask_mask, (s.host.mbx.masks.get 0 0xFFFFFFFF).toNat)]
  | .mbxOutState p => [(F.mbxOutState_state, (s.host.mbx.sent.get p SendState.none).state)]
  | .mbxLegacyOutState p => [(F.mbxOutState_state, (s.host.mbx.sentLegacy.get p SendState.none).state)]
  | .timNow => [(F.timNow_ns, s.clock.ns)]
  | .pwrResetCtl => [(F.pwrResetCtl_in_reset, maskOf ((List.range 20).filter (inReset s)))]
  | .pwrInput => [(F.pwrInput_volts, s.power.volts)]
  | .pwrDieThrottle d =>
    [(F.pwrDieThrottle_rung, if d < 16 then rungOf s d else 0), (F.pwrDieThrottle_cause, rungCauses s d),
     (F.pwrDieThrottle_tripped, (s.power.tripped.contains d).toNat)]
  | .secSvn => [(F.secSvn_fused, s.sec.svn)]
  | .errRingWindow slot word => [(F.errRingWindow_record, ringWord s slot word)]
  | _ => []

/-- What a register holds as a read shows it; WO fields read 0 (Table 0.3). -/
def viewReg (s : State) (r : Reg) : Word :=
  let w := (overlay s r).foldl (fun w p => p.1.into w p.2) (regVal s r)
  (r.fields.filter (·.acc == .wo)).foldl (fun w f => f.into w 0) w

/-- LED_STATUS_N and LED_FAULT_N (R488, Table 17.9): the first row that applies. A module between power states shows Ready (DEDUCED, assumption 96). -/
def indicators (s : State) : Lamp × Lamp :=
  let stage := getF s .secBootStatus F.secBootStatus_stage
  let st := getF s .pwrState F.pwrState_state
  if stage = 7 then (.off, .blink)
  else
    (if stage < 6 then .blink else if st = 2 ∨ st = 3 then .slowBlink else .on,
      if !s.power.tripped.isEmpty || (List.range 20).any (fun d => inReset s d && mustStay s d) then .on else .off)

/-- The level of an output pin (Table 17.8, R348, R420, R429, R436, R479), true for high. The `pin` entries of `out` are the edges that commands make. -/
def pinLevel (s : State) : Pin → Bool
  | .pwrgd => s.power.pwrgd
  | .thermtripN => s.power.tripped.isEmpty
  | .ppsOut => flag s .timCtl F.timCtl_pps_out && s.clock.ppsNamed.any (fun t => decide (s.clock.ns < t + 10 ^ 8))
  | .tenM => flag s .timCtl F.timCtl_tenm_out && decide (s.clock.ns % 100 < 50)
  | .alertN => s.sec.dynAddr.isSome || (s.host.mbx.bells.get 1 0 &&& ~~~(s.host.mbx.masks.get 1 0xFFFFFFFF)) == 0
  | .csmEn c => (sourceAt s c).en

/-- The characters of n hex digits of a value (R6), most significant first, with an underscore every four digits counted from the least significant. -/
def hexGrouped (n v : Nat) : List Char :=
  (List.range n).reverse.flatMap (fun i => (if i % 4 = 3 ∧ i + 1 < n then ['_'] else []) ++ ["0123456789ABCDEF".toList.getD (v / 16 ^ i % 16) '0'])

/-- Two decimal digits. -/
def twoDigits (n : Nat) : List Char := [Char.ofNat (48 + n / 10 % 10), Char.ofNat (48 + n % 10)]

/-- The Data Matrix symbol of the label (R490): part number, serial, stepping and date code of assembly, which the label alone holds. -/
def labelSymbol (s : State) (year week : Nat) : List Char :=
  let p := s.sec.part
  (if p.variant = 0 then "ZK2416-GA" else "ZK2416-GB").toList ++ ['|'] ++ hexGrouped 16 p.serial.toNat ++ ['|'] ++
    [Char.ofNat (65 + p.stepMajor), Char.ofNat (48 + p.stepMinor)] ++ ['|'] ++ twoDigits year ++ twoDigits week

/-- All ones in a register (R40). -/
def allOnes (r : Reg) : Word := if r.wide then BitVec.allOnes 64 else 0xFFFFFFFF

end Sys2Proof.Machine
end

