-- ==== Sys2Proof/Machine/Image.lean ====
section
/-! DEFINITION. Firmware images: the checks of R455, and what they measure (R454, R455, R465, Table 16.8). -/

namespace Sys2Proof.Machine

/-- Bytes of a 384-bit digest, as SHA-384 writes them: its most significant byte first. -/
def digestBytes (d : BitVec 384) : List Byte := (bytesLE 48 d.toNat).reverse

/-- Bytes of a seed, its most significant byte first. -/
def seedBytes (d : BitVec 256) : List Byte := (bytesLE 32 d.toNat).reverse

/-- SHA-384 of bytes, as bytes. -/
def hashBytes (bs : List Byte) : List Byte := digestBytes (Config.sha384 bs)

/-- A part of a list of bytes. -/
def part (bs : List Byte) (o n : Nat) : List Byte := (bs.drop o).take n

/-- A section of an image (Table 16.2): type, offset, length, and the hash its entry holds. -/
structure Sect where
  type : Nat
  off : Nat
  len : Nat
  hash : List Byte
  deriving DecidableEq, Repr

/-- The section entries of an image's table, used or not. -/
def tableEntries (im : List Byte) : List (List Byte) := (List.range 8).map (fun i => part im (0x40 + 64 * i) 64)

/-- An entry as a section. -/
def sectOf (e : List Byte) : Sect := ⟨field e 0 1, field e 8 4, field e 12 4, e.drop 16⟩

/-- The sections of an image, in table order: the entries that its count takes in. -/
def sectionsOf (im : List Byte) : List Sect := ((tableEntries im).take (field im 6 2)).map sectOf

/-- The bytes of a section. -/
def sectBytes (im : List Byte) (x : Sect) : List Byte := part im x.off x.len

/-- Whether a used entry is well formed: a type of Table 16.3, reserved bytes 0, aligned and inside the image. -/
def sectGood (n : Nat) (e : List Byte) : Bool :=
  let x := sectOf e
  decide (1 ≤ x.type ∧ x.type ≤ 5) && field e 1 7 == 0 && x.off % 4096 == 0 && decide (0x2000 ≤ x.off) && decide (x.off + x.len ≤ n)

/-- Whether no two sections overlap. -/
def apart : List Sect → Bool
  | [] => true
  | x :: xs => xs.all (fun y => !overlap x.off x.len y.off y.len) && apart xs

/-- Check 1 of R455. An entry past the count is unused: all its bytes are 0; the image may be padded to a whole page (DEDUCED, assumption 70). -/
def shapeGood (im : List Byte) : Bool :=
  let n := field im 6 2
  let total := field im 16 8
  let used := (tableEntries im).take n
  field im 0 4 == 0x46574B5A && field im 4 2 == 1 && decide (1 ≤ n ∧ n ≤ 8) && decide (field im 8 4 ≤ 64) && decide (total ≤ im.length ∧ im.length < total + 4096) &&
  decide (0x2000 ≤ total ∧ total ≤ 0x80_0000) && field im 0x18 40 == 0 && field im 0x172D (0x2000 - 0x172D) == 0 &&
  used.all (sectGood total) && ((tableEntries im).drop n).all (fun e => field e 0 64 == 0) && apart (used.map sectOf) &&
  ([1, 2, 3, 4, 5] : List Nat).all (fun t => (used.filter (fun e => field e 0 1 == t)).length == 1)

/-- The fused key hash that an image's public keys match, of those not revoked (check 2). -/
def keyOf (s : State) (im : List Byte) : Option Nat :=
  (List.range 4).find? (fun i => !s.sec.revoked.contains i && Config.keyHash i == Config.sha384 (part im 0x240 (32 + 1952)))

/-- Check 3: both signatures over the signed message. -/
def signed (im : List Byte) : Bool :=
  let msg := part im 0 0xA00
  Config.ed25519Verifies (part im 0x240 32) msg (part im 0xA00 64) && Config.mldsaVerifies (part im 0x260 1952) msg (part im 0xA40 3309)

/-- Check 5: every section's hash. -/
def hashesGood (im : List Byte) : Bool := (sectionsOf im).all (fun x => hashBytes (sectBytes im x) == x.hash)

/-- The svn and the version of an image. -/
def imageSvn (im : List Byte) : Nat := field im 8 4
def imageVersion (im : List Byte) : Nat := field im 12 4

/-- The error of the first check of R455 that an image fails. -/
def imageFault (s : State) (im : List Byte) : Option Nat :=
  if !shapeGood im || (keyOf s im).isNone || !signed im then some 0x0D01
  else if imageSvn im < s.sec.svn then some 0x0D02
  else if !hashesGood im then some 0x0D01
  else none

/-- The hash of an image's section of a type. -/
def hashOfType (im : List Byte) (t : Nat) : List Byte := ((sectionsOf im).find? (·.type == t)).elim [] (·.hash)

/-- The debug state as it is measured and enters CDI0 (R465, Table 16.8): unlocked, the scope, and the serial of the token, which is the module's. -/
def debugState (s : State) : List Byte :=
  let r := Reg.secDebugStatus
  if flag s r F.secDebugStatus_unlocked then bytesLE 1 1 ++ bytesLE 1 (getF s r F.secDebugStatus_scope) ++ bytesLE 8 s.sec.part.serial.toNat
  else bytesLE 10 0

/-- The measurements of Table 16.8 at indices 1 to 8, followed by the hashes of the sections other than the first stage in table order (R465 step 4). -/
def measure (s : State) (im : List Byte) : List (List Byte) :=
  let revoked := maskOf s.sec.revoked
  [bytesLE 1 s.sec.part.rom ++ digestBytes (Config.keyHash ((keyOf s im).getD 0))] ++
    [1, 2, 3, 4, 5].map (hashOfType im) ++
    [bytesLE 1 s.sec.svn ++ bytesLE 1 (imageSvn im) ++ bytesLE 1 revoked, debugState s] ++
    [((sectionsOf im).filter (·.type != 1)).flatMap (·.hash)]

end Sys2Proof.Machine
end

