-- ==== Sys2Proof/Machine/Boot.lean ====
section
/-! DEFINITION. Boot, recovery, firmware updates, the SVN, debug tokens, and the control processors' watchdogs (R453 to R464, R469, R470). -/

namespace Sys2Proof.Machine

/-- The security state changed. -/
def modSec (f : Sec → Sec) (s : State) : State := { s with sec := f s.sec }

/-- The boot stage (Table 16.4); 7 is the recovery loader. -/
def stage (s : State) : Nat := getF s .secBootStatus F.secBootStatus_stage
def inRecovery (s : State) : Bool := stage s == 7

/-! ### Boot (R289, R304, R456 to R459, R463, R470) -/

/-- The debug state at a boot: a token armed before a module warm reset unlocks within its scope (R470). The nonce takes a new random value. -/
def debugBoot (s : State) : State :=
  let r := Reg.secDebugStatus
  let s := if flag s r F.secDebugStatus_armed then setF (setF s r F.secDebugStatus_armed 0) r F.secDebugStatus_unlocked 1
    else setF s r F.secDebugStatus_unlocked 0
  freeTaken (setReg s .secDebugNonce (freeOf s))

/-- The recovery loader starts (R463): every die but ED0 is held in reset. -/
def enterRecovery (s : State) : State :=
  let s := { s with power := { s.power with resets := ((List.range 20).filter (· != 16)).map (fun d => (d, ⟨8, true⟩)) } }
  note 0x0D05 (setF (modSec (fun x => { x with running := [], measured := [] }) s) .secBootStatus F.secBootStatus_stage 7)

/-- A die's LPDDR6 is trained, once after a cold reset; a die whose channels fail to train is held in reset (R289). -/
def train (d mask : Nat) (s : State) : State :=
  if (s.memp.trained.get? d).isSome || inReset s d then s
  else
    let s := modMem (fun m => { m with trained := m.trained.set d (mask % 2 ^ 32 == 0) }) s
    if mask % 2 ^ 32 = 0 then s
    else
    let s := each (bitsOf 32 mask) (fun c s => raise { code := 0x0408, cont := contD, die := d, mkind := 7, detail := c } s) s
    dieWarmReset d 8 true (setF s (.memDieStatus d) F.memDieStatus_failed_channels mask)

/-- A boot from a valid image. Dies that a trip or the loss of both references holds, and those that failed to train, stay in reset. Boot's length is not modelled: boot_ms is a free value (assumption 71). -/
def bootImage (warm : Bool) (fails : List (Nat × Nat)) (im : List Byte) (s : State) : State :=
  let v := imageVersion im
  let lost (d : Nat) : Option Nat := if s.power.tripped.contains d then some 5 else if s.power.noRef.contains d then some 4 else if s.memp.trained.get? d = some false then some 8 else none
  let s := { s with power := { s.power with resets := s.power.resets.filterMap (fun p => (lost p.1).map (fun c => (p.1, ⟨c, true⟩))) } }
  let s := modSec (fun x => { x with running := im, measured := measure s im, loading := false }) s
  let s := setReg s .secFwVersion (BitVec.ofNat 64 (v + v * 2 ^ 32))
  let s := setF s .secSvn F.secSvn_image (imageSvn im)
  let s := if warm then s else each s.memp.marked repairRow s
  let s := each (List.range 16) (fun d s => if inReset s d then s else setF s (.memDieStatus d) F.memDieStatus_trained 1) s
  let s := each (List.range 20) (fun d s => if inReset s d then s else swlDieReady d s) s
  let s := if warm then setActive (activeSrc s) s else startLight s
  let r := Reg.secBootStatus
  let s := setF (setF (setF s r F.secBootStatus_stage 6) r F.secBootStatus_warm warm.toNat) r F.secBootStatus_boot_ms (freeOf s).toNat
  let s := freeTaken s
  each (List.range 16) (fun d s => train d (((fails.find? (·.1 == d)).map (·.2)).getD 0) s) s

/-- BOOT (R456): the ROM checks the slot, and boot reaches ready, or recovery. It waits for PWRGD (R479). It follows a cold reset, or a module warm reset whose cause has cleared.
Straps of 18 to 31 are recorded at a cold boot (R487). -/
def bootUp (fails : List (Nat × Nat)) (s : State) : State :=
  let warm := (s.power.resets.get? 16).isSome
  if stage s ≠ 0 ∨ (s.power.resets.get? 16).any (·.held) ∨ !s.power.pwrgd then s
  else
    let s := if s.power.ovAtBoot then note 0x0C0A (modPower (fun p => { p with ovAtBoot := false, ovAt := some (nowNs s) }) s) else s
    let s := if !warm && decide (18 ≤ s.power.slotId) then note 0x0C0C s else s
    let s := debugBoot s
    let s := { s with power := { s.power with resets := s.power.resets.del 16 } }
    let force := flag s .secFwCtl F.secFwCtl_force_recovery
    let s := setF s .secFwCtl F.secFwCtl_force_recovery 0
    match imageFault s s.sec.slot with
    | some code => enterRecovery (reject code s)
    | none => if force && warm then enterRecovery s else bootImage warm fails s.sec.slot s

/-- PROCESSOR_START_TIMEOUT (R458): retried once, then the die is held in reset. ED0's processor runs the ROM. -/
def startTimeout (d : Nat) (s : State) : State :=
  if 20 ≤ d ∨ d = 16 ∨ inRecovery s then s
  else if !s.sec.retried.contains d then modSec (fun x => { x with retried := d :: x.retried }) s
  else
    let f := F.secBootStatus_die_fail
    let s := setF s .secBootStatus f (getF s .secBootStatus f ||| 2 ^ d)
    dieWarmReset d 7 true (raise { code := 0x0D06, cont := contD, die := d, mkind := 8 } s)

/-- WATCHDOG_EXPIRY (R460). -/
def watchdog (d : Nat) (s : State) : State :=
  if 20 ≤ d then s
  else
    let f := F.secWdogStatus_fired
    let s := setF s .secWdogStatus f (getF s .secWdogStatus f ||| 2 ^ d)
    dieWarmReset d 3 false (raise { code := 0x0D10, cont := if d = 16 then contM else contD, die := d, mkind := 8 } s)

/-! ### Updates (R461, R462) -/

/-- The status of the update, and of the recovery loader while it runs. -/
def fwStatus (v : Nat) (s : State) : State :=
  if inRecovery s then setF s .secRecoveryCtl F.secRecoveryCtl_status v else setF s .secFwCtl F.secFwCtl_status v

/-- Whether an update runs: copying, checking or writing. -/
def updating (s : State) : Bool :=
  let v := if inRecovery s then getF s .secRecoveryCtl F.secRecoveryCtl_status else getF s .secFwCtl F.secFwCtl_status
  decide (1 ≤ v ∧ v ≤ 3)

/-- The image in the staging buffer. -/
def staged (s : State) : List Byte := Mem.read s.sec.staging 0 s.sec.stageLen

/-- The staged image is checked; if it is good the slot is erased and its writing begins (R461 steps 2 and 3). -/
def checkStaged (s : State) : State :=
  match imageFault s (staged s) with
  | some code => reject code (fwStatus 5 s)
  | none => modSec (fun x => { x with slot := [] }) (fwStatus 3 s)

/-- An image is put into the staging buffer. -/
def stageImage (im : List Byte) (s : State) : State := modSec (fun x => { x with staging := Mem.cells 0 im, stageLen := im.length }) s

/-- A go to SEC_FW_CTL: the image is copied from its address, whatever windows say. Memory that refuses the read leaves no image (assumption 72). -/
def updateGo (pages : Nat) (s : State) : State :=
  let a := getF s .secFwStageAddr F.secFwStageAddr_addr * 4096
  let n := pages * 4096
  if updating s then reject 0x0D03 s
  else
    let s := setF s .secFwCtl F.secFwCtl_owner 0
    if pages < 3 ∨ 2048 < pages ∨ !mapped s a n then reject 0x0D01 (fwStatus 5 s)
    else
      let s := readChecked 16 [(a, n)] [] s
      if (memoryRefuses s 16 [(a, n)] []).isSome then contain (reject 0x0D01 (fwStatus 5 s))
      else checkStaged (stageImage (Mem.read s.mem a n) s)

/-- A write of SEC_FW_CTL: its RW fields take their values, and a go starts an update unless one runs. In the recovery loader no update starts this way (R464). -/
def fwCtlWrite (v : Word) (s : State) : State :=
  let r := Reg.secFwCtl
  let pages := F.secFwCtl_length_pages.of v
  let s := setF (setF s r F.secFwCtl_force_recovery (F.secFwCtl_force_recovery.of v)) r F.secFwCtl_length_pages pages
  if F.secFwCtl_go.of v = 0 ∨ (inRecovery s ∧ !updating s) then s else updateGo pages s

/-- FIRMWARE_UPDATE_COMPLETE: the slot has been written and read back (R461 steps 4 and 5, R464). `good` is whether the hashes match. -/
def updateDone (good : Bool) (s : State) : State :=
  let v := if inRecovery s then getF s .secRecoveryCtl F.secRecoveryCtl_status else getF s .secFwCtl F.secFwCtl_status
  if v ≠ 3 then s
  else if !good then raise { code := 0x0D04, cont := contE } (fwStatus 6 s)
  else
    let im := staged s
    let s := modSec (fun x => { x with slot := im }) s
    let s := setF s .secFwVersion F.secFwVersion_nor_version (imageVersion im)
    if inRecovery s then moduleWarmReset 7 false (fwStatus 4 s) else fwStatus 4 s

/-- What PLDM firmware update says of the one component it presents (R472): classification firmware and activation by a medium-specific reset as DSP0267 numbers them (PRESUMED, assumption 73). -/
structure Component where
  ident : Nat
  classification : Nat
  activation : Nat
  deriving DecidableEq, Repr

def updateComponent : Component := ⟨0x2416, 0x000A, 4⟩

/-- REQUEST_UPDATE (R462, R472): a PLDM update, its image whole. The completion code of a refusal is DSP0267's ALREADY_IN_UPDATE_MODE (PRESUMED, assumption 73). -/
def requestUpdate (im : List Byte) (s : State) : State :=
  if updating s then emit (.mctp 0x01 [0x81]) (reject 0x0D03 s)
  else
    let s := if inRecovery s then s else setF s .secFwCtl F.secFwCtl_owner 1
    emit (.mctp 0x01 [0x00]) (checkStaged (stageImage im s))

/-! ### The recovery loader (R463, R464) -/

/-- Bytes of the recovery window. -/
def windowBytes : Nat := 0x4_0000

/-- A write of SEC_RECOVERY_CTL: ignored outside recovery; load, then commit. While an image is checked or written a load has no effect, and a commit is refused as an update would
be (DEDUCED from R462, assumption 84). -/
def recoveryWrite (v : Word) (s : State) : State :=
  let r := Reg.secRecoveryCtl
  if !inRecovery s then s
  else
    let chunk := F.secRecoveryCtl_chunk.of v
    let pages := F.secRecoveryCtl_length_pages.of v
    let s := setF (setF s r F.secRecoveryCtl_chunk chunk) r F.secRecoveryCtl_length_pages pages
    let commit := F.secRecoveryCtl_commit.of v = 1
    if updating s then (if commit then reject 0x0D03 s else s)
    else
      let s := if F.secRecoveryCtl_load.of v = 1 then
          modSec (fun x => { x with staging := Mem.write x.staging (chunk * windowBytes) (Mem.read x.window 0 windowBytes) }) s
        else s
      if !commit then s
      else if pages < 3 ∨ 2048 < pages then reject 0x0D01 (fwStatus 5 s)
      else checkStaged (modSec (fun x => { x with stageLen := pages * 4096 }) s)

/-- Bytes written into the recovery window. -/
def windowWrite (o : Nat) (bs : List Byte) (s : State) : State :=
  if inRecovery s then modSec (fun x => { x with window := Mem.write x.window o bs }) s else s

/-! ### The SVN and debug tokens (Table 16.15, R470) -/

/-- A write of SEC_SVN. -/
def svnWrite (v : Word) (s : State) : State :=
  let im := getF s .secSvn F.secSvn_image
  if F.secSvn_advance.of v = 0 then s
  else if im ≤ s.sec.svn then reject 0x0D07 s
  else modSec (fun x => { x with svn := im }) s

/-- Whether a token is accepted (R469, R470). Its magic, version and reserved bytes are checked with the rest (DEDUCED, assumption 74). -/
def tokenGood (s : State) (t : List Byte) : Bool :=
  let msg := part t 0 0x7E0
  field t 0 4 == 0x544B4B5A && field t 4 2 == 1 && field t 6 2 == 0 && field t 8 8 == s.sec.part.serial.toNat &&
  field t 16 8 == (regVal s .secDebugNonce).toNat && field t 24 1 != 0 && decide (field t 24 1 < 4) && field t 25 7 == 0 &&
  Config.sha384 (part t 0x20 (32 + 1952)) == Config.debugHash &&
  Config.ed25519Verifies (part t 0x20 32) msg (part t 0x7E0 64) && Config.mldsaVerifies (part t 0x40 1952) msg (part t 0x820 3309)

/-- A write of SEC_DEBUG_TOKEN. A token that memory does not give is refused. -/
def tokenWrite (v : Word) (s : State) : State :=
  let r := Reg.secDebugStatus
  let a := F.secDebugToken_addr.of v
  let s := setF s .secDebugToken F.secDebugToken_addr a
  if F.secDebugToken_go.of v = 0 then s
  else
    let n := 5389
    let s := readChecked 16 [(a * 4096, n)] [] s
    let t := Mem.read s.mem (a * 4096) n
    let ok := mapped s (a * 4096) n && (memoryRefuses s 16 [(a * 4096, n)] []).isNone && tokenGood s t
    let s := if ok then note 0x0D09 (setF (setF s r F.secDebugStatus_armed 1) r F.secDebugStatus_scope (field t 24 1))
      else reject 0x0D08 (bumpF s r F.secDebugStatus_refused 1)
    contain (freeTaken (setReg s .secDebugNonce (freeOf s)))

/-! ### The commands -/

def execBoot (fails : List (Nat × Nat)) (s : State) : Host.Outcome State Fault Refusal := .next (bootUp fails s)
def execProcessorStartTimeout (d : Nat) (s : State) : Host.Outcome State Fault Refusal := .next (startTimeout d s)
def execWatchdogExpiry (d : Nat) (s : State) : Host.Outcome State Fault Refusal := .next (watchdog d s)
def execFirmwareUpdate (val : BitVec 32) (s : State) : Host.Outcome State Fault Refusal := .next (regWrite .secFwCtl (fwCtlWrite (val.setWidth 64)) s)
def execFirmwareUpdateComplete (good : Bool) (s : State) : Host.Outcome State Fault Refusal := .next (updateDone good s)
def execRequestUpdate (image : List (BitVec 8)) (s : State) : Host.Outcome State Fault Refusal := .next (requestUpdate image s)
def execRecoveryLoad (val : BitVec 32) (s : State) : Host.Outcome State Fault Refusal := .next (regWrite .secRecoveryCtl (recoveryWrite (val.setWidth 64)) s)
def execRecoveryCommit (val : BitVec 32) (s : State) : Host.Outcome State Fault Refusal := .next (regWrite .secRecoveryCtl (recoveryWrite (val.setWidth 64)) s)
def execSvnAdvance (val : BitVec 32) (s : State) : Host.Outcome State Fault Refusal := .next (regWrite .secSvn (svnWrite (val.setWidth 64)) s)
def execDebugTokenPresent (val : BitVec 64) (s : State) : Host.Outcome State Fault Refusal := .next (regWrite .secDebugToken (tokenWrite val) s)

end Sys2Proof.Machine
end

