-- ==== Sys2Proof/Machine/Attest.lean ====
section
/-! DEFINITION. Identity and attestation: DICE keys, certificate chains, and the SPDM responder (R465 to R468). Message codes, flags and the layout of payloads are DSP0274's (PRESUMED, assumption 79). -/

namespace Sys2Proof.Machine

/-! ### Identity (R465, R466) -/

/-- The bytes of a text. -/
def textBytes (t : String) : List Byte := t.toList.map (fun c => BitVec.ofNat 8 c.toNat)

/-- The seed of a scheme's DeviceID key, from the device secret alone: 0 Ed25519, 1 ML-DSA-65. It never changes. -/
def deviceSeed (scheme : Nat) : BitVec 256 :=
  Config.hkdf384 (seedBytes Config.deviceSecret) (textBytes (if scheme = 0 then "DEVID-ED25519" else "DEVID-MLDSA65"))

/-- CDI1, from the measurements of the boot: CDI0 of the first stage, the fused SVN and the debug state; then the other sections' hashes. -/
def cdi1 (s : State) : List Byte :=
  let m (i : Nat) : List Byte := s.sec.measured.getD i []
  let cdi0 := digestBytes (Config.hmac384 (seedBytes Config.deviceSecret) (m 1 ++ (m 6).take 1 ++ m 7))
  digestBytes (Config.hmac384 cdi0 (m 8))

/-- The seed of a scheme's Alias key: 0 Ed25519, 1 ML-DSA-65. -/
def aliasSeed (s : State) (scheme : Nat) : BitVec 256 :=
  Config.hkdf384 (cdi1 s) (textBytes (if scheme = 0 then "ALIAS-ED25519" else "ALIAS-MLDSA65"))

/-- The measurements of Table 16.8. -/
def measurements (s : State) : List (List Byte) := s.sec.measured.take 8

/-- The certificates of a chain that the module holds: what the NOR holds, then the Alias certificate, issued by the DeviceID key, with every measurement (Table 16.6). -/
def chainBytes (s : State) (scheme : Nat) : List Byte :=
  Config.storedCerts scheme ++ Config.aliasCert scheme (deviceSeed scheme) (aliasSeed s scheme) (measurements s).flatten

/-- Whether a boot has given the module an identity: none before boot and in recovery. -/
def hasIdentity (s : State) : Bool := !s.sec.measured.isEmpty

/-! ### SPDM (R467, R468) -/

/-- A transport's connection takes a stage. -/
def connect (tr n : Nat) (s : State) : State := modSec (fun x => { x with spdm := x.spdm.set tr n }) s

/-- The stage of a transport's connection. -/
def stageOf (s : State) (tr : Nat) : Nat := s.sec.spdm.get tr 0

/-- An ERROR response. -/
def spdmError (tr code : Nat) (s : State) : State := emit (.spdm tr 0x7F (bytesLE 1 code)) s

/-- A request that needs a connection stage, and answers out of order with UnexpectedRequest. Transports: 0 DOE, 1 MCTP. -/
def inOrder (tr : Nat) (ok : Bool) (f : State → State) (s : State) : State :=
  if 2 ≤ tr then s else if ok then f s else spdmError tr 0x04 s

/-- GET_VERSION starts a connection: 1.2 and 1.3. -/
def getVersion (tr : Nat) (s : State) : State := inOrder tr true (fun s => emit (.spdm tr 0x04 [0x12, 0x13]) (connect tr 1 s)) s

/-- GET_CAPABILITIES: CERT_CAP, CHAL_CAP, MEAS_CAP with signature, MEAS_FRESH_CAP. -/
def getCapabilities (tr : Nat) (s : State) : State :=
  inOrder tr (stageOf s tr == 1) (fun s => emit (.spdm tr 0x61 (bytesLE 4 0x36)) (connect tr 2 s)) s

/-- NEGOTIATE_ALGORITHMS: EdDSA Ed25519, and SHA-384 for both hashes. -/
def negotiate (tr : Nat) (s : State) : State :=
  inOrder tr (stageOf s tr == 2) (fun s => emit (.spdm tr 0x63 (bytesLE 4 0x400 ++ bytesLE 4 0x2 ++ bytesLE 4 0x4)) (connect tr 3 s)) s

/-- A request on a slot: slots 0 and 1 of a module with an identity; any other is an InvalidRequest. -/
def onSlot (tr slot : Nat) (f : State → State) (s : State) : State :=
  inOrder tr (stageOf s tr == 3) (fun s => if slot < 2 && hasIdentity s then f s else spdmError tr 0x01 s) s

/-- GET_DIGESTS: the slots held, and each chain's SHA-384. -/
def getDigests (tr : Nat) (s : State) : State :=
  onSlot tr 0 (fun s => emit (.spdm tr 0x01 ([0x03] ++ hashBytes (chainBytes s 0) ++ hashBytes (chainBytes s 1))) s) s

/-- GET_CERTIFICATE: a portion of a slot's chain, its length, and what remains. -/
def getCertificate (tr slot off len : Nat) (s : State) : State :=
  onSlot tr slot (fun s =>
    let c := chainBytes s slot
    let p := part c off len
    if c.length ≤ off then spdmError tr 0x01 s
    else emit (.spdm tr 0x02 (bytesLE 1 slot ++ bytesLE 2 p.length ++ bytesLE 2 (c.length - off - p.length) ++ p)) s) s

/-- A nonce of 32 free bytes (assumption 2). -/
def nonceBytes (s : State) : List Byte := (List.range 4).flatMap (fun i => bytesLE 8 (Config.freeValue (s.free + i)).toNat)

/-- A signed response: the message, the OpaqueData element that holds the ML-DSA signature (PCI-SIG, vendor 0x1F3D, element 1), and the Ed25519 signature. Both sign the
same message, the request followed by the response's own content (assumption 80). -/
def signedResponse (s : State) (request content : List Byte) : List Byte :=
  let message := request ++ content
  let ml := Config.mldsaSign (aliasSeed s 1) message
  content ++ bytesLE 1 0x03 ++ bytesLE 2 0x1F3D ++ bytesLE 1 1 ++ bytesLE 2 ml.length ++ ml ++ Config.ed25519Sign (aliasSeed s 0) message

/-- CHALLENGE. -/
def challenge (tr slot : Nat) (nonce : List Byte) (s : State) : State :=
  onSlot tr slot (fun s =>
    let content := bytesLE 1 slot ++ [0x03] ++ hashBytes (chainBytes s slot) ++ nonceBytes s
    emit (.spdm tr 0x03 (signedResponse s (bytesLE 1 0x83 ++ bytesLE 1 slot ++ padTo 32 nonce) content)) { s with free := s.free + 4 }) s

/-- A measurement block: its index, its length and its value. -/
def measureBlock (s : State) (i : Nat) : List Byte :=
  let v := (measurements s).getD (i - 1) []
  bytesLE 1 i ++ bytesLE 2 v.length ++ v

/-- GET_MEASUREMENTS: index 0 asks for their number, 0xFF for all, 1 to 8 for one. -/
def getMeasurements (tr idx : Nat) (sign : Bool) (nonce : List Byte) (s : State) : State :=
  onSlot tr 0 (fun s =>
    if 8 < idx ∧ idx ≠ 0xFF then spdmError tr 0x01 s
    else
      let l := if idx = 0 then [] else if idx = 0xFF then (List.range 8).map (· + 1) else [idx]
      let content := bytesLE 1 (if idx = 0 then 8 else 0) ++ bytesLE 1 l.length ++ l.flatMap (measureBlock s) ++ nonceBytes s
      let body := if sign then signedResponse s (bytesLE 1 0xE0 ++ bytesLE 1 1 ++ bytesLE 1 idx ++ padTo 32 nonce) content else content
      emit (.spdm tr 0x60 body) { s with free := s.free + 4 }) s

/-! ### The commands -/

def execGetVersion (tr : Nat) (s : State) : Host.Outcome State Fault Refusal := .next (getVersion tr s)
def execGetCapabilities (tr : Nat) (s : State) : Host.Outcome State Fault Refusal := .next (getCapabilities tr s)
def execNegotiateAlgorithms (tr : Nat) (s : State) : Host.Outcome State Fault Refusal := .next (negotiate tr s)
def execGetDigests (tr : Nat) (s : State) : Host.Outcome State Fault Refusal := .next (getDigests tr s)
def execGetCertificate (tr slot off len : Nat) (s : State) : Host.Outcome State Fault Refusal := .next (getCertificate tr slot off len s)
def execChallenge (tr slot : Nat) (nonce : List (BitVec 8)) (s : State) : Host.Outcome State Fault Refusal := .next (challenge tr slot nonce s)
def execGetMeasurements (tr idx : Nat) (sign : Bool) (nonce : List (BitVec 8)) (s : State) : Host.Outcome State Fault Refusal :=
  .next (getMeasurements tr idx sign nonce s)

end Sys2Proof.Machine
end

