-- ==== Sys2Proof/Machine/Vector.lean ====
section
/-! DEFINITION. The vector engine and its reduction unit: shapes, masks, legality, elementwise results, conversions, permutes, packing, reductions,
softmax and generators (R135 to R162). Opcodes are those of Table 3.13. -/

namespace Sys2Proof.Machine

/-! ### Shapes, elements and masks (R135 to R138) -/

/-- Elements per container of a type (Table 5.1). -/
def perWord (ty : Nat) : Nat :=
  match typeBits ty with
  | 32 => 1
  | 16 => 2
  | 4 => 8
  | _ => 4

/-- The bytes of a vector register. -/
def vBytes (s : State) (k v : Nat) : List Byte := Mem.read s.mem (vregAddr k v) 4096

/-- The elements of a register in a type, by flat index. -/
def vElems (s : State) (k v ty : Nat) : List Nat := elements ty (vBytes s k v)

/-- Elements as register bytes: FP6 in 8-bit slots with their two high bits 0. -/
def packElems (ty : Nat) (l : List Nat) : List Byte := if typeBits ty = 6 then l.map (fun x => BitVec.ofNat 8 (x % 64)) else packCodes ty l

/-- A register written with elements of a type. -/
def setV (k v ty : Nat) (l : List Nat) (s : State) : State := store (vregAddr k v) (packElems ty l) s

/-- The vb operand in a type: its register, or the constant of a fmt 2 bundle in every container (R142). -/
def vbElems (s : State) (k : Nat) (o : VR) (ty : Nat) : List Nat :=
  match o.const with
  | some c => elements ty ((List.replicate 1024 (bytesLE 4 c.toNat)).flatMap id)
  | none => vElems s k o.vb ty

/-- A mask register. -/
def maskReg (s : State) (k m : Nat) : BitVec 1024 := (coreAt s k).masks.get m 0

/-- A mask register written. -/
def setMask (k m : Nat) (v : BitVec 1024) (s : State) : State := modCore k (fun c => { c with masks := c.masks.set m v }) s

/-- Whether a container takes part (R138). -/
def takes (s : State) (k : Nat) (o : VR) (i : Nat) : Bool := !o.maskEn || (maskReg s k o.mask).getLsbD i

/-- New elements where their container takes part, old ones elsewhere. -/
def merge (s : State) (k : Nat) (o : VR) (per : Nat) (old new : List Nat) : List Nat :=
  (List.zip old new).zipIdx.map (fun p => if takes s k o (p.2 / per) then p.1.2 else p.1.1)

/-- A mask from bits by container, the others kept (R138). -/
def mergeMask (s : State) (k : Nat) (o : VR) (m : Nat) (new : List Bool) : BitVec 1024 :=
  let old := maskReg s k m
  BitVec.ofNat 1024 (new.zipIdx.foldr (fun p a => 2 * a + (if takes s k o p.2 then p.1 else old.getLsbD p.2).toNat) 0)

/-! ### Draws (R161) -/

/-- Draws in the order of source elements, from the lane of each element's container: `n` elements, `per` to a container, from row 0 or a multiple of 8. -/
def elemDraws (l : List (List Nat)) (per n : Nat) : List Nat :=
  (List.range n).map (fun i =>
    let r := i / (32 * per)
    ((l.getD (32 * (r % 8) + i / per % 32) []).getD (r / 8 * per + i % per) 0))

/-- A vector operation takes its draws, if its rounding field asks for them: `n` elements from containers of `per`. -/
def takeDraws (k : Nat) (sr : Bool) (per n : Nat) (s : State) : List Nat × State :=
  if sr then
    let (l, s) := drawLanes k (n / 256) s
    (elemDraws l per n, s)
  else (List.replicate n 0, s)

/-! ### Legality (R79, R141, R142) -/

def isFloat3 (ty : Nat) : Bool := decide (ty ≤ 2)
def isArith (ty : Nat) : Bool := isFloat3 ty || ty == 8 || ty == 9 || ty == 11
def isWord (ty : Nat) : Bool := ty == 0 || ty == 9 || ty == 11
def isNarrow (ty : Nat) : Bool := decide (3 ≤ ty ∧ ty ≤ 7)

/-- Whether the rounding field of an elementwise instruction is legal: 0 to 2 for float, 0 for integers. -/
def roundOk (ty func : Nat) : Bool := decide (func < 3) && (isFloat3 ty || func == 0)

/-- Bits of the width class of a type (Table 5.1). -/
def widthClass (ty : Nat) : Nat := 32 / perWord ty

/-- The ratio of the wider width class to the narrower. -/
def cvtRatio (src dst : Nat) : Nat := Nat.max (widthClass src) (widthClass dst) / Nat.min (widthClass src) (widthClass dst)

/-- The pairs of Table 5.6. -/
def cvtPair (src dst : Nat) : Bool :=
  let fl (t : Nat) : Bool := (fmtOf t).isSome
  let int (t : Nat) : Bool := t == 8 || t == 9
  let pair := if fl src && fl dst then typeBits src != typeBits dst
    else if fl src && int dst then true
    else if int src && fl dst then true
    else if int src && int dst then src != dst
    else if src == 10 then dst == 0
    else if dst == 11 then src == 0 || src == 9
    else src == 11 && (dst == 0 || dst == 9)
  pair && decide (cvtRatio src dst ≤ 4)

/-- Table 5.2 and the field rules of Table 3.13 by opcode. -/
def vOpOk (op : Nat) (o : VR) : Bool :=
  let t := o.type
  let f := o.func
  match op with
  | 0x01 => isArith t && roundOk t f
  | 0x02 => isArith t && roundOk t f
  | 0x03 => isArith t && t != 11 && roundOk t f
  | 0x04 => isFloat3 t && roundOk t f
  | 0x05 => isArith t && f == 0
  | 0x06 => isArith t && f == 0
  | 0x07 => isArith t && f == 0
  | 0x08 => isArith t && f == 0
  | 0x09 => isFloat3 t && roundOk t f
  | 0x0A => isFloat3 t && roundOk t f
  | 0x0B => isFloat3 t && f == 0
  | 0x0C => isFloat3 t && f == 0
  | 0x20 => isWord t && f == 0 && decide (o.vd < 8)
  | 0x21 => isWord t && f == 0 && decide (o.vd < 8)
  | 0x22 => isWord t && f == 0 && decide (o.vd < 8)
  | 0x23 => isWord t && f == 0 && decide (o.vd < 8)
  | 0x24 => o.maskEn && f == 0
  | 0x25 => t == 0 && f != 0 && decide (o.vd < 8)
  | 0x40 => decide (o.vb < 12) && cvtPair o.vb t && decide (f % 4 < 3 ∧ f / 8 < cvtRatio o.vb t)
  | 0x50 => t != 7 && f == 0
  | 0x51 => t != 7 && f == 0
  | 0x52 => isWord t && f == 0
  | 0x60 => (t == 5 || t == 6) && f == 0 && !o.maskEn
  | 0x61 => (t == 5 || t == 6) && f == 0 && !o.maskEn
  | 0x62 => isNarrow t && decide (f % 4 < 3 ∧ f / 4 < if t = 7 then 8 else 4) && !o.maskEn
  | 0x63 => isNarrow t && decide (f % 4 = 0 ∧ f / 4 < if t = 7 then 8 else 4)
  | 0x70 => t == 0 && f == 0
  | 0x80 => isArith t && decide (f < 10) && o.vb % 4 != 3 && (isFloat3 t || !([1, 7, 8, 9].contains f))
  | 0xA0 => t == 0 && f == 0 && !o.maskEn
  | 0xA1 => t == 0 && f == 0 && !o.maskEn
  | 0xA2 => t == 0 && f == 0
  | 0xA3 => t == 0 && f == 0 && decide (o.vd < 8)
  | _ =>
    if 0x10 ≤ op ∧ op ≤ 0x15 then (t == 8 || t == 9) && f == 0
    else if 0x30 ≤ op ∧ op ≤ 0x38 then isFloat3 t && f == 0
    else if 0x90 ≤ op ∧ op ≤ 0x93 then t == 0 && f == 0 && !o.maskEn && decide (o.vd < 8 ∧ o.va < 8 ∧ o.vb < 8)
    else false

/-- The opcodes that a fmt 2 constant may go with (R142). -/
def constOk (op : Nat) : Bool :=
  [0x01, 0x02, 0x03, 0x04, 0x05, 0x06, 0x09, 0x10, 0x11, 0x12, 0x13, 0x14, 0x15, 0x20, 0x21, 0x22, 0x23, 0x24, 0xA3].contains op

/-- Whether a vector instruction of form VR is legal (register fields it does not use are ignored: assumption 28). -/
def vLegal (op : Nat) (o : VR) : Bool :=
  decide (o.vd < 32 ∧ o.va < 32 ∧ o.vb < 32 ∧ o.mask < 8 ∧ o.type < 12 ∧ o.func < 32) && vOpOk op o && (o.const.isNone || constOk op)

/-! ### Elementwise results (R144 to R149) -/

/-- A float element of a type computed at FP32 and rounded once with RNE (R144). -/
def via32 (f : Fmt) (g : Nat → Nat) (x : Nat) : Nat := f.encode .rne false (f32 (g (rne32 (f.decode x))))

/-- A float result (Table 5.4). -/
def floatElem (op : Nat) (f : Fmt) (mode : Rnd) (x y z : Nat) : Nat :=
  let a := f.decode x
  let b := f.decode y
  match op with
  | 0x01 => f.encode mode false (a.add b)
  | 0x02 => f.encode mode false (a.add b.neg)
  | 0x03 => f.encode mode false (a.mul b)
  | 0x04 => f.encode mode false ((a.mul b).add (f.decode z))
  | 0x05 => f.encode .rne false (a.min b)
  | 0x06 => f.encode .rne false (a.max b)
  | 0x07 => f.encode .rne false a.abs
  | 0x08 => f.encode .rne false a.neg
  | 0x09 => divTo f mode a b
  | 0x0A => sqrtTo f mode a
  | 0x0B => via32 f rcp32 x
  | 0x0C => via32 f rsqrt32 x
  | _ => via32 f (transc32 op) x

/-- An integer result of width `w` (R148). -/
def intElem (op w x y : Nat) : Nat :=
  let a := sint w x
  let b := sint w y
  let n := y % w
  match op with
  | 0x01 => wrap w (a + b)
  | 0x02 => wrap w (a - b)
  | 0x03 => wrap w (a * b)
  | 0x05 => wrap w (min a b)
  | 0x06 => wrap w (max a b)
  | 0x07 => wrap w a.natAbs
  | 0x08 => wrap w (-a)
  | 0x10 => x &&& y
  | 0x11 => x ||| y
  | 0x12 => x ^^^ y
  | 0x13 => x <<< n % 2 ^ w
  | 0x14 => x >>> n
  | _ => wrap w (a / 2 ^ n)

/-- A tally result, and whether it was clamped (R148). -/
def tallyElem (op x y : Nat) : Nat × Bool :=
  let a := tallyOf x
  let b := tallyOf y
  let i := match op with
    | 0x01 => a + b
    | 0x02 => a - b
    | 0x05 => min a b
    | 0x06 => max a b
    | 0x07 => (a.natAbs : Int)
    | _ => -a
  let (v, c) := tallyClamp i
  (wrap 32 v, c)

/-- An elementwise result and whether a tally clamped; `u` is the element's draw, `z` the old vd element. -/
def elemOf (op ty func x y z u : Nat) : Nat × Bool :=
  match fmtOf ty with
  | some f => (floatElem op f (Rnd.of func u) x y z, false)
  | none => if ty = 11 then tallyElem op x y else (intElem op (typeBits ty) x y, false)

/-- A comparison (R149). -/
def cmpElem (op ty x y : Nat) : Bool :=
  let (lt, gt, nan) :=
    if ty = 0 then ((f32 x).lt (f32 y), (f32 y).lt (f32 x), (f32 x).isNan || (f32 y).isNan)
    else
      let v (n : Nat) : Int := if ty = 11 then tallyOf n else sint 32 n
      (decide (v x < v y), decide (v y < v x), false)
  match op with
  | 0x20 => !nan && !lt && !gt
  | 0x21 => nan || lt || gt
  | 0x22 => !nan && lt
  | _ => !nan && !gt

/-- Whether an FP32 element is of a class that func selects (R149). -/
def classElem (func x : Nat) : Bool :=
  match f32 x with
  | .nan => func.testBit 0
  | .inf _ => func.testBit 1
  | .fin _ m _ => if m = 0 then func.testBit 2 else if m < 2 ^ 23 then func.testBit 3 else func.testBit 4

/-! ### Conversions (R150, Table 5.6) -/

/-- One conversion, and whether a tally clamped. -/
def cvtElem (src dst func x u : Nat) : Nat × Bool :=
  let mode := Rnd.of (func % 4) u
  let sat := func.testBit 2
  match fmtOf dst with
  | some f =>
    if (fmtOf src).isSome && decide (typeBits src < typeBits dst) then (f.encode mode false (elemVal src x), false)
    else (f.encode mode sat (elemVal src x), false)
  | none =>
    if dst = 11 then
      let (i, c) := toInteger mode (-tallyTop) tallyTop (elemVal src x)
      (wrap 32 i, c)
    else if dst = 9 then (wrap 32 (toInteger mode (-(2 ^ 31)) (2 ^ 31 - 1) (elemVal src x)).1, false)
    else if src = 9 ∧ !sat then (x % 256, false)
    else (wrap 8 (toInteger mode (-128) 127 (elemVal src x)).1, false)

/-! ### Block scaling (R153, R154) -/

/-- The exponent of the top binade of a narrow type. -/
def emaxOf (ty : Nat) : Int := (fmtOf ty).elim 0 Fmt.topExp

/-- The E8M0 scale of a block of FP32 words. -/
def mxScale (ty : Nat) (l : List Nat) : Nat :=
  if l.any (fun x => !(f32 x).isFin) then 0xFF
  else
    match (l.map (fun x => x % 2 ^ 31)).foldl Nat.max 0 with
    | 0 => 0x7F
    | a =>
      match f32 a with
      | .fin _ m e => (max 0 (min 254 (finExp m e - emaxOf ty + 127))).toNat
      | .nan => 0xFF
      | .inf _ => 0xFF

/-- An element of a block, converted under its scale. -/
def mxElem (ty rnd scale x u : Nat) : Nat :=
  if scale = 0xFF then 0
  else (fmtOf ty).elim 0 (fun f => f.encode (Rnd.of rnd u) true ((f32 x).mul (.pow2 (127 - (scale : Int)))))

/-- An element expanded under its scale (R154). -/
def mxExpand (ty scale x : Nat) : Nat := rne32 ((elemVal ty x).mul (e8m0 scale))

/-! ### Reductions (R155 to R157) -/

/-- The exact sum of values: +0 for none, -0 only where every one is -0. -/
def exactSum : List Val → Val
  | [] => .fin false 0 0
  | x :: xs => xs.foldl Val.add x

/-- The greatest value, with -0 below +0. -/
def maxVal (l : List Val) : Val := l.foldl Val.max (.inf true)

/-- The least value. -/
def minVal (l : List Val) : Val := l.foldl Val.min (.inf false)

/-- FP32 words packed as the operand of an approximate function. -/
def packWords (l : List Nat) : Nat := l.foldr (fun x a => x + a * 2 ^ 32) 1

/-- m - x for finite values, in fixed point. -/
def gapFx (m x : Val) : Int :=
  match m.add x.neg with
  | .fin n q e => if q ≠ 0 ∧ finExp q e > 8 then 200 * fxOne else fxAt 256 n q e
  | .nan => 200 * fxOne
  | .inf _ => 200 * fxOne

/-- The sum of e^(x - m) over values, in fixed point. -/
def expSum (m : Val) (l : List Val) : Int := (l.map (fun x => fxExpNeg (gapFx m x))).foldl (· + ·) 0

/-- m + log s, in fixed point. -/
def lseVal (m : Val) (s : Int) : Val :=
  match m with
  | .fin n q e => ofFx (fxAt 256 n q e + fxLn s.toNat (-256))
  | .nan => .nan
  | .inf b => .inf b

/-- Log-sum-exp of FP32 words, within 2 ulp (R156). -/
def logSumExp (l : List Nat) : Nat :=
  let vs := l.map f32
  let m := maxVal vs
  match m with
  | .nan => 0x7FC00000
  | .inf neg => if neg then 0xFF800000 else 0x7F800000
  | .fin .. => approxTo 2 0x80 (packWords l) 8 (lseVal m (expSum m vs))

/-- The result of a float reduction over element values, as FP32. -/
def redFloat (func : Nat) (l : List Val) : Nat :=
  match func with
  | 0 => rne32 (exactSum l)
  | 1 => rne32 (exactSum (l.map (fun x => x.mul x)))
  | 2 => rne32 (maxVal l)
  | 3 => rne32 (minVal l)
  | 7 => l.foldl (fun p x => rne32 ((f32 p).mul x)) 0x3F800000
  | 8 => logSumExp (l.map rne32)
  | _ => if l.isEmpty then 0x7FC00000 else divTo .fp32 .rne (exactSum l) (.ofInt l.length)

/-- The result of an integer reduction, and whether a tally clamped; a tally sum is exact and clamped once (assumption 30). -/
def redInt (func ty : Nat) (l : List Int) : Nat × Bool :=
  let low : Int := if ty = 11 then -tallyTop else -(2 ^ 31)
  match func with
  | 0 =>
    let i := l.foldl (· + ·) 0
    if ty = 11 then (wrap 32 (tallyClamp i).1, (tallyClamp i).2) else (wrap 32 i, false)
  | 2 => (wrap 32 (greatest low l), false)
  | _ => (wrap 32 (-(greatest (-(2 ^ 31 - 1)) (l.map (fun x => -x)))), false)

/-- Argmax or argmin: the position of the first NaN, else the lowest that holds the extreme value (R157). -/
def argOf (func : Nat) (l : List (Val × Nat)) : Nat :=
  match l.find? (·.1.isNan) with
  | some p => p.2
  | none =>
    let ext := if func = 4 then maxVal (l.map (·.1)) else minVal (l.map (·.1))
    ((l.find? (fun p => p.1.eq ext && p.1.sign == ext.sign)).elim 0xFFFFFFFF (·.2))

/-- One reduction: (result, count, whether a tally clamped) over (code, position) pairs. -/
def reduce (func ty : Nat) (l : List (Nat × Nat)) : Nat × Bool :=
  let vs := l.map (fun p => (elemVal ty p.1, p.2))
  if func = 4 ∨ func = 5 then (argOf func vs, false)
  else if func = 6 then (l.length, false)
  else if isFloat3 ty then (redFloat func (vs.map (·.1)), false)
  else redInt func ty (l.map (fun p => if ty = 11 then tallyOf p.1 else sint (typeBits ty) p.1))

/-- The groups that a VRED reduces (R155): rows, columns or the whole register, as (code, position) pairs that take part. -/
def redGroups (s : State) (k : Nat) (o : VR) : List (List (Nat × Nat)) :=
  let n := 32 * perWord o.type
  let l := (vElems s k o.va o.type).zipIdx.filter (fun p => takes s k o (p.2 / perWord o.type))
  match o.vb % 4 with
  | 0 => (List.range 32).map (fun r => (l.filter (fun p => p.2 / n == r)).map (fun p => (p.1, p.2 % n)))
  | 1 => (List.range n).map (fun c => (l.filter (fun p => p.2 % n == c)).map (fun p => (p.1, p.2 / n)))
  | _ => [l]

/-- Words placed over a list from an index on. -/
def placeAt (i : Nat) (new l : List Nat) : List Nat := l.take i ++ new ++ l.drop (i + new.length)

/-! ### Softmax (R158, Table 5.8) -/

/-- A row of softmax: the words of vd and the log-sum-exp. -/
def softmaxRow (use : List Bool) (row : List Nat) : List Nat × Nat :=
  let l := List.zip use row
  let mine := (l.filter (·.1)).map (·.2)
  let vs := mine.map f32
  let m := maxVal vs
  let ctx := packWords (l.map (fun p => if p.1 then p.2 + 2 ^ 32 else 0))
  match m with
  | .nan => (List.replicate 32 0x7FC00000, 0x7FC00000)
  | .inf true => (List.replicate 32 0, 0xFF800000)
  | .inf false =>
    let n := (vs.filter (·.isInf)).filter (fun v => !v.sign) |>.length
    let q := divTo .fp32 .rne (.ofInt 1) (.ofInt n)
    (l.map (fun p => if p.1 && p.2 == 0x7F800000 then q else 0), 0x7F800000)
  | .fin .. =>
    let sum := expSum m vs
    (l.zipIdx.map (fun p => if p.1.1 && (f32 p.1.2).isFin then
        approxTo 2 0x70 ctx p.2 (ofFx (fxExpNeg (gapFx m (f32 p.1.2)) * fxOne / sum)) else 0),
      approxTo 2 0x70 ctx 32 (lseVal m sum))

/-! ### What each instruction writes -/

/-- A tally clamp of a vector instruction is reported (R148). -/
def reportClamp (w : Nat) (b : Bool) (s : State) : State :=
  if b then markSaturated (reportAll 1 { code := 0, die := dieOfRunner w, mkind := 1, midx := w } s) else s

/-- Elementwise instructions. -/
def vElementwise (w op : Nat) (o : VR) (old s : State) : State :=
  let k := coreOf w
  let per := perWord o.type
  let (us, s) := takeDraws k (o.func == 2 && [1, 2, 3, 4, 9, 0xA].contains op) per (1024 * per) s
  let x := vElems old k o.va o.type
  let y := vbElems old k o o.type
  let z := vElems old k o.vd o.type
  let r := List.zipWith (fun p q => elemOf op o.type o.func p.1 p.2 q.1 q.2) (List.zip x y) (List.zip z us)
  let clamp := r.zipIdx.any (fun p => p.1.2 && takes old k o (p.2 / per))
  reportClamp w clamp (setV k o.vd o.type (merge old k o per z (r.map (·.1))) s)

/-- Comparisons and VCLASS. -/
def vCompare (w op : Nat) (o : VR) (old s : State) : State :=
  let k := coreOf w
  let x := vElems old k o.va o.type
  let bs := if op = 0x25 then x.map (classElem o.func) else List.zipWith (cmpElem op o.type) x (vbElems old k o o.type)
  setMask k o.vd (mergeMask old k o o.vd bs) s

/-- VSEL takes va where the container takes part and vb elsewhere (DEDUCED, assumption 25). -/
def vSelect (w : Nat) (o : VR) (old s : State) : State :=
  let k := coreOf w
  setV k o.vd o.type (merge old k o (perWord o.type) (vbElems old k o o.type) (vElems old k o.va o.type)) s

/-- VCVT (R150). -/
def vConvert (w : Nat) (o : VR) (old s : State) : State :=
  let k := coreOf w
  let src := o.vb
  let dst := o.type
  let p := o.func / 8
  let x := vElems old k o.va src
  let z := vElems old k o.vd dst
  let narrow := decide (widthClass dst < widthClass src)
  let n := 1024 * (if narrow then perWord src else perWord dst)
  let (us, s) := takeDraws k (o.func % 4 == 2) (perWord src) n s
  let r := List.zipWith (cvtElem src dst o.func) (if narrow then x else (x.drop (p * n)).take n) us
  let part := Nat.max (perWord src) (perWord dst)
  let per := if narrow then perWord src else perWord dst
  let clamp := r.zipIdx.any (fun q => q.1.2 && takes old k o (q.2 / per))
  let zs := if narrow then (z.drop (p * n)).take n else z
  let new := merge old k o per zs (r.map (·.1))
  reportClamp w clamp (setV k o.vd dst (if narrow ∧ part ≠ 0 then placeAt (p * n) new z else new) s)

/-- VPERM, VSHUF and VTRANS (R151). -/
def vPermute (w op : Nat) (o : VR) (old s : State) : State :=
  let k := coreOf w
  let n := 32 * perWord o.type
  let x := vElems old k o.va o.type
  let y := vElems old k o.vb o.type
  let r := y.zipIdx.map (fun p =>
    x.getD (match op with
      | 0x50 => p.2 / n * n + p.1 % n
      | 0x51 => p.1 % 32 * n + p.2 % n
      | _ => p.2 % n * n + p.2 / n) 0)
  setV k o.vd o.type (merge old k o (perWord o.type) (vElems old k o.vd o.type) r) s

/-- VPACK and VUNPACK (R152). -/
def vPack (w op : Nat) (o : VR) (old s : State) : State :=
  let k := coreOf w
  if op = 0x60 then store (vregAddr k o.vd) (packCodes 5 (vElems old k o.va o.type)) s
  else setV k o.vd o.type (packedElems 6 4096 ((vBytes old k o.va).take 3072)) s

/-- VMXPACK (R153). -/
def vMxPack (w : Nat) (o : VR) (old s : State) : State :=
  let k := coreOf w
  let p := o.func / 4
  let (us, s) := takeDraws k (o.func % 4 == 2) 1 1024 s
  let rows := List.zip (pieces 32 32 (vElems old k o.va 0)) (pieces 32 32 us)
  let sc := rows.map (fun r => mxScale o.type r.1)
  let els := (List.zip rows sc).flatMap (fun r => List.zipWith (mxElem o.type (o.func % 4) r.2) r.1.1 r.1.2)
  let s := setV k o.vd o.type (placeAt (p * 1024) els (vElems old k o.vd o.type)) s
  store (vregAddr k o.vb + p * 32) (sc.map (BitVec.ofNat 8)) s

/-- VMXUNPACK (R154). -/
def vMxUnpack (w : Nat) (o : VR) (old s : State) : State :=
  let k := coreOf w
  let p := o.func / 4
  let els := ((vElems old k o.va o.type).drop (p * 1024)).take 1024
  let sc := ((vBytes old k o.vb).drop (p * 32)).take 32
  let r := els.zipIdx.map (fun q => mxExpand o.type (sc.getD (q.2 / 32) 0).toNat q.1)
  setV k o.vd 0 (merge old k o 1 (vElems old k o.vd 0) r) s

/-- VSOFTMAX (R158). -/
def vSoftmax (w : Nat) (o : VR) (old s : State) : State :=
  let k := coreOf w
  let rows := pieces 32 32 (vElems old k o.va 0)
  let r := rows.zipIdx.map (fun q => softmaxRow ((List.range 32).map (fun c => takes old k o (q.2 * 32 + c))) q.1)
  let s := setV k o.vd 0 (r.flatMap (·.1)) s
  store (vregAddr k o.vb) ((r.map (·.2)).flatMap (bytesLE 4)) s

/-- VRED (R155). -/
def vReduce (w : Nat) (o : VR) (old s : State) : State :=
  let k := coreOf w
  let g := redGroups old k o
  let r := g.map (reduce o.func o.type)
  let z := placeAt 0 (r.map (·.1)) (vElems old k o.vd 0)
  let z := if o.func = 4 ∨ o.func = 5 then placeAt 512 (g.map (·.length)) z else z
  reportClamp w (r.any (·.2)) (setV k o.vd 0 z s)

/-- The mask instructions. -/
def vMaskOp (w op : Nat) (o : VR) (old s : State) : State :=
  let k := coreOf w
  let a := maskReg old k o.va
  let b := maskReg old k o.vb
  setMask k o.vd (match op with
    | 0x90 => a &&& b
    | 0x91 => a ||| b
    | 0x92 => a ^^^ b
    | _ => ~~~a) s

/-- GENDRAW and GENDROP (R161). -/
def vGenDraw (w op : Nat) (o : VR) (old s : State) : State :=
  let k := coreOf w
  let (us, s) := takeDraws k true 1 1024 s
  if op = 0xA2 then setV k o.vd 0 (merge old k o 1 (vElems old k o.vd 0) us) s
  else setMask k o.vd (mergeMask old k o o.vd (List.zipWith (fun u t => decide (u < t)) us (vbElems old k o 0))) s

/-- What a vector instruction of form VR writes with its bundle. -/
def vAct (w op : Nat) (o : VR) (old s : State) : State :=
  match op with
  | 0x24 => vSelect w o old s
  | 0x40 => vConvert w o old s
  | 0x50 => vPermute w op o old s
  | 0x51 => vPermute w op o old s
  | 0x52 => vPermute w op o old s
  | 0x60 => vPack w op o old s
  | 0x61 => vPack w op o old s
  | 0x62 => vMxPack w o old s
  | 0x63 => vMxUnpack w o old s
  | 0x70 => vSoftmax w o old s
  | 0x80 => vReduce w o old s
  | 0xA0 => store (vregAddr (coreOf w) o.vd) (genBytes old (coreOf w)) s
  | 0xA1 => s
  | 0xA2 => vGenDraw w op o old s
  | 0xA3 => vGenDraw w op o old s
  | _ =>
    if 0x20 ≤ op ∧ op ≤ 0x25 then vCompare w op o old s
    else if 0x90 ≤ op then vMaskOp w op o old s
    else vElementwise w op o old s

/-- Whether an instruction uses the generators: it waits while restored states are loaded (R164). -/
def vDrawing (op : Nat) (o : VR) : Bool :=
  (0xA0 ≤ op && op ≤ 0xA3) || (o.func % 4 == 2 && [1, 2, 3, 4, 9, 0xA, 0x40, 0x62].contains op)

/-- The vector registers an instruction reads. -/
def vReads (op : Nat) (o : VR) : List RegName :=
  if 0x90 ≤ op ∧ op ≤ 0x93 then [.m o.va, .m o.vb]
  else if op = 0xA0 ∨ op = 0xA2 then []
  else
    let usesVb := constOk op || op == 0x50 || op == 0x51 || op == 0x63
    (if op = 0xA3 then [] else [.v o.va]) ++ (if usesVb && o.const.isNone then [.v o.vb] else []) ++ (if op = 0x04 then [.v o.vd] else []) ++
      (if o.maskEn then [.m o.mask] else [])

/-- The registers an instruction writes. -/
def vWrites (op : Nat) (o : VR) : List RegName :=
  if (0x20 ≤ op ∧ op ≤ 0x23) ∨ op = 0x25 ∨ (0x90 ≤ op ∧ op ≤ 0x93) ∨ op = 0xA3 then [.m o.vd]
  else if op = 0xA1 then [.gen]
  else if op = 0x62 ∨ op = 0x70 then [.v o.vd, .v o.vb]
  else [.v o.vd]

/-- A vector instruction of form VR. GENLOAD replaces the states that a drain of its bundle has drawn from (R162). -/
def vSlot (w op : Nat) (o : VR) : Option Slot :=
  legal (vLegal op o)
    { srcs := vReads op o, dsts := vWrites op o,
      reads := fun _ => if o.maskEn then [(vregAddr (coreOf w) o.vd, 4096)] else [],
      holds := fun s => if vDrawing op o && (coreAt s (coreOf w)).loading then some .genLoad else none,
      act := vAct w op o,
      late := fun old s => if op = 0xA1 then loadGens (coreOf w) (vBytes old (coreOf w) o.va) s else s }

/-- VSPLAT (R149). -/
def vsplatSlot (w vd rs ty : Nat) : Option Slot :=
  legal (vd < 32 && rs < 64 && ty < 12)
    { srcs := [.s rs], dsts := [.v vd],
      act := fun old s => setV (coreOf w) vd ty (List.replicate (1024 * perWord ty) ((sReg old w rs).toNat % 2 ^ typeBits ty)) s }

/-! ### The commands -/

def execVadd (w g : Nat) (o : VR) (s : State) : Host.Outcome State Fault Refusal := .next (issue1 w g (vSlot w 0x01 o) s)

def execVsub (w g : Nat) (o : VR) (s : State) : Host.Outcome State Fault Refusal := .next (issue1 w g (vSlot w 0x02 o) s)

def execVmul (w g : Nat) (o : VR) (s : State) : Host.Outcome State Fault Refusal := .next (issue1 w g (vSlot w 0x03 o) s)

def execVfma (w g : Nat) (o : VR) (s : State) : Host.Outcome State Fault Refusal := .next (issue1 w g (vSlot w 0x04 o) s)

def execVmin (w g : Nat) (o : VR) (s : State) : Host.Outcome State Fault Refusal := .next (issue1 w g (vSlot w 0x05 o) s)

def execVmax (w g : Nat) (o : VR) (s : State) : Host.Outcome State Fault Refusal := .next (issue1 w g (vSlot w 0x06 o) s)

def execVabs (w g : Nat) (o : VR) (s : State) : Host.Outcome State Fault Refusal := .next (issue1 w g (vSlot w 0x07 o) s)

def execVneg (w g : Nat) (o : VR) (s : State) : Host.Outcome State Fault Refusal := .next (issue1 w g (vSlot w 0x08 o) s)

def execVdiv (w g : Nat) (o : VR) (s : State) : Host.Outcome State Fault Refusal := .next (issue1 w g (vSlot w 0x09 o) s)

def execVsqrt (w g : Nat) (o : VR) (s : State) : Host.Outcome State Fault Refusal := .next (issue1 w g (vSlot w 0x0A o) s)

def execVrcp (w g : Nat) (o : VR) (s : State) : Host.Outcome State Fault Refusal := .next (issue1 w g (vSlot w 0x0B o) s)

def execVrsqrt (w g : Nat) (o : VR) (s : State) : Host.Outcome State Fault Refusal := .next (issue1 w g (vSlot w 0x0C o) s)

def execVand (w g : Nat) (o : VR) (s : State) : Host.Outcome State Fault Refusal := .next (issue1 w g (vSlot w 0x10 o) s)

def execVor (w g : Nat) (o : VR) (s : State) : Host.Outcome State Fault Refusal := .next (issue1 w g (vSlot w 0x11 o) s)

def execVxor (w g : Nat) (o : VR) (s : State) : Host.Outcome State Fault Refusal := .next (issue1 w g (vSlot w 0x12 o) s)

def execVshl (w g : Nat) (o : VR) (s : State) : Host.Outcome State Fault Refusal := .next (issue1 w g (vSlot w 0x13 o) s)

def execVshr (w g : Nat) (o : VR) (s : State) : Host.Outcome State Fault Refusal := .next (issue1 w g (vSlot w 0x14 o) s)

def execVsra (w g : Nat) (o : VR) (s : State) : Host.Outcome State Fault Refusal := .next (issue1 w g (vSlot w 0x15 o) s)

def execVcmpeq (w g : Nat) (o : VR) (s : State) : Host.Outcome State Fault Refusal := .next (issue1 w g (vSlot w 0x20 o) s)

def execVcmpne (w g : Nat) (o : VR) (s : State) : Host.Outcome State Fault Refusal := .next (issue1 w g (vSlot w 0x21 o) s)

def execVcmplt (w g : Nat) (o : VR) (s : State) : Host.Outcome State Fault Refusal := .next (issue1 w g (vSlot w 0x22 o) s)

def execVcmple (w g : Nat) (o : VR) (s : State) : Host.Outcome State Fault Refusal := .next (issue1 w g (vSlot w 0x23 o) s)

def execVsel (w g : Nat) (o : VR) (s : State) : Host.Outcome State Fault Refusal := .next (issue1 w g (vSlot w 0x24 o) s)

def execVclass (w g : Nat) (o : VR) (s : State) : Host.Outcome State Fault Refusal := .next (issue1 w g (vSlot w 0x25 o) s)

def execVexp (w g : Nat) (o : VR) (s : State) : Host.Outcome State Fault Refusal := .next (issue1 w g (vSlot w 0x30 o) s)

def execVexp2 (w g : Nat) (o : VR) (s : State) : Host.Outcome State Fault Refusal := .next (issue1 w g (vSlot w 0x31 o) s)

def execVlog (w g : Nat) (o : VR) (s : State) : Host.Outcome State Fault Refusal := .next (issue1 w g (vSlot w 0x32 o) s)

def execVlog2 (w g : Nat) (o : VR) (s : State) : Host.Outcome State Fault Refusal := .next (issue1 w g (vSlot w 0x33 o) s)

def execVsin (w g : Nat) (o : VR) (s : State) : Host.Outcome State Fault Refusal := .next (issue1 w g (vSlot w 0x34 o) s)

def execVcos (w g : Nat) (o : VR) (s : State) : Host.Outcome State Fault Refusal := .next (issue1 w g (vSlot w 0x35 o) s)

def execVtanh (w g : Nat) (o : VR) (s : State) : Host.Outcome State Fault Refusal := .next (issue1 w g (vSlot w 0x36 o) s)

def execVsigm (w g : Nat) (o : VR) (s : State) : Host.Outcome State Fault Refusal := .next (issue1 w g (vSlot w 0x37 o) s)

def execVerf (w g : Nat) (o : VR) (s : State) : Host.Outcome State Fault Refusal := .next (issue1 w g (vSlot w 0x38 o) s)

def execVcvt (w g : Nat) (o : VR) (s : State) : Host.Outcome State Fault Refusal := .next (issue1 w g (vSlot w 0x40 o) s)

def execVperm (w g : Nat) (o : VR) (s : State) : Host.Outcome State Fault Refusal := .next (issue1 w g (vSlot w 0x50 o) s)

def execVshuf (w g : Nat) (o : VR) (s : State) : Host.Outcome State Fault Refusal := .next (issue1 w g (vSlot w 0x51 o) s)

def execVtrans (w g : Nat) (o : VR) (s : State) : Host.Outcome State Fault Refusal := .next (issue1 w g (vSlot w 0x52 o) s)

def execVpack (w g : Nat) (o : VR) (s : State) : Host.Outcome State Fault Refusal := .next (issue1 w g (vSlot w 0x60 o) s)

def execVunpack (w g : Nat) (o : VR) (s : State) : Host.Outcome State Fault Refusal := .next (issue1 w g (vSlot w 0x61 o) s)

def execVmxpack (w g : Nat) (o : VR) (s : State) : Host.Outcome State Fault Refusal := .next (issue1 w g (vSlot w 0x62 o) s)

def execVmxunpack (w g : Nat) (o : VR) (s : State) : Host.Outcome State Fault Refusal := .next (issue1 w g (vSlot w 0x63 o) s)

def execVsoftmax (w g : Nat) (o : VR) (s : State) : Host.Outcome State Fault Refusal := .next (issue1 w g (vSlot w 0x70 o) s)

def execVred (w g : Nat) (o : VR) (s : State) : Host.Outcome State Fault Refusal := .next (issue1 w g (vSlot w 0x80 o) s)

def execMand (w g : Nat) (o : VR) (s : State) : Host.Outcome State Fault Refusal := .next (issue1 w g (vSlot w 0x90 o) s)

def execMor (w g : Nat) (o : VR) (s : State) : Host.Outcome State Fault Refusal := .next (issue1 w g (vSlot w 0x91 o) s)

def execMxor (w g : Nat) (o : VR) (s : State) : Host.Outcome State Fault Refusal := .next (issue1 w g (vSlot w 0x92 o) s)

def execMnot (w g : Nat) (o : VR) (s : State) : Host.Outcome State Fault Refusal := .next (issue1 w g (vSlot w 0x93 o) s)

def execGensave (w g : Nat) (o : VR) (s : State) : Host.Outcome State Fault Refusal := .next (issue1 w g (vSlot w 0xA0 o) s)

def execGenload (w g : Nat) (o : VR) (s : State) : Host.Outcome State Fault Refusal := .next (issue1 w g (vSlot w 0xA1 o) s)

def execGendraw (w g : Nat) (o : VR) (s : State) : Host.Outcome State Fault Refusal := .next (issue1 w g (vSlot w 0xA2 o) s)

def execGendrop (w g : Nat) (o : VR) (s : State) : Host.Outcome State Fault Refusal := .next (issue1 w g (vSlot w 0xA3 o) s)

def execVsplat (w g vd rs ty : Nat) (s : State) : Host.Outcome State Fault Refusal := .next (issue1 w g (vsplatSlot w vd rs ty) s)

end Sys2Proof.Machine
end

