-- ==== Sys2Proof/Machine/Bundles.lean ====
section
/-! DEFINITION. Bundles: their encoding, and the fetch of a runner's next bundle from its die's program store (R72, R75 to R79, Tables 3.7 to 3.9, 3.11, 3.13, 3.14). -/

namespace Sys2Proof.Machine

/-! ### Slots of 40 bits. `o` is the operand field, bits [27:0] (R76). -/

/-- The operand bits that a form defines, as lowest bit and width. -/
def formBits (form : List (Nat × Nat)) : Nat := sumOf (form.map (fun p => (2 ^ p.2 - 1) * 2 ^ p.1))

/-- Whether an operand field has no bit outside its form (R79). -/
def fits (form : List (Nat × Nat)) (o : Nat) : Bool := o &&& formBits form == o

/-- A slot whose operand field fits its form. -/
def formed (form : List (Nat × Nat)) (o : Nat) (x : Option Slot) : Option Slot := if fits form o then x else none

/-- The forms of Table 3.9: SR without and with rs3, SI, SM, SA, SB, VR. -/
def formSR : List (Nat × Nat) := [(22, 6), (16, 6), (10, 6)]
def formSR3 : List (Nat × Nat) := [(22, 6), (16, 6), (10, 6), (4, 6)]
def formSI : List (Nat × Nat) := [(22, 6), (16, 6), (0, 16)]
def formSM : List (Nat × Nat) := [(22, 6), (18, 4), (17, 1), (0, 17)]
def formSA : List (Nat × Nat) := [(22, 6), (18, 4), (12, 6), (0, 12)]
def formSB : List (Nat × Nat) := [(22, 6), (0, 22)]
def formVR : List (Nat × Nat) := [(23, 5), (18, 5), (13, 5), (10, 3), (9, 1), (5, 4), (0, 5)]

/-- An instruction of form SR by its opcode. Fields of the form that the instruction does not use are ignored (DESIGN CHOICE, assumption 103). -/
def slotSR (w op o : Nat) : Option Slot :=
  let rd := bits o 22 6
  let rs1 := bits o 16 6
  let rs2 := bits o 10 6
  formed (if op = 0x53 then formSR3 else formSR) o
    (if op < 0x17 then aluSlot w op rd rs1 (if op < 0x14 then rs2 else 0)
     else if op < 0x46 then cmpSlot w op rd rs1 rs2
     else if op < 0x4A then predSlot w op rd rs1 rs2
     else if op < 0x5D then fpuSlot w op rd rs1 (if op = 0x55 ∨ 0x5B ≤ op then 0 else rs2) (if op = 0x53 then bits o 4 6 else 0)
     else if op = 0x60 then movaSlot w rd rs1
     else if op = 0x61 then movsSlot w rd rs1
     else addaSlot w rd rs1 rs2)

/-- An instruction of form SI, with ext40 where its bundle is of fmt 1 (R80). -/
def slotSI (w op o : Nat) (ext : Option Nat) : Option Slot :=
  let rs1 := bits o 16 6
  let imm : BitVec 56 := ext.elim ((BitVec.ofNat 16 o).signExtend 56) (fun e => BitVec.ofNat 56 (e * 2 ^ 16 + bits o 0 16))
  formed formSI o (if op = 0x27 ∧ rs1 ≠ 0 then none else immSlot w op (bits o 22 6) rs1 imm)

/-- The width in bytes of a load or store by its opcode, and whether a load sign-extends. -/
def slotSM (w op o : Nat) : Option Slot :=
  let load (n : Nat) (signed : Bool) : Option Slot := loadSlot w n signed (bits o 22 6) (bits o 18 4) (o.testBit 17) (BitVec.ofNat 17 o)
  let keep (n : Nat) : Option Slot := storeSlot w n (bits o 22 6) (bits o 18 4) (o.testBit 17) (BitVec.ofNat 17 o)
  formed formSM o
    (match op with
     | 0x70 => load 1 true
     | 0x71 => load 1 false
     | 0x72 => load 2 true
     | 0x73 => load 2 false
     | 0x74 => load 4 true
     | 0x75 => load 4 false
     | 0x76 => load 8 true
     | 0x78 => keep 1
     | 0x79 => keep 2
     | 0x7A => keep 4
     | 0x7B => keep 8
     | _ => none)

/-- The operation of an atomic by its opcode. -/
def atomOf (op : Nat) : AtomOp :=
  match (op - 0x80) / 2 with
  | 0 => .add
  | 1 => .min
  | 2 => .minu
  | 3 => .max
  | 4 => .maxu
  | 5 => .swap
  | 6 => .cas
  | _ => .fadd

/-- An atomic of form SA. -/
def slotSA (w op o : Nat) : Option Slot :=
  formed formSA o (atomicSlot w (atomOf op) (if op % 2 = 0 then 4 else 8) (bits o 22 6) (bits o 18 4) (bits o 12 6) (BitVec.ofNat 12 o))

/-- An instruction of form SB. Fields of the form that the instruction does not use are ignored (DESIGN CHOICE, assumption 103). -/
def slotSB (w op o : Nat) : Option Slot :=
  formed formSB o
    (match op with
     | 0xA0 => brSlot w (BitVec.ofNat 22 o)
     | 0xA1 => callSlot w (BitVec.ofNat 22 o)
     | 0xA2 => brxSlot w (bits o 22 6)
     | _ => brxSlot w 63)

/-- The S slot (Table 3.11). -/
def slotS (w b : Nat) (ext : Option Nat) : Option Slot :=
  let op := bits b 32 8
  let o := bits b 0 28
  if ext.isSome && !(decide (0x20 ≤ op ∧ op ≤ 0x27)) then none
  else if op = 0 then formed [] o (some Slot.nop)
  else if op ≤ 0x16 then slotSR w op o
  else if 0x20 ≤ op ∧ op ≤ 0x27 then slotSI w op o ext
  else if 0x40 ≤ op ∧ op ≤ 0x49 ∨ 0x50 ≤ op ∧ op ≤ 0x5C ∨ 0x60 ≤ op ∧ op ≤ 0x62 then slotSR w op o
  else if 0x70 ≤ op ∧ op ≤ 0x7B then slotSM w op o
  else if 0x80 ≤ op ∧ op ≤ 0x8E then slotSA w op o
  else if 0xA0 ≤ op ∧ op ≤ 0xA3 then slotSB w op o
  else
    match op with
    | 0x90 => formed [(25, 3), (21, 4)] o (fenceSlot w (bits o 25 3) (bits o 21 4))
    | 0x91 => formed [(25, 3), (21, 4), (15, 6)] o (hurdleSlot w (bits o 25 3) (bits o 21 4) (bits o 15 6))
    | 0x92 => formed [(22, 6), (16, 6)] o (bwaitSlot w (bits o 22 6) (bits o 16 6))
    | 0x93 => formed [(22, 6), (16, 6)] o (btestSlot w (bits o 22 6) (bits o 16 6))
    | 0x94 => formed [(22, 6)] o (hpostSlot w (bits o 22 6))
    | 0x95 => formed [(22, 6)] o (hnextSlot w (bits o 22 6))
    | 0x96 => formed [(22, 6)] o (hdoneSlot w (bits o 22 6))
    | 0xA5 => formed [] o (exitSlot w)
    | 0xA6 => formed [] o (breakSlot w)
    | 0xC0 => formed [(22, 6), (0, 8)] o (rdsrSlot w (bits o 22 6) (bits o 0 8))
    | 0xC1 => formed [(16, 6), (0, 8)] o (wrsrSlot w (bits o 16 6) (bits o 0 8))
    | _ => none

/-- The V slot (Table 3.13); `const` is the constant of a fmt 2 bundle, which NOP and VSPLAT do not take (R142). An opcode that no row has is not legal. -/
def slotV (w b : Nat) (const : Option (BitVec 32)) : Option Slot :=
  let op := bits b 32 8
  let o := bits b 0 28
  if op = 0 then (if const.isSome then none else formed [] o (some Slot.nop))
  else if op = 0xB0 then (if const.isSome then none else formed [(23, 5), (17, 6), (5, 4)] o (vsplatSlot w (bits o 23 5) (bits o 17 6) (bits o 5 4)))
  else formed formVR o (vSlot w op ⟨bits o 23 5, bits o 18 5, bits o 13 5, bits o 10 3, o.testBit 9, bits o 5 4, bits o 0 5, const⟩)

/-- The M slot (Table 3.14). -/
def slotM (w b : Nat) : Option Slot :=
  let o := bits b 0 28
  match bits b 32 8 with
  | 0x00 => formed [] o (some Slot.nop)
  | 0x01 => formed [(24, 4), (20, 4), (14, 6), (10, 4), (6, 4), (5, 1), (4, 1)] o
      (mmacSlot w (bits o 24 4) (bits o 20 4) (bits o 14 6) (bits o 10 4) (bits o 6 4) (bits o 5 1) (o.testBit 4))
  | 0x02 => formed [(0, 2)] o (msetpSlot w (bits o 0 2))
  | 0x03 => formed [(22, 6), (16, 6), (5, 1)] o (mscaleSlot w (bits o 22 6) (bits o 16 6) (bits o 5 1))
  | 0x04 => formed [(24, 4), (18, 6), (14, 4), (12, 2), (11, 1), (10, 1)] o
      (mdrainSlot w (bits o 24 4) (bits o 18 6) (bits o 14 4) (bits o 12 2) (bits o 11 1) (o.testBit 10))
  | 0x05 => formed [(5, 1)] o (mzeroSlot w (bits o 5 1))
  | 0x06 => formed [] o (mwaitSlot w)
  | 0x20 => formed [(24, 4), (20, 4), (14, 6), (8, 6), (7, 1)] o
      (dmcopySlot w (bits o 24 4) (bits o 20 4) (bits o 14 6) (bits o 8 6) (o.testBit 7))
  | 0x21 => formed [(24, 4), (8, 6), (7, 1)] o (dm2dSlot w (bits o 24 4) (bits o 8 6) (o.testBit 7))
  | 0x22 => formed [(24, 4), (18, 6), (12, 6), (6, 6)] o (dmfillSlot w (bits o 24 4) (bits o 18 6) (bits o 12 6) (bits o 6 6))
  | 0x23 => formed [(22, 6)] o (dmwaitSlot w (bits o 22 6))
  | 0x40 => formed [(23, 5), (19, 4), (13, 6), (12, 1)] o (vldSlot w (bits o 23 5) (bits o 19 4) (bits o 13 6) (o.testBit 12))
  | 0x41 => formed [(23, 5), (19, 4), (13, 6), (12, 1), (11, 1)] o
      (vstSlot w (bits o 23 5) (bits o 19 4) (bits o 13 6) (o.testBit 12) (o.testBit 11))
  | 0x42 => formed [(24, 4), (5, 1)] o (tldSlot w (bits o 24 4) (bits o 5 1))
  | 0x43 => formed [(24, 4), (5, 1), (4, 1)] o (tstSlot w (bits o 24 4) (bits o 5 1) (o.testBit 4))
  | 0x60 => formed [(24, 4), (22, 2), (16, 6)] o (rpostSlot w (bits o 24 4) (bits o 22 2) (bits o 16 6))
  | _ => none

/-- The slots of a bundle with their guards, in the order S, V, M (R76); a header or a slot that is not legal gives a slot that is none. -/
def bundleSlots (w : Nat) (bundle : BitVec 128) : List (Nat × Option Slot) :=
  let n := bundle.toNat
  let s := bits n 80 40
  let v := bits n 40 40
  let m := bits n 0 40
  let guard (b : Nat) : Nat := bits b 28 4
  if bits n 122 6 ≠ 0 then [(0, none)]
  else
    match bits n 120 2 with
    | 0 => [(guard s, slotS w s none), (guard v, slotV w v none), (guard m, slotM w m)]
    | 1 => [(guard s, slotS w s (some v)), (guard m, slotM w m)]
    | 2 => if bits n 32 8 ≠ 0 then [(0, none)] else [(guard s, slotS w s none), (guard v, slotV w v (some (BitVec.ofNat 32 n)))]
    | _ => [(0, none)]

/-- Whether a bundle is not a legal instruction (R79). -/
def bundleIllegal (w : Nat) (bundle : BitVec 128) : Bool := (bundleSlots w bundle).any (·.2.isNone)

/-- CORE_ILLEGAL_INSTRUCTION: a bundle that is not legal reaches issue; one that is legal makes no such event. -/
def illegalBundle (w : Nat) (bundle : BitVec 128) (s : State) : State := if bundleIllegal w bundle then issue w [(0, none)] s else s

/-! ### The next bundle of a core (R72, R73) -/

/-- The bundle at a runner's PC in its die's program store. -/
def nextBundle (s : State) (w : Nat) : Option (BitVec 128) := ((s.progs.get? (dieOfRunner w)).elim [] (·.bundles))[(runnerAt s w).pc]?

/-- The runners of a core that can issue. -/
def issuers (s : State) (k : Nat) : List Nat := (runnersOf k).filter (canIssue s)

/-- The one that issued least recently; ties go to the lower number. -/
def leastRecent (s : State) : List Nat → Option Nat
  | [] => none
  | w :: ws =>
    match leastRecent s ws with
    | none => some w
    | some v => if (runnerAt s v).issued < (runnerAt s w).issued then some v else some w

/-- A core issues the next bundle of the runner whose turn it is, once the codes of its words are checked (R298); a step that it completes halts its runner again (R103). -/
def coreIssue (k : Nat) (s : State) : State :=
  match leastRecent s (issuers s k) with
  | none => s
  | some w =>
    match nextBundle s w with
    | none => fetchCheck w s
    | some b =>
      let d := dieOfRunner w
      let s := probe [(hiddenAddr d 0 ((runnerAt s w).pc * 16), 16)] [] s
      if inReset s d then s else stepDone w (issue w (bundleSlots w ((nextBundle s w).getD b)) s)

def execCoreIllegalInstruction (w : Nat) (bundle : BitVec 128) (s : State) : Host.Outcome State Fault Refusal :=
  .next (if w < 16384 then illegalBundle w bundle s else s)

end Sys2Proof.Machine
end

