-- ==== Sys2Proof/Machine/Plans.lean ====
section
/-! DEFINITION. The installs of lane plans and cabling plans, and of a coordinate, by descriptor (R326 to R328, R338, R344). -/

namespace Sys2Proof.Machine

/-- The longest lane plan whose counts of channels and nibs the layout of Table 11.8 can hold. -/
def planMost : Nat := 0x40_0000

/-- An accepted lane plan joins the installs; with none before it, it takes hold (R328 step 1, R33). -/
def planAccepted (d : Desc) (p : LanePlan) (s : State) : State :=
  let first := s.fabric.installing.isEmpty
  let s := modFab (fun b => { b with installing := b.installing ++ [(d.id, p)] }) s
  if first then planBegins s else s

/-- LANE_PLAN_INSTALL (R326, R327): the plan is read, over the length its header gives, and judged by Table 11.10. -/
def lanePlanInstall (addr : Nat) (d : Desc) (s : State) : State :=
  withOperands d [(addr, 64)] [] (fun s =>
    let n := Nat.max 64 (rdN s (addr + 12) 4)
    withOperands d [(addr, n)] [] (fun s =>
      let bs := Mem.read s.mem addr (Nat.min n planMost)
      let v := planVerdict s bs
      if v = 0 then planAccepted d (readPlan bs) s
      else rejectDesc d (if v = 0x07F1 then 2 else 1) v s) s) s

/-- LANE_PLAN_APPLY (R328 steps 2 to 5): draining and retuning are over. It waits while a changeover runs (R358). -/
def lanePlanApply (tuned : Bool) (s : State) : State :=
  match s.fabric.installing with
  | [] => s
  | (id, p) :: rest =>
    if s.light.change.busy then s
    else
      let s := unreachable s.fabric.stranded (if tuned then installTables p s else keepTables p s)
      let s := modFab (fun b => { b with installing := rest }) s
      let s := (descOf s id).elim s (fun d => if tuned then succeed d s else failDesc d 0x0705 s)
      planBegins (changeIfDue (if tuned then electPacer s else s))

/-- CABLING_PLAN_INSTALL (R338). -/
def cablingPlanInstall (addr : Nat) (d : Desc) (s : State) : State :=
  withOperands d [(addr, 144)] [] (fun s =>
    let bs := Mem.read s.mem addr 144
    if cablingGood bs then succeed d (cablingInstall bs s) else rejectDesc d 1 0x070E s) s

/-- COORD_ADOPT (R344); the pacer is that of the new coordinate (R431). -/
def coordAdopted (x y slot : Nat) (d : Desc) (s : State) : State := electPacer (coordAdopt x y slot d s)

def execCoordAdopt (h : Hdr) (x y slot : Nat) (s : State) : Host.Outcome State Fault Refusal :=
  .next (startDesc h 0x61 (coordAdopted x y slot) s)
def execLanePlanInstall (h : Hdr) (addr : Nat) (s : State) : Host.Outcome State Fault Refusal := .next (startDesc h 0x60 (lanePlanInstall addr) s)
def execLanePlanApply (tuned : Bool) (s : State) : Host.Outcome State Fault Refusal := .next (lanePlanApply tuned s)
def execCablingPlanInstall (h : Hdr) (addr : Nat) (s : State) : Host.Outcome State Fault Refusal :=
  .next (startDesc h 0x62 (cablingPlanInstall addr) s)

end Sys2Proof.Machine
end

