-- ==== Sys2Proof/Machine/Management.lean ====
section
/-! DEFINITION. The MCTP endpoint: addresses, vendor commands, and PLDM sensors (R339, R471, R473). -/

namespace Sys2Proof.Machine

/-! ### Addresses -/

/-- SETDASA: the dynamic address. -/
def setDasa (a : Nat) (s : State) : State := modSec (fun x => { x with dynAddr := some (a % 128) }) s

/-- Set Endpoint ID: ids 8 to 254 (DSP0236, PRESUMED, assumption 81). -/
def setEndpoint (eid : Nat) (s : State) : State :=
  if 8 ≤ eid ∧ eid < 255 then emit (.mctp 0 [0x00]) (modSec (fun x => { x with eid := eid }) s) else emit (.mctp 0 [0x02]) s

/-! ### Vendor commands (Table 16.11). The answer is the command's code and its completion: 0 done, 1 refused (assumption 81). -/

/-- SET_COORD: in assigned mode only. -/
def assignCoord (c : Nat) (s : State) : State :=
  if flag s .opxConfig F.opxConfig_mode then emit (.mctp 0x7E [0x04, 0x00]) (electPacer (setCoord (c % 4096) s)) else emit (.mctp 0x7E [0x04, 0x01]) s

/-- FORCE_RECOVERY. -/
def forceRecovery (s : State) : State := emit (.mctp 0x7E [0x05, 0x00]) (setF s .secFwCtl F.secFwCtl_force_recovery 1)

/-- GET_STATUS. -/
def getStatus (s : State) : State :=
  emit (.mctp 0x7E ([0x06, 0x00] ++ [Reg.secBootStatus, .lapStatus, .pwrState].flatMap (fun r => bytesLE 8 (viewReg s r).toNat))) s

/-! ### Sensors (Table 16.12), numbered in its order (assumption 82) -/

/-- The worst margin of the active source: how far below P0 its lowest line's mean is, in 0.01 dB. -/
def worstMargin (s : State) : Int :=
  (combLines.map (fun p => let l := lineAt s p.1 (activeSrc s) p.2
    match l.mean, l.p0 with
    | some m, some p0 => p0 - m
    | _, _ => 0)).foldl max 0

/-- Correctable errors of the last hour. -/
def hourErrors (s : State) : Nat := sumOf (s.memp.rows.map (fun l => (l.times.filter (fun t => decide (nowNs s < t + 3600 * 10 ^ 9))).length))

/-- What a sensor's register shows: 0 to 2 input power, voltage and auxiliary power; 3 to 22 each die's hottest sensor; 23 to 38 rungs; 39 the worst margin; 40 correctable
errors per hour; 41 the boot stage; 42 the power state. -/
def sensorNow (s : State) (id : Nat) : Int :=
  let view (r : Reg) (f : Fld) : Nat := f.of (viewReg s r)
  if id = 0 then view .pwrInput F.pwrInput_power_w
  else if id = 1 then view .pwrInput F.pwrInput_volts
  else if id = 2 then view .pwrInput F.pwrInput_aux_w
  else if id < 23 then sint 8 (view (.pwrDieThrottle (id - 3)) F.pwrDieThrottle_temp)
  else if id < 39 then view (.pwrDieThrottle (id - 23)) F.pwrDieThrottle_rung
  else if id = 39 then worstMargin s
  else if id = 40 then hourErrors s
  else if id = 41 then view .secBootStatus F.secBootStatus_stage
  else view .pwrState F.pwrState_state

/-- SENSOR_REFRESH. -/
def refreshSensors (s : State) : State :=
  let l := (List.range 43).map (fun i => (i, sensorNow s i))
  modSec (fun x => { x with sensors := l }) s

/-- The state of a reading by its thresholds: 0 normal, 1 warning, 2 critical, 3 fatal. The mode ceiling governs power; voltage and auxiliary power have no threshold of their own. -/
def sensorState (s : State) (id : Nat) (v : Int) : Nat :=
  let hot := getF s .pwrThermCfg F.pwrThermCfg_hot
  if id = 0 then (if (modeCeiling (getF s .pwrMode F.pwrMode_current) * 98 : Nat) ≤ v * 100 then 1 else 0)
  else if 3 ≤ id ∧ id < 23 then (if 115 ≤ v then 3 else if 110 ≤ v then 2 else if hot ≤ v then 1 else 0)
  else if 23 ≤ id ∧ id < 39 then (if 4 ≤ v then 1 else 0)
  else if id = 39 then (if margin s F.lgtThresh_red ≤ v then 2 else if margin s F.lgtThresh_amber ≤ v then 1 else 0)
  else 0

/-- A sensor read: completion, the reading as refreshed last, and its state; an id that names no sensor is answered with DSP0248's INVALID_SENSOR_ID (PRESUMED, assumption 82). -/
def sensorRead (id : Nat) (s : State) : State :=
  if id < 43 then
    let v := s.sec.sensors.get id 0
    emit (.mctp 1 ([0x00] ++ bytesLE 4 (wrap 32 v) ++ bytesLE 1 (sensorState s id v))) s
  else emit (.mctp 1 [0x80]) s

/-! ### The commands -/

def execSetdasa (addr : Nat) (s : State) : Host.Outcome State Fault Refusal := .next (setDasa addr s)
def execSetEndpointId (eid : Nat) (s : State) : Host.Outcome State Fault Refusal := .next (setEndpoint eid s)
def execSetCoord (coord : Nat) (s : State) : Host.Outcome State Fault Refusal := .next (assignCoord coord s)
def execForceRecovery (s : State) : Host.Outcome State Fault Refusal := .next (forceRecovery s)
def execGetStatus (s : State) : Host.Outcome State Fault Refusal := .next (getStatus s)
def execNumericSensorRead (id : Nat) (s : State) : Host.Outcome State Fault Refusal := .next (sensorRead id s)
def execSensorRefresh (s : State) : Host.Outcome State Fault Refusal := .next (refreshSensors s)

end Sys2Proof.Machine
end

