-- ==== Sys2Proof/Machine/QueueCtl.lean ====
section
/-! DEFINITION. The CXL port, the install and control of queues, the fetch of descriptors from their rings, and the emergency halt (R396, R401 to R407, R415, R416). -/

namespace Sys2Proof.Machine

/-! ### The CXL port (R396, R457, R463) -/

/-- CXL_LINK_TRAIN: `speed` as Table 14.11 codes it. The port does not train before stage 5; in recovery it runs CXL.io only. -/
def linkTrain (width speed : Nat) (cache mem : Bool) (s : State) : State :=
  if stage s < 5 ∨ 2 < speed ∨ ¬ ([1, 2, 4, 8].contains width) then s
  else
    let r := Reg.hifLinkStatus
    let cache := cache && !inRecovery s
    let mem := mem && !inRecovery s
    let low := speed = 0 ∨ cache = false ∨ mem = false
    let s := setF (setF s r F.hifLinkStatus_width width) r F.hifLinkStatus_speed speed
    let s := setF (setF s r F.hifLinkStatus_cache cache.toNat) r F.hifLinkStatus_mem mem.toNat
    let s := setF s r F.hifLinkStatus_degraded (if low then 1 else 0)
    if low then note 0x0A02 s else s

/-- The vendor, device, class code and revision of the configuration space (R396). -/
def configIds (s : State) : Nat × Nat × Nat × Nat := (0x1F3D, 0x2416, 0x120000, s.sec.part.stepMinor + 16 * s.sec.part.stepMajor)

/-! ### Queue installs (R401, R402) -/

/-- Whether a queue record is malformed (Table 14.3). Of a record with valid 0 only the reserved bits are checked. -/
def recordBad (b : List Byte) : Bool :=
  let reserved := bits (field b 16 1) 5 3 != 0 || bits (field b 17 1) 5 3 != 0 || bits (field b 19 1) 3 5 != 0 || field b 20 12 != 0
  let log (v : Nat) : Bool := decide (4 ≤ v % 32 ∧ v % 32 ≤ 16)
  let shape := log (field b 16 1) && log (field b 17 1) && field b 0 8 % 4096 == 0 && field b 8 8 % 4096 == 0
  reserved || ((field b 19 1).testBit 0 && !shape)

/-- A queue as its record defines it. -/
def recordQueue (b : List Byte) : Queue :=
  let f := field b 19 1
  if f.testBit 0 then
    { Queue.absent with
      state := .disabled, sqBase := field b 0 8, cqBase := field b 8 8, sqLog := field b 16 1 % 32, cqLog := field b 17 1 % 32,
      vector := field b 18 1, priv := f.testBit 1, intEn := f.testBit 2 }
  else Queue.absent

/-- A queue install (R402). Records that the memory refuses are a malformed install (assumption 123). -/
def queueInstall (s : State) : State :=
  let r := Reg.hifQueueInstallCtl
  let first := getF s r F.hifQueueInstallCtl_first
  let count := getF s r F.hifQueueInstallCtl_count
  let status (v : Nat) (s : State) : State := setF s r F.hifQueueInstallCtl_status v
  if 128 < first + count then status 3 (reject 0x0AF1 s)
  else
    let a := getF s .hifQueueInstallAddr F.hifQueueInstallAddr_addr * 32
    let s := readChecked 16 [(a, 32 * count)] [] s
    let recs := pieces 32 count (Mem.read s.mem a (32 * count))
    let live (q : Nat) : Bool := (queueAt s q).state != .absent && (queueAt s q).state != .disabled
    if count = 0 ∨ !mapped s a (32 * count) ∨ (memoryRefuses s 16 [(a, 32 * count)] []).isSome ∨ recs.any recordBad ∨ (List.range count).any (fun i => live (first + i)) then status 4 (reject 0x0A17 s)
    else status 2 (each recs.zipIdx (fun p s => setQueue s (first + p.2) (recordQueue p.1)) s)

/-- A write of HIF_QUEUE_INSTALL_CTL (R402, R501): go is ignored once setup is locked. -/
def queueInstallWrite (val : Word) (s : State) : State :=
  let r := Reg.hifQueueInstallCtl
  let s := lockNote r val s
  let s := setReg s r (written r (regVal s r) (lockedVal s r val))
  if F.hifQueueInstallCtl_go.of val = 1 ∧ setupLocked s = false then queueInstall s else s

/-! ### Queue control (R403) -/

/-- A queue is enabled: Disabled to Running, its indices 0 and its phase 1. -/
def queueEnable (q : Nat) (s : State) : State :=
  let r := queueAt s q
  if r.state = .disabled then
    setQueue s q { r with state := .running, sqHead := 0, sqTail := 0, cqHead := 0, cqTail := 0, phase := true }
  else s

/-- A LAUNCH some of whose shares still wait is cancelled: those never start, and those that run are tracked no longer. -/
def cancelLaunch (l : Launch) (s : State) : State :=
  launchCheck (endLaunch l 5 0 { s with shares := s.shares.filter (·.launch != l.id) })

/-- Whether a post was made by a descriptor of a queue. -/
def queuePost (s : State) (q : Nat) (p : Post) : Bool :=
  match p.poster with
  | .queue d => (descOf s d).any (·.q == q)
  | .runner .. => false
  | .lapBlock => false

/-- The descriptors of a queue that wait in a pool are cancelled (R403). -/
def cancelWaiting (q : Nat) (s : State) : State :=
  let mine (d : Nat) : Bool := (descOf s d).any (·.q == q)
  let s' := each (s.launches.filter (fun l => mine l.desc && s.shares.any (·.launch == l.id))) cancelLaunch s
  let s' := each (List.range 4) (fun e s' => each ((engineAt s e).posts.filter (queuePost s q)) (cancelPost e) s') s'
  each (s.lap.opens.filter (fun r => mine r.desc)) cancelOpen s'

/-- A queue is disabled: Running or Frozen to Stopping. -/
def queueDisable (q : Nat) (s : State) : State :=
  let r := queueAt s q
  if r.state = .running ∨ r.state = .frozen then cancelWaiting q (setQueue s q { r with state := .stopping }) else s

/-- A Frozen queue resumes, from the descriptor after the one that froze it. -/
def queueResume (q : Nat) (s : State) : State :=
  let r := queueAt s q
  if r.state = .frozen then setQueue s q { r with state := .running } else s

/-- A write of HIF_Q_q_CTL (Table 14.16): only the first of disable, resume and enable acts. -/
def queueCtl (q : Nat) (v : Word) (s : State) : State :=
  if 128 ≤ q then s
  else if F.hifQCtl_disable.of v = 1 then queueDisable q s
  else if F.hifQCtl_resume.of v = 1 then queueResume q s
  else if F.hifQCtl_enable.of v = 1 then queueEnable q s
  else s

/-! ### Fetching descriptors (R403 to R407) -/

/-- The bits that a descriptor's header and its opcode's row of Table 14.6 define, as first bit and width; none for a reserved opcode. -/
def definedBits (op : Nat) : Option (List (Nat × Nat)) :=
  match op with
  | 0x01 => some []
  | 0x02 => some []
  | 0x10 => some [(64, 64), (128, 16)]
  | 0x11 => some [(64, 16), (80, 8), (88, 1), (96, 16), (128, 64), (192, 64)]
  | 0x12 => some [(64, 16), (80, 16), (96, 8), (128, 64)]
  | 0x20 => some [(64, 64), (128, 64), (192, 64)]
  | 0x21 => some [(64, 64), (128, 64), (192, 64)]
  | 0x30 => some [(64, 64), (128, 2)]
  | 0x31 => some [(64, 16)]
  | 0x40 => some [(64, 32)]
  | 0x41 => some [(64, 32), (96, 1)]
  | 0x42 => some [(64, 32)]
  | 0x50 => some [(64, 64), (128, 2)]
  | 0x51 => some [(64, 64), (128, 2)]
  | 0x60 => some [(64, 64)]
  | 0x61 => some [(64, 8), (72, 8)]
  | 0x62 => some [(64, 64)]
  | 0x70 => some [(64, 12), (80, 13), (96, 32), (128, 64), (192, 1)]
  | 0x80 => some [(64, 8), (72, 3), (80, 2), (88, 8), (128, 64), (192, 64)]
  | 0x81 => some [(64, 8)]
  | 0x90 => some [(64, 1), (72, 16)]
  | _ => none

/-- Whether a descriptor of 64 bytes has a reserved opcode or a reserved bit set (R404, R406). -/
def badDescriptor (bs : List Byte) : Bool :=
  match definedBits (field bs 0 1) with
  | none => true
  | some l => field bs 0 64 != sumOf (((0, 8) :: (8, 1) :: (32, 32) :: l).map (fun p => bits (field bs 0 64) p.1 p.2 * 2 ^ p.1))

/-- What a descriptor of Table 14.6 does, from its bytes. -/
def descriptorBody (bs : List Byte) : Desc → State → State :=
  let f (o n : Nat) : Nat := field bs o n
  match f 0 1 with
  | 0x01 => succeed
  | 0x02 => succeed
  | 0x10 => loadProgram (f 8 8) (f 16 2)
  | 0x11 => launch (f 8 2) (f 10 1) ((f 11 1).testBit 0) (f 12 2) (f 16 8) (BitVec.ofNat 64 (f 24 8))
  | 0x12 => haltRunners (f 8 2) (f 10 2) (f 12 1) (f 16 8)
  | 0x20 => copyDesc (f 8 8) (f 16 8) (f 24 8)
  | 0x21 => fillDesc (f 8 8) (BitVec.ofNat 64 (f 16 8)) (f 24 8)
  | 0x30 => relayDesc (fun x => decide (x.kind < 6)) (f 8 8) (f 16 1 % 4)
  | 0x31 => layoutInstall (f 8 2)
  | 0x40 => lapOpen (f 8 4)
  | 0x41 => lapVote (f 8 4) ((f 12 1).testBit 0)
  | 0x42 => lapAbort (f 8 4)
  | 0x50 => relayDesc (fun x => x.kind == 6 && decide (x.op < 3)) (f 8 8) (f 16 1 % 4)
  | 0x51 => relayDesc (fun x => x.kind == 6 && x.op == 3) (f 8 8) (f 16 1 % 4)
  | 0x60 => lanePlanInstall (f 8 8)
  | 0x61 => coordAdopted (f 8 1 % 16) (f 8 1 / 16) (f 9 1)
  | 0x62 => cablingPlanInstall (f 8 8)
  | 0x70 => censusRead (f 8 2 % 4096) (f 10 2 % 8192) (f 12 4) (f 16 8) ((f 24 1).testBit 0)
  | 0x80 => windowGrant (f 8 1) (f 9 1) (f 10 1) (f 11 1) (f 16 8) (f 24 8)
  | 0x81 => windowRevoke (f 8 1)
  | 0x90 => pacerSet (f 8 1) (f 9 2)
  | _ => fun _ s => s

/-- DESCRIPTOR_FETCH: the descriptor at the queue's head is read from host memory, checked, and started. `good` is whether the CXL.cache read succeeds. -/
def descriptorFetch (q : Nat) (good : Bool) (s : State) : State :=
  let bs := nextBytes s q
  let op := field bs 0 1
  let h : Hdr := ⟨q, BitVec.ofNat 32 (field bs 4 4), (field bs 1 1).testBit 0⟩
  if !mayStart s q 0x01 then s
  else if !good then
    let (d, s) := begin ⟨q, 0, false⟩ 0 s
    freezeQueue d 0x0A18 0 s
  else if badDescriptor bs then
    if mayStart s q op then
      let (d, s) := begin h op s
      failDesc d 0x0A10 s
    else s
  else if relayWaits s bs then s
  else startDesc h op (descriptorBody bs) s

/-! ### The emergency halt (R415, R416) -/

/-- Whether a relay that a halt cancels stops an open lap (R212, R217). -/
def haltStopsLap (s : State) : Bool :=
  s.relays.engines.any (fun g => g.2.slots.any (fun p => !p.2.post.ext.lapless) || g.2.posts.any (fun p => !p.ext.lapless)) &&
  !(openLaps s).isEmpty

/-- Every runner that is Ready, Waiting or Halted is Halted with cause 15. -/
def haltAll (s : State) : State :=
  { s with
    runners := s.runners.map (fun p =>
      let r := p.2
      (p.1, if r.state = .ready ∨ r.state = .waiting ∨ r.state = .halted then
          { r with state := .halted, cause := 15, stepArm := false, stepIssued := false } else r))
    cores := s.cores.map (fun c => if s.runners.any (fun p => coreOf p.1 == c.1 && p.2.stepIssued) then (c.1, { c.2 with stepDone := true }) else c) }

/-- Resumes that an out-of-band drain holds back act no more, and a HALT_RUNNERS resume that waits for one completes with 0x0A20. -/
def dropResumes (s : State) : State :=
  let waiting := s.halts.filter (·.action == 1)
  let s := { s with
    halts := s.halts.filter (·.action != 1)
    cores := s.cores.map (fun p => (p.1, { p.2 with held := [] })) }
  each waiting (fun h s => (descOf s h.desc).elim s (fun d => complete d 1 0x0A20 [] s)) s

/-- A write of halt: one record, and the module stops. -/
def emergencySet (s : State) : State :=
  let r := Reg.hifEmergencyHalt
  if flag s r F.hifEmergencyHalt_active then s
  else
    let s := raise { code := 0x0A20, cont := if haltStopsLap s then contV else contF } (setF s r F.hifEmergencyHalt_active 1)
    let s := each (liveLinks s) (fun l => freezeIn l 1) s
    cancelAll (dropResumes (haltAll s))

/-- A write of release: accepted only when done reads 1. -/
def emergencyClear (s : State) : State := if haltDone s then setF s .hifEmergencyHalt F.hifEmergencyHalt_active 0 else s

/-- A write of HIF_EMERGENCY_HALT (Table 14.15), or its MCTP command: halt, then release. -/
def emergencyWrite (v : Word) (s : State) : State :=
  let s := if F.hifEmergencyHalt_halt.of v = 1 then emergencySet s else s
  if F.hifEmergencyHalt_release.of v = 1 then emergencyClear s else s

/-! ### The commands -/

def execCxlLinkTrain (width speed : Nat) (cache mem : Bool) (s : State) : Host.Outcome State Fault Refusal := .next (linkTrain width speed cache mem s)
def execQueueInstallGo (val : BitVec 32) (s : State) : Host.Outcome State Fault Refusal := 
  .next (regWrite .hifQueueInstallCtl (queueInstallWrite (val.setWidth 64)) s)
def execQueueEnable (q : Nat) (val : BitVec 64) (s : State) : Host.Outcome State Fault Refusal := 
  .next (regWrite (.hifQCtl q) (queueCtl q val) s)
def execQueueDisable (q : Nat) (val : BitVec 64) (s : State) : Host.Outcome State Fault Refusal := 
  .next (regWrite (.hifQCtl q) (queueCtl q val) s)
def execQueueResume (q : Nat) (val : BitVec 64) (s : State) : Host.Outcome State Fault Refusal := 
  .next (regWrite (.hifQCtl q) (queueCtl q val) s)
def execDescriptorFetch (q : Nat) (good : Bool) (s : State) : Host.Outcome State Fault Refusal := .next (descriptorFetch q good s)
def execEmergencyHalt (val : BitVec 32) (s : State) : Host.Outcome State Fault Refusal := 
  .next (regWrite .hifEmergencyHalt (emergencyWrite (val.setWidth 64)) s)
def execEmergencyRelease (val : BitVec 32) (s : State) : Host.Outcome State Fault Refusal := 
  .next (regWrite .hifEmergencyHalt (emergencyWrite (val.setWidth 64)) s)

end Sys2Proof.Machine
end

