-- ==== Sys2Proof/Machine/Registers.lean ====
section
/-! DEFINITION. Accesses of BAR0 (R9 to R12, R39, R40, R501): every register by its own rule, the MSI-X table, and the recovery window; the setup lock, stall timeouts, and error watches (R36, R41, R499). -/

namespace Sys2Proof.Machine

/-! ### Writes -/

/-- A write by the access codes alone (R10, R501). -/
def fieldsWrite (r : Reg) (v : Word) (s : State) : State :=
  let s := lockNote r v s
  setReg s r (written r (regVal s r) (lockedVal s r v))

/-- A write of MEM_ECC_CTL: one that carries dram_mode 3 is ignored whole (Table 10.7), looked at after the lock (R501). -/
def eccCtlWrite (v : Word) (s : State) : State :=
  let r := Reg.memEccCtl
  let s := lockNote r v s
  let v := lockedVal s r v
  if F.memEccCtl_dram_mode.of v = 3 then reject 0x040E s else setReg s r (written r (regVal s r) v)

/-- The codes of Table 18.5. -/
def errorCodes : List Nat :=
  [0x0101, 0x0102, 0x0103, 0x0104, 0x0105, 0x0106, 0x0107, 0x0109, 0x0111, 0x0112, 0x0113, 0x0114, 0x0120, 0x0121, 0x0122, 0x01F2,
   0x0201, 0x0202, 0x0203, 0x0204, 0x0205] ++
  [0x0301, 0x0302, 0x0303, 0x0304, 0x0305, 0x0306, 0x0307, 0x03F1, 0x0401, 0x0402, 0x0403, 0x0404, 0x0405, 0x0406, 0x0407, 0x0408, 0x0409,
   0x040A, 0x040B, 0x040C, 0x040D, 0x040E, 0x0410, 0x0412, 0x0413] ++
  [0x0501, 0x0502, 0x0503, 0x0504, 0x0505, 0x0506, 0x0507, 0x0508, 0x0509, 0x050A, 0x050B, 0x050C, 0x050D, 0x050E, 0x05F2, 0x0601, 0x0602,
   0x0603, 0x0604, 0x0605, 0x0606, 0x0607, 0x0608, 0x0609, 0x060A, 0x060B, 0x060C, 0x06F2] ++
  [0x0701, 0x0702, 0x0703, 0x0704, 0x0705, 0x0706, 0x0707, 0x0708, 0x0709, 0x070B, 0x070C, 0x070D, 0x070E, 0x0710, 0x0711, 0x0712, 0x0713,
   0x0714, 0x0715, 0x07F1, 0x0801, 0x0802, 0x0803, 0x0804, 0x0805, 0x0806, 0x0807, 0x0809, 0x080A] ++
  [0x0901, 0x0902, 0x0903, 0x0904, 0x0905, 0x0906, 0x0907, 0x0908, 0x0909, 0x090A, 0x090B, 0x0A02, 0x0A10, 0x0A11, 0x0A12, 0x0A13, 0x0A14,
   0x0A15, 0x0A16, 0x0A17, 0x0A18, 0x0A19, 0x0A20, 0x0A30, 0x0A31, 0x0A32, 0x0A40, 0x0A41, 0x0AF1] ++
  [0x0B01, 0x0B02, 0x0B03, 0x0B04, 0x0B05, 0x0B06, 0x0B07, 0x0B08, 0x0C01, 0x0C02, 0x0C03, 0x0C04, 0x0C05, 0x0C06, 0x0C07, 0x0C08, 0x0C09,
   0x0C0A, 0x0C0B, 0x0C0C, 0x0D01, 0x0D02, 0x0D03, 0x0D04, 0x0D05, 0x0D06, 0x0D07, 0x0D08, 0x0D09, 0x0D10]

/-- A write of ERR_WATCH_i_CFG (R499). One that is accepted begins afresh: its count is 0 (DEDUCED, assumption 76). -/
def watchWrite (i : Nat) (v : Word) (s : State) : State :=
  let r := Reg.errWatchCfg i
  let code := F.errWatchCfg_code.of v
  if 16 ≤ i then s
  else if F.errWatchCfg_enable.of v = 1 ∧ (!errorCodes.contains code ∨ F.errWatchCfg_threshold.of v = 0 ∨ F.errWatchCfg_window.of v = 0) then
    raise { code := 0x0A41, cont := contX, detail := i * 2 ^ 40 + code * 2 ^ 48 } s
  else setF (setReg s r (written r (regVal s r) v)) (.errWatchStatus i) F.errWatchStatus_count 0

/-- WATCH_WINDOW_CLOSE: the window's seconds have passed (R499). -/
def watchClose (i : Nat) (s : State) : State := if i < 16 then setF s (.errWatchStatus i) F.errWatchStatus_count 0 else s

/-- A 1 written to the collision bit of a mailbox word clears it (Table 14.19). -/
def collisionClear (v : Word) (s : State) : State :=
  if F.mbxInMeta_collision.of v = 1 then
    modMbx (fun m => { m with legacy := m.legacy.set 0 { m.legacy.get 0 Mailbox.empty with collision := false } }) s
  else s

/-- Bits of MBX_DOORBELL written 1 are cleared (R420). -/
def bellsClear (v : Word) (s : State) : State :=
  let old := s.host.mbx.bells.get 0 0
  modMbx (fun m => { m with bells := m.bells.set 0 (old ^^^ (old &&& v.setWidth 32)) }) s

/-- A write of a register, by the rule of that register (R10). -/
def writeAt (r : Reg) (v : Word) (s : State) : State :=
  match r with
  | .cmpMemInterleave d => interleaveWrite d (v.setWidth 32) s
  | .cmpCoreStatus k => if F.cmpCoreStatus_step_done.of v = 1 then modCore k (fun c => { c with stepDone := false }) s else s
  | .cmpCoreCtl k => coreCtl k v s
  | .cmpCoreDbgData k => dbgWrite k v s
  | .cmpCoreOdrainCtl k => odrainCtlWrite k v s
  | .cmpVecSnap d => vecSnapWrite d v s
  | .cmpVecGenCtl d => vecReseed d (v.setWidth 32) s
  | .lapCensusInstallCtl => censusGo v s
  | .lapScaleTableBase => scaleTableWrite v s
  | .lapNext => lapNextWrite (v.setWidth 32) s
  | .lapRecordBase => lapBaseWrite 0 v s
  | .lapClipBase => lapBaseWrite 1 v s
  | .lapCtl => unsealWrite (v.setWidth 32) s
  | .lapRegionBase r copy => regionBaseWrite r copy v s
  | .lapRegionCfg r => regionCfgWrite r v s
  | .colCancelCtl e => relayCancel e (v.setWidth 32) s
  | .cmpStageCfg d i => stageWrite d i 0 v s
  | .cmpStageQueue d i j => stageWrite d i (j + 1) v s
  | .memEccCtl => eccCtlWrite v s
  | .opxFibreCtl f => fibreCtl f v s
  | .lgtCombCtl => combCtl (v.setWidth 32) s
  | .lgtThresh => threshWrite v s
  | .swlCtl x => swlCtlWrite x (v.setWidth 32) s
  | .swlArb x => arbWrite (.swl x) v s
  | .cmpMeshArb d a => arbWrite (.mesh d (a / 5) (a % 5)) v s
  | .hifQueueInstallCtl => queueInstallWrite v s
  | .hifEmergencyHalt => emergencyWrite v s
  | .hifQCtl q => queueCtl q v s
  | .mbxInLegacyMeta => collisionClear v s
  | .mbxDoorbell => bellsClear v s
  | .mbxDbMask => modMbx (fun m => { m with masks := m.masks.set 0 (v.setWidth 32) }) s
  | .mbxOutMeta r => mailboxPost 0 r (regVal s (.mbxOutPtr r)) (v.setWidth 32) s
  | .mbxOutState r => if F.mbxOutState_clear.of v = 1 then stateClear 0 r false s else s
  | .mbxLegacyOutMeta r => legacyPost 0 r (regVal s (.mbxLegacyOutPtr r)) (v.setWidth 32) s
  | .mbxLegacyOutState r => if F.mbxOutState_clear.of v = 1 then stateClear 0 r true s else s
  | .timCtl => timCtlWrite v s
  | .timSet => timSet v s
  | .pwrMode => modeChange (v.setWidth 32) s
  | .pwrState => pwrStateWrite v s
  | .pwrResetCtl => resetCtl v s
  | .pwrCoreReset => coreResetWrite (v.setWidth 32) s
  | .pwrThermCfg => thermCfgWrite v s
  | .secSvn => svnWrite v s
  | .secFwCtl => fwCtlWrite v s
  | .secRecoveryCtl => recoveryWrite v s
  | .secDebugToken => tokenWrite v s
  | .errWatchCfg i => watchWrite i v s
  | r => fieldsWrite r v s

/-- A word with one 32-bit half replaced by a value; in the other half RW and RWL fields carry what they hold, and every other bit is 0. -/
def halfWord (s : State) (r : Reg) (high : Bool) (v : Nat) : Word :=
  let stay := (r.fields.filter (fun f => f.acc == .rw || f.acc == .rwl)).foldl (fun w f => w ||| f.mask) 0
  let old := (match r with
    | .cmpCoreDbgData k => dbgRead s k
    | r => regVal s r) &&& stay
  let m : Word := 0xFFFFFFFF
  if high then (old &&& m) ||| (BitVec.ofNat 64 (v % 2 ^ 32) <<< 32) else (old &&& ~~~ m) ||| BitVec.ofNat 64 (v % 2 ^ 32)

/-- An MSI-X vector's entry changed; a pending message is sent once it is unmasked (in the standard PCIe layout). -/
def msixWrite (word v : Nat) (s : State) : State :=
  let i := word / 4
  let e := s.msix.get i ⟨0, 0, 1, false⟩
  let v32 := BitVec.ofNat 32 v
  let lo (a : BitVec 64) : BitVec 64 := a &&& 0xFFFFFFFF
  let e := match word % 4 with
    | 0 => { e with addr := (e.addr &&& ~~~ 0xFFFFFFFF) ||| (v32.setWidth 64 &&& ~~~ 3) }
    | 1 => { e with addr := lo e.addr ||| (v32.setWidth 64 <<< 32) }
    | 2 => { e with data := v32 }
    | _ => { e with ctl := v32 &&& 1 }
  let send := e.pend && !e.ctl.getLsbD 0
  let s := { s with msix := s.msix.set i (if send then { e with pend := false } else e) }
  if send then emit (.msix i) s else s

/-- A 32-bit write at an aligned offset. -/
def writeWord (off v : Nat) (s : State) : State :=
  if 0x18000 ≤ off ∧ off < 0x19000 then msixWrite ((off - 0x18000) / 4) v s
  else if 0xC0000 ≤ off ∧ off < 0x100000 then windowWrite (off - 0xC0000) (bytesLE 4 v) s
  else
    match regAt off, regAt (off - 4) with
    | some r, _ => regWrite r (fun s => writeAt r (if r.wide then halfWord s r false v else BitVec.ofNat 64 (v % 2 ^ 32)) s) s
    | none, some r => if off % 8 = 4 ∧ r.wide then regWrite r (fun s => writeAt r (halfWord s r true v) s) s else s
    | none, none => s

/-- A BAR0 write of any size: 4 or 8 bytes, aligned; any other is ignored (R9). One of 8 bytes over two registers acts on the low one first (DESIGN CHOICE, assumption 100). -/
def barWrite (off size : Nat) (v : Word) (s : State) : State :=
  if size = 4 ∧ off % 4 = 0 then writeWord off (v.toNat % 2 ^ 32) s
  else if size = 8 ∧ off % 8 = 0 then
    match regAt off with
    | some r => if r.wide then regWrite r (writeAt r v) s else writeWord (off + 4) (v.toNat / 2 ^ 32) (writeWord off (v.toNat % 2 ^ 32) s)
    | none => writeWord (off + 4) (v.toNat / 2 ^ 32) (writeWord off (v.toNat % 2 ^ 32) s)
  else s

/-! ### Reads -/

/-- What a read does to a register: fields of access RC in a half that is read take their cold value; a mailbox word takes the notice (R418), and TIM_NOW latches its fraction (Table 15.11). -/
def readEffect (r : Reg) (low high : Bool) (s : State) : State :=
  let s := (r.fields.filter (fun f => f.acc == .rc && (if f.lo < 32 then low else high))).foldl (fun s f => setF s r f f.cold) s
  match r with
  | .mbxInMeta p => if high then tagRead 0 p s else s
  | .mbxInLegacyMeta => if high then tagRead 0 31 s else s
  | .timNow => timNowRead s
  | _ => s

/-- A register is read: all ones while its die is in reset (R40), a free value while its die is power-gated (assumption 75). -/
def readReg (r : Reg) (low high : Bool) (s : State) : Word × State :=
  if inReset s r.holder then (allOnes r, s)
  else if gatedNow s r.holder then (if r.wide then freeOf s else freeOf s &&& 0xFFFFFFFF, freeTaken s)
  else (viewReg s r, readEffect r low high s)

/-- A word of the MSI-X table or of its pending bits. -/
def msixRead (s : State) (off : Nat) : Nat :=
  if off < 0x19000 then
    let e := s.msix.get ((off - 0x18000) / 16) ⟨0, 0, 1, false⟩
    match off / 4 % 4 with
    | 0 => e.addr.toNat % 2 ^ 32
    | 1 => e.addr.toNat / 2 ^ 32
    | 2 => e.data.toNat
    | _ => e.ctl.toNat
  else
    let w := (off - 0x19000) / 4
    if w < 8 then maskOf ((List.range 32).filter (fun b => (s.msix.get (w * 32 + b) ⟨0, 0, 1, false⟩).pend)) else 0

/-- A 32-bit read at an aligned offset. The recovery window is not read back (assumption 77). -/
def readWord (off : Nat) (s : State) : Nat × State :=
  if 0x18000 ≤ off ∧ off < 0x1A000 then (msixRead s off, s)
  else
    match regAt off, regAt (off - 4) with
    | some r, _ =>
      let (w, s) := readReg r true false s
      (w.toNat % 2 ^ 32, s)
    | none, some r =>
      if off % 8 = 4 ∧ r.wide then
        let (w, s) := readReg r false true s
        (w.toNat / 2 ^ 32, s)
      else (0, s)
    | none, none => (0, s)

/-- A BAR0 read: 4 or 8 bytes, aligned; any other returns 0 (R9). One of 8 bytes over two registers reads the low one first (DESIGN CHOICE, assumption 100). What it returns is the model's `resp`. -/
def barRead (off size : Nat) (s : State) : State :=
  let pair (s : State) : State :=
    let (a, s) := readWord off s
    let (b, s) := readWord (off + 4) s
    { s with resp := BitVec.ofNat 64 (a + b * 2 ^ 32) }
  if size = 4 ∧ off % 4 = 0 then
    let (a, s) := readWord off s
    { s with resp := BitVec.ofNat 64 a }
  else if size = 8 ∧ off % 8 = 0 then
    match regAt off with
    | some r =>
      if r.wide then
        let (w, s) := readReg r true true s
        { s with resp := w }
      else pair s
    | none => pair s
  else { s with resp := 0 }

/-! ### Stall timeouts (R34 to R37, R41) -/

/-- Whether a request that waits has reached its stall timeout and has no record yet (R36). -/
def stalls (s : State) (timeout : Nat) (done : Bool) : Bool := timeout != 0 && !done && decide (timeout ≤ nowNs s)

/-- The master that posted a relay: a runner, a queue, or none for the lap block (Table 18.1). -/
def posterMaster (s : State) : Poster → Nat × Nat
  | .runner w _ => (1, w)
  | .queue d => (2, (descOf s d).elim 0 (·.q))
  | .lapBlock => (0, 0)

/-- The record of a request that waits for a relay slot: the engine is its source die, the request its poster and tag; it holds no slot to be named by (assumption 78). -/
def relayStall (e req : Nat) (s : State) : State :=
  match (engineAt s e).posts[req]? with
  | none => s
  | some p =>
    if stalls s p.timeout p.stalled then
      let m := posterMaster s p.poster
      raise { relayErr s e 0 p.ext 0x05F2 0 0 0 with cont := contL, mkind := m.1, midx := m.2 }
        (modEngine e (fun g => { g with posts := g.posts.set req { p with stalled := true } }) s)
    else s

/-- The record of a post that waits for a heat table entry: after the PC of a runner's stand the stage, the direction, the heat and the segment (assumption 78). -/
def heatStall (req : Nat) (s : State) : State :=
  match s.heat.posts[req]? with
  | none => s
  | some p =>
    if stalls s p.timeout p.stalled then
      let what := p.stage % 256 * 2 ^ 32 + p.back.toNat * 2 ^ 40 + p.heat % 2 ^ 32 * 2 ^ 64 + p.seg % 2 ^ 32 * 2 ^ 96
      let e : Err := match p.runner with
        | some w => { code := 0x01F2, cont := contL, die := dieOfRunner w, mkind := 1, midx := w, detail := (runnerAt s w).pc + what }
        | none => { code := 0x01F2, cont := contL, detail := what }
      raise e { s with heat := { s.heat with posts := s.heat.posts.set req { p with stalled := true } } }
    else s

/-- The record of a LAUNCH share that waits for runners: the LAUNCH's queue is its master, and its core and LAUNCH_ID stand in the detail bytes (assumption 78). -/
def shareStall (k req : Nat) (s : State) : State :=
  match (s.shares.filter (·.core == k))[req]? with
  | none => s
  | some x =>
    if stalls s x.timeout x.stalled then
      let l := s.launches.find? (·.id == x.launch)
      let q := l.elim 0 (fun l => (descOf s l.desc).elim 0 (·.q))
      raise { code := 0x01F2, cont := contL, die := k / 64, mkind := 2, midx := q, detail := k * 2 ^ 32 + l.elim 0 (·.lid.toNat) * 2 ^ 64 }
        { s with shares := s.shares.map (fun y => if y = x then { y with stalled := true } else y) }
    else s

/-- The record of a LAP_OPEN that waits as a lap in flight. -/
def openStall (req : Nat) (s : State) : State :=
  match s.lap.opens[req]? with
  | none => s
  | some o =>
    if stalls s o.timeout o.stalled then
      let e : Err := { code := 0x06F2, cont := contL, mkind := 2, midx := (descOf s o.desc).elim 0 (·.q), lap := o.lap }
      raise e (modLap (fun l => { l with opens := l.opens.set req { o with stalled := true } }) s)
    else s

/-- STALL_TIMEOUT_EXPIRY: `req` numbers the requests of the pool from the oldest (R34). -/
def stallExpiry (pool : Pool) (req : Nat) (s : State) : State :=
  match pool with
  | .relay e => if e < 4 then relayStall e req s else s
  | .heat => heatStall req s
  | .runner k => shareStall k req s
  | .lap => openStall req s

/-! ### The commands -/

def execRegisterWrite (off size : Nat) (val : BitVec 64) (s : State) : Host.Outcome State Fault Refusal := .next (barWrite off size val s)
def execRcFieldRead (off size : Nat) (s : State) : Host.Outcome State Fault Refusal := .next (barRead off size s)
def execDevSetupLockSet (val : BitVec 32) (s : State) : Host.Outcome State Fault Refusal :=
  .next (regWrite .devSetupLock (fieldsWrite .devSetupLock (val.setWidth 64)) s)
def execStallTimeoutWrite (val : BitVec 64) (s : State) : Host.Outcome State Fault Refusal :=
  .next (regWrite .devStallTimeout (fieldsWrite .devStallTimeout val) s)
def execStallTimeoutExpiry (pool : Pool) (req : Nat) (s : State) : Host.Outcome State Fault Refusal := .next (stallExpiry pool req s)
def execWatchWrite (i : Nat) (val : BitVec 64) (s : State) : Host.Outcome State Fault Refusal :=
  .next (regWrite (.errWatchCfg i) (watchWrite i val) s)
def execWatchWindowClose (i : Nat) (s : State) : Host.Outcome State Fault Refusal := .next (watchClose i s)

end Sys2Proof.Machine
end

