-- ==== Sys2Proof/Machine/Dispatch.lean ====
section
/-! DEFINITION. The one dispatch from a command to its meaning: one arm for each constructor of `Instr`. -/

namespace Sys2Proof.Machine

/-- A command's effect on everything but the queue. -/
def exec (i : Instr) (s : State) : Host.Outcome State Fault Refusal :=
  match i with
  | .registerWrite off size val => Sys2Proof.Machine.execRegisterWrite off size val s
  | .rcFieldRead off size => Sys2Proof.Machine.execRcFieldRead off size s
  | .devSetupLockSet val => Sys2Proof.Machine.execDevSetupLockSet val s
  | .stallTimeoutWrite val => Sys2Proof.Machine.execStallTimeoutWrite val s
  | .stallTimeoutExpiry pool req => Sys2Proof.Machine.execStallTimeoutExpiry pool req s
  | .modeChange val => Sys2Proof.Machine.execModeChange val s
  | .modeChangeComplete => Sys2Proof.Machine.execModeChangeComplete s
  | .memInterleaveWrite d val => Sys2Proof.Machine.execMemInterleaveWrite d val s
  | .interleaveTakesEffect d => Sys2Proof.Machine.execInterleaveTakesEffect d s
  | .hostMemRead addr len => Sys2Proof.Machine.execHostMemRead addr len s
  | .hostMemWrite addr data => Sys2Proof.Machine.execHostMemWrite addr data s
  | .hostSnoop addr invalidate => Sys2Proof.Machine.execHostSnoop addr invalidate s
  | .windowGrant h id rights holder queue base len => Sys2Proof.Machine.execWindowGrant h id rights holder queue base len s
  | .windowRevoke h id => Sys2Proof.Machine.execWindowRevoke h id s
  | .windowRevokeComplete id => Sys2Proof.Machine.execWindowRevokeComplete id s
  | .accessPerformed id upset => Sys2Proof.Machine.execAccessPerformed id upset s
  | .nop w g => Sys2Proof.Machine.execNop w g s
  | .add w g rd rs1 rs2 => Sys2Proof.Machine.execAdd w g rd rs1 rs2 s
  | .sub w g rd rs1 rs2 => Sys2Proof.Machine.execSub w g rd rs1 rs2 s
  | .mul w g rd rs1 rs2 => Sys2Proof.Machine.execMul w g rd rs1 rs2 s
  | .mulh w g rd rs1 rs2 => Sys2Proof.Machine.execMulh w g rd rs1 rs2 s
  | .mulhu w g rd rs1 rs2 => Sys2Proof.Machine.execMulhu w g rd rs1 rs2 s
  | .div w g rd rs1 rs2 => Sys2Proof.Machine.execDiv w g rd rs1 rs2 s
  | .divu w g rd rs1 rs2 => Sys2Proof.Machine.execDivu w g rd rs1 rs2 s
  | .rem w g rd rs1 rs2 => Sys2Proof.Machine.execRem w g rd rs1 rs2 s
  | .remu w g rd rs1 rs2 => Sys2Proof.Machine.execRemu w g rd rs1 rs2 s
  | .and w g rd rs1 rs2 => Sys2Proof.Machine.execAnd w g rd rs1 rs2 s
  | .or w g rd rs1 rs2 => Sys2Proof.Machine.execOr w g rd rs1 rs2 s
  | .xor w g rd rs1 rs2 => Sys2Proof.Machine.execXor w g rd rs1 rs2 s
  | .shl w g rd rs1 rs2 => Sys2Proof.Machine.execShl w g rd rs1 rs2 s
  | .shr w g rd rs1 rs2 => Sys2Proof.Machine.execShr w g rd rs1 rs2 s
  | .sra w g rd rs1 rs2 => Sys2Proof.Machine.execSra w g rd rs1 rs2 s
  | .min w g rd rs1 rs2 => Sys2Proof.Machine.execMin w g rd rs1 rs2 s
  | .max w g rd rs1 rs2 => Sys2Proof.Machine.execMax w g rd rs1 rs2 s
  | .minu w g rd rs1 rs2 => Sys2Proof.Machine.execMinu w g rd rs1 rs2 s
  | .maxu w g rd rs1 rs2 => Sys2Proof.Machine.execMaxu w g rd rs1 rs2 s
  | .clz w g rd rs1 => Sys2Proof.Machine.execClz w g rd rs1 s
  | .ctz w g rd rs1 => Sys2Proof.Machine.execCtz w g rd rs1 s
  | .popc w g rd rs1 => Sys2Proof.Machine.execPopc w g rd rs1 s
  | .addi w g rd rs1 imm => Sys2Proof.Machine.execAddi w g rd rs1 imm s
  | .andi w g rd rs1 imm => Sys2Proof.Machine.execAndi w g rd rs1 imm s
  | .ori w g rd rs1 imm => Sys2Proof.Machine.execOri w g rd rs1 imm s
  | .xori w g rd rs1 imm => Sys2Proof.Machine.execXori w g rd rs1 imm s
  | .shli w g rd rs1 imm => Sys2Proof.Machine.execShli w g rd rs1 imm s
  | .shri w g rd rs1 imm => Sys2Proof.Machine.execShri w g rd rs1 imm s
  | .srai w g rd rs1 imm => Sys2Proof.Machine.execSrai w g rd rs1 imm s
  | .li w g rd imm => Sys2Proof.Machine.execLi w g rd imm s
  | .cmpeq w g pd rs1 rs2 => Sys2Proof.Machine.execCmpeq w g pd rs1 rs2 s
  | .cmpne w g pd rs1 rs2 => Sys2Proof.Machine.execCmpne w g pd rs1 rs2 s
  | .cmplt w g pd rs1 rs2 => Sys2Proof.Machine.execCmplt w g pd rs1 rs2 s
  | .cmpltu w g pd rs1 rs2 => Sys2Proof.Machine.execCmpltu w g pd rs1 rs2 s
  | .cmple w g pd rs1 rs2 => Sys2Proof.Machine.execCmple w g pd rs1 rs2 s
  | .cmpleu w g pd rs1 rs2 => Sys2Proof.Machine.execCmpleu w g pd rs1 rs2 s
  | .pand w g pd p1 p2 => Sys2Proof.Machine.execPand w g pd p1 p2 s
  | .por w g pd p1 p2 => Sys2Proof.Machine.execPor w g pd p1 p2 s
  | .pxor w g pd p1 p2 => Sys2Proof.Machine.execPxor w g pd p1 p2 s
  | .pandn w g pd p1 p2 => Sys2Proof.Machine.execPandn w g pd p1 p2 s
  | .fadd w g rd rs1 rs2 => Sys2Proof.Machine.execFadd w g rd rs1 rs2 s
  | .fsub w g rd rs1 rs2 => Sys2Proof.Machine.execFsub w g rd rs1 rs2 s
  | .fmul w g rd rs1 rs2 => Sys2Proof.Machine.execFmul w g rd rs1 rs2 s
  | .ffma w g rd rs1 rs2 rs3 => Sys2Proof.Machine.execFfma w g rd rs1 rs2 rs3 s
  | .fdiv w g rd rs1 rs2 => Sys2Proof.Machine.execFdiv w g rd rs1 rs2 s
  | .fsqrt w g rd rs1 => Sys2Proof.Machine.execFsqrt w g rd rs1 s
  | .fmin w g rd rs1 rs2 => Sys2Proof.Machine.execFmin w g rd rs1 rs2 s
  | .fmax w g rd rs1 rs2 => Sys2Proof.Machine.execFmax w g rd rs1 rs2 s
  | .fcmpeq w g rd rs1 rs2 => Sys2Proof.Machine.execFcmpeq w g rd rs1 rs2 s
  | .fcmplt w g rd rs1 rs2 => Sys2Proof.Machine.execFcmplt w g rd rs1 rs2 s
  | .fcmple w g rd rs1 rs2 => Sys2Proof.Machine.execFcmple w g rd rs1 rs2 s
  | .fcvtif w g rd rs1 => Sys2Proof.Machine.execFcvtif w g rd rs1 s
  | .fcvtfi w g rd rs1 => Sys2Proof.Machine.execFcvtfi w g rd rs1 s
  | .mova w g rd rs1 => Sys2Proof.Machine.execMova w g rd rs1 s
  | .movs w g rd rs1 => Sys2Proof.Machine.execMovs w g rd rs1 s
  | .adda w g rd rs1 rs2 => Sys2Proof.Machine.execAdda w g rd rs1 rs2 s
  | .ld8 w g rd base postInc off => Sys2Proof.Machine.execLd8 w g rd base postInc off s
  | .ld8u w g rd base postInc off => Sys2Proof.Machine.execLd8u w g rd base postInc off s
  | .ld16 w g rd base postInc off => Sys2Proof.Machine.execLd16 w g rd base postInc off s
  | .ld16u w g rd base postInc off => Sys2Proof.Machine.execLd16u w g rd base postInc off s
  | .ld32 w g rd base postInc off => Sys2Proof.Machine.execLd32 w g rd base postInc off s
  | .ld32u w g rd base postInc off => Sys2Proof.Machine.execLd32u w g rd base postInc off s
  | .ld64 w g rd base postInc off => Sys2Proof.Machine.execLd64 w g rd base postInc off s
  | .st8 w g rs base postInc off => Sys2Proof.Machine.execSt8 w g rs base postInc off s
  | .st16 w g rs base postInc off => Sys2Proof.Machine.execSt16 w g rs base postInc off s
  | .st32 w g rs base postInc off => Sys2Proof.Machine.execSt32 w g rs base postInc off s
  | .st64 w g rs base postInc off => Sys2Proof.Machine.execSt64 w g rs base postInc off s
  | .aadd32 w g rd base rs off => Sys2Proof.Machine.execAadd32 w g rd base rs off s
  | .aadd64 w g rd base rs off => Sys2Proof.Machine.execAadd64 w g rd base rs off s
  | .amin32 w g rd base rs off => Sys2Proof.Machine.execAmin32 w g rd base rs off s
  | .amin64 w g rd base rs off => Sys2Proof.Machine.execAmin64 w g rd base rs off s
  | .aminu32 w g rd base rs off => Sys2Proof.Machine.execAminu32 w g rd base rs off s
  | .aminu64 w g rd base rs off => Sys2Proof.Machine.execAminu64 w g rd base rs off s
  | .amax32 w g rd base rs off => Sys2Proof.Machine.execAmax32 w g rd base rs off s
  | .amax64 w g rd base rs off => Sys2Proof.Machine.execAmax64 w g rd base rs off s
  | .amaxu32 w g rd base rs off => Sys2Proof.Machine.execAmaxu32 w g rd base rs off s
  | .amaxu64 w g rd base rs off => Sys2Proof.Machine.execAmaxu64 w g rd base rs off s
  | .aswap32 w g rd base rs off => Sys2Proof.Machine.execAswap32 w g rd base rs off s
  | .aswap64 w g rd base rs off => Sys2Proof.Machine.execAswap64 w g rd base rs off s
  | .acas32 w g rd base rs off => Sys2Proof.Machine.execAcas32 w g rd base rs off s
  | .acas64 w g rd base rs off => Sys2Proof.Machine.execAcas64 w g rd base rs off s
  | .afadd32 w g rd base rs off => Sys2Proof.Machine.execAfadd32 w g rd base rs off s
  | .fence w g scope pairs => Sys2Proof.Machine.execFence w g scope pairs s
  | .hurdle w g scope hid rc => Sys2Proof.Machine.execHurdle w g scope hid rc s
  | .bwait w g rd rb => Sys2Proof.Machine.execBwait w g rd rb s
  | .btest w g rd rb => Sys2Proof.Machine.execBtest w g rd rb s
  | .hpost w g r => Sys2Proof.Machine.execHpost w g r s
  | .hnext w g r => Sys2Proof.Machine.execHnext w g r s
  | .hdone w g r => Sys2Proof.Machine.execHdone w g r s
  | .br w g off => Sys2Proof.Machine.execBr w g off s
  | .call w g off => Sys2Proof.Machine.execCall w g off s
  | .brx w g r => Sys2Proof.Machine.execBrx w g r s
  | .ret w g => Sys2Proof.Machine.execRet w g s
  | .exit w g => Sys2Proof.Machine.execExit w g s
  | .breakInstr w g => Sys2Proof.Machine.execBreakInstr w g s
  | .rdsr w g rd idx => Sys2Proof.Machine.execRdsr w g rd idx s
  | .wrsr w g rs idx => Sys2Proof.Machine.execWrsr w g rs idx s
  | .vadd w g o => Sys2Proof.Machine.execVadd w g o s
  | .vsub w g o => Sys2Proof.Machine.execVsub w g o s
  | .vmul w g o => Sys2Proof.Machine.execVmul w g o s
  | .vfma w g o => Sys2Proof.Machine.execVfma w g o s
  | .vmin w g o => Sys2Proof.Machine.execVmin w g o s
  | .vmax w g o => Sys2Proof.Machine.execVmax w g o s
  | .vabs w g o => Sys2Proof.Machine.execVabs w g o s
  | .vneg w g o => Sys2Proof.Machine.execVneg w g o s
  | .vdiv w g o => Sys2Proof.Machine.execVdiv w g o s
  | .vsqrt w g o => Sys2Proof.Machine.execVsqrt w g o s
  | .vrcp w g o => Sys2Proof.Machine.execVrcp w g o s
  | .vrsqrt w g o => Sys2Proof.Machine.execVrsqrt w g o s
  | .vand w g o => Sys2Proof.Machine.execVand w g o s
  | .vor w g o => Sys2Proof.Machine.execVor w g o s
  | .vxor w g o => Sys2Proof.Machine.execVxor w g o s
  | .vshl w g o => Sys2Proof.Machine.execVshl w g o s
  | .vshr w g o => Sys2Proof.Machine.execVshr w g o s
  | .vsra w g o => Sys2Proof.Machine.execVsra w g o s
  | .vcmpeq w g o => Sys2Proof.Machine.execVcmpeq w g o s
  | .vcmpne w g o => Sys2Proof.Machine.execVcmpne w g o s
  | .vcmplt w g o => Sys2Proof.Machine.execVcmplt w g o s
  | .vcmple w g o => Sys2Proof.Machine.execVcmple w g o s
  | .vsel w g o => Sys2Proof.Machine.execVsel w g o s
  | .vclass w g o => Sys2Proof.Machine.execVclass w g o s
  | .vexp w g o => Sys2Proof.Machine.execVexp w g o s
  | .vexp2 w g o => Sys2Proof.Machine.execVexp2 w g o s
  | .vlog w g o => Sys2Proof.Machine.execVlog w g o s
  | .vlog2 w g o => Sys2Proof.Machine.execVlog2 w g o s
  | .vsin w g o => Sys2Proof.Machine.execVsin w g o s
  | .vcos w g o => Sys2Proof.Machine.execVcos w g o s
  | .vtanh w g o => Sys2Proof.Machine.execVtanh w g o s
  | .vsigm w g o => Sys2Proof.Machine.execVsigm w g o s
  | .verf w g o => Sys2Proof.Machine.execVerf w g o s
  | .vcvt w g o => Sys2Proof.Machine.execVcvt w g o s
  | .vperm w g o => Sys2Proof.Machine.execVperm w g o s
  | .vshuf w g o => Sys2Proof.Machine.execVshuf w g o s
  | .vtrans w g o => Sys2Proof.Machine.execVtrans w g o s
  | .vpack w g o => Sys2Proof.Machine.execVpack w g o s
  | .vunpack w g o => Sys2Proof.Machine.execVunpack w g o s
  | .vmxpack w g o => Sys2Proof.Machine.execVmxpack w g o s
  | .vmxunpack w g o => Sys2Proof.Machine.execVmxunpack w g o s
  | .vsoftmax w g o => Sys2Proof.Machine.execVsoftmax w g o s
  | .vred w g o => Sys2Proof.Machine.execVred w g o s
  | .mand w g o => Sys2Proof.Machine.execMand w g o s
  | .mor w g o => Sys2Proof.Machine.execMor w g o s
  | .mxor w g o => Sys2Proof.Machine.execMxor w g o s
  | .mnot w g o => Sys2Proof.Machine.execMnot w g o s
  | .gensave w g o => Sys2Proof.Machine.execGensave w g o s
  | .genload w g o => Sys2Proof.Machine.execGenload w g o s
  | .gendraw w g o => Sys2Proof.Machine.execGendraw w g o s
  | .gendrop w g o => Sys2Proof.Machine.execGendrop w g o s
  | .vsplat w g vd rs ty => Sys2Proof.Machine.execVsplat w g vd rs ty s
  | .mmac w g aa ab kreg ta tb tile clear => Sys2Proof.Machine.execMmac w g aa ab kreg ta tb tile clear s
  | .kstep k => Sys2Proof.Machine.execKstep k s
  | .msetp w g interval => Sys2Proof.Machine.execMsetp w g interval s
  | .mscale w g sa sb tile => Sys2Proof.Machine.execMscale w g sa sb tile s
  | .mdrain w g a scale ty rnd tile census => Sys2Proof.Machine.execMdrain w g a scale ty rnd tile census s
  | .drainExecute k => Sys2Proof.Machine.execDrainExecute k s
  | .mzero w g tile => Sys2Proof.Machine.execMzero w g tile s
  | .mwait w g => Sys2Proof.Machine.execMwait w g s
  | .dmcopy w g a asrc len tag census => Sys2Proof.Machine.execDmcopy w g a asrc len tag census s
  | .dm2d w g a tag census => Sys2Proof.Machine.execDm2d w g a tag census s
  | .dmfill w g a pat len tag => Sys2Proof.Machine.execDmfill w g a pat len tag s
  | .dmwait w g tag => Sys2Proof.Machine.execDmwait w g tag s
  | .dmTransferPerformed id => Sys2Proof.Machine.execDmTransferPerformed id s
  | .vld w g vd a stride postInc => Sys2Proof.Machine.execVld w g vd a stride postInc s
  | .vst w g vs a stride postInc census => Sys2Proof.Machine.execVst w g vs a stride postInc census s
  | .tld w g a tile => Sys2Proof.Machine.execTld w g a tile s
  | .tst w g a tile census => Sys2Proof.Machine.execTst w g a tile census s
  | .rpost w g a ed rd => Sys2Proof.Machine.execRpost w g a ed rd s
  | .coreHalt k val => Sys2Proof.Machine.execCoreHalt k val s
  | .coreResume k val => Sys2Proof.Machine.execCoreResume k val s
  | .coreStep k val => Sys2Proof.Machine.execCoreStep k val s
  | .stepDone w => Sys2Proof.Machine.execStepDone w s
  | .coreKill k val => Sys2Proof.Machine.execCoreKill k val s
  | .runnerFreed w => Sys2Proof.Machine.execRunnerFreed w s
  | .dbgDataWrite k val => Sys2Proof.Machine.execDbgDataWrite k val s
  | .odrainGo k val => Sys2Proof.Machine.execOdrainGo k val s
  | .odrainDone k => Sys2Proof.Machine.execOdrainDone k s
  | .loadProgram h image dies => Sys2Proof.Machine.execLoadProgram h image dies s
  | .launch h dies n notify entry cores arg => Sys2Proof.Machine.execLaunch h dies n notify entry cores arg s
  | .launchShareStart k => Sys2Proof.Machine.execLaunchShareStart k s
  | .haltRunners h dies runners action cores => Sys2Proof.Machine.execHaltRunners h dies runners action cores s
  | .heatAssign d => Sys2Proof.Machine.execHeatAssign d s
  | .heatAutoPost sd => Sys2Proof.Machine.execHeatAutoPost sd s
  | .farQueueSegmentCarry base => Sys2Proof.Machine.execFarQueueSegmentCarry base s
  | .farQueueHeadAdvance base => Sys2Proof.Machine.execFarQueueHeadAdvance base s
  | .farQueueTailCopy base => Sys2Proof.Machine.execFarQueueTailCopy base s
  | .stageCfgWrite d stage reg val => Sys2Proof.Machine.execStageCfgWrite d stage reg val s
  | .snapshotTake k => Sys2Proof.Machine.execSnapshotTake k s
  | .snapshotWriteComplete d => Sys2Proof.Machine.execSnapshotWriteComplete d s
  | .generatorRestore k => Sys2Proof.Machine.execGeneratorRestore k s
  | .vecReseed d val => Sys2Proof.Machine.execVecReseed d val s
  | .vecSnapWrite d val => Sys2Proof.Machine.execVecSnapWrite d val s
  | .censusInstallGo val => Sys2Proof.Machine.execCensusInstallGo val s
  | .censusInstallComplete => Sys2Proof.Machine.execCensusInstallComplete s
  | .censusRead h first count lap dest clear => Sys2Proof.Machine.execCensusRead h first count lap dest clear s
  | .scaleTableBaseWrite val => Sys2Proof.Machine.execScaleTableBaseWrite val s
  | .lapNextWrite val => Sys2Proof.Machine.execLapNextWrite val s
  | .lapRegionCfgWrite r val => Sys2Proof.Machine.execLapRegionCfgWrite r val s
  | .lapRegionBaseWrite r copy val => Sys2Proof.Machine.execLapRegionBaseWrite r copy val s
  | .lapBaseWrite which val => Sys2Proof.Machine.execLapBaseWrite which val s
  | .unseal val => Sys2Proof.Machine.execUnseal val s
  | .lapOpen h lap => Sys2Proof.Machine.execLapOpen h lap s
  | .lapOpenProceed => Sys2Proof.Machine.execLapOpenProceed s
  | .lapBecomesWriting => Sys2Proof.Machine.execLapBecomesWriting s
  | .lapVote h lap vote => Sys2Proof.Machine.execLapVote h lap vote s
  | .voteCast => Sys2Proof.Machine.execVoteCast s
  | .lapAbort h lap => Sys2Proof.Machine.execLapAbort h lap s
  | .relay h ext ed => Sys2Proof.Machine.execRelay h ext ed s
  | .mirror h ext ed => Sys2Proof.Machine.execMirror h ext ed s
  | .restore h ext ed => Sys2Proof.Machine.execRestore h ext ed s
  | .relayStart e => Sys2Proof.Machine.execRelayStart e s
  | .relaySend e slot part => Sys2Proof.Machine.execRelaySend e slot part s
  | .relayPacketReceive l label a p => Sys2Proof.Machine.execRelayPacketReceive l label a p s
  | .contributionLanded e slot => Sys2Proof.Machine.execContributionLanded e slot s
  | .relayComplete e slot => Sys2Proof.Machine.execRelayComplete e slot s
  | .relayTimeout e slot => Sys2Proof.Machine.execRelayTimeout e slot s
  | .relayCancel e val => Sys2Proof.Machine.execRelayCancel e val s
  | .layoutInstall h id => Sys2Proof.Machine.execLayoutInstall h id s
  | .layoutInstallComplete => Sys2Proof.Machine.execLayoutInstallComplete s
  | .copy h dst src len => Sys2Proof.Machine.execCopy h dst src len s
  | .fill h dst pat len => Sys2Proof.Machine.execFill h dst pat len s
  | .nopDescriptor h => Sys2Proof.Machine.execNopDescriptor h s
  | .fenceDescriptor h => Sys2Proof.Machine.execFenceDescriptor h s
  | .lanePlanInstall h addr => Sys2Proof.Machine.execLanePlanInstall h addr s
  | .lanePlanApply tuned => Sys2Proof.Machine.execLanePlanApply tuned s
  | .coordAdopt h x y slot => Sys2Proof.Machine.execCoordAdopt h x y slot s
  | .cablingPlanInstall h addr => Sys2Proof.Machine.execCablingPlanInstall h addr s
  | .pacerSet h mode coord => Sys2Proof.Machine.execPacerSet h mode coord s
  | .lightDetected l => Sys2Proof.Machine.execLightDetected l s
  | .linkLightLost l => Sys2Proof.Machine.execLinkLightLost l s
  | .bringupTimeout l => Sys2Proof.Machine.execBringupTimeout l s
  | .bringupRetryTimer l => Sys2Proof.Machine.execBringupRetryTimer l s
  | .negotiation l n => Sys2Proof.Machine.execNegotiation l n s
  | .fecChange l => Sys2Proof.Machine.execFecChange l s
  | .identityBlock l b => Sys2Proof.Machine.execIdentityBlock l b s
  | .identitySendTimer l => Sys2Proof.Machine.execIdentitySendTimer l s
  | .channelOpen l job coord peer => Sys2Proof.Machine.execChannelOpen l job coord peer s
  | .channelOpenTimer e c => Sys2Proof.Machine.execChannelOpenTimer e c s
  | .managementMessage l data => Sys2Proof.Machine.execManagementMessage l data s
  | .timeMessage l m => Sys2Proof.Machine.execTimeMessage l m s
  | .linkAck l seq nak c0 c1 c2 => Sys2Proof.Machine.execLinkAck l seq nak c0 c1 c2 s
  | .writePacket l label a p => Sys2Proof.Machine.execWritePacket l label a p s
  | .packetForward e c cls => Sys2Proof.Machine.execPacketForward e c cls s
  | .packetSend e c cls => Sys2Proof.Machine.execPacketSend e c cls s
  | .linkAckTimer e c => Sys2Proof.Machine.execLinkAckTimer e c s
  | .nakGapTimeout e c => Sys2Proof.Machine.execNakGapTimeout e c s
  | .resendTimeout e c => Sys2Proof.Machine.execResendTimeout e c s
  | .freeze l reason => Sys2Proof.Machine.execFreeze l reason s
  | .thaw l => Sys2Proof.Machine.execThaw l s
  | .pause l classes => Sys2Proof.Machine.execPause l classes s
  | .resume l classes => Sys2Proof.Machine.execResume l classes s
  | .splitMarker l num => Sys2Proof.Machine.execSplitMarker l num s
  | .nibLeave l nib => Sys2Proof.Machine.execNibLeave l nib s
  | .nibJoin l nib => Sys2Proof.Machine.execNibJoin l nib s
  | .fibreHold f => Sys2Proof.Machine.execFibreHold f s
  | .fibreResume f => Sys2Proof.Machine.execFibreResume f s
  | .keepalive l frozen classes => Sys2Proof.Machine.execKeepalive l frozen classes s
  | .keepaliveTimer l => Sys2Proof.Machine.execKeepaliveTimer l s
  | .fibreThaw f val => Sys2Proof.Machine.execFibreThaw f val s
  | .fibreAdopt f val => Sys2Proof.Machine.execFibreAdopt f val s
  | .fibreRetrain f val => Sys2Proof.Machine.execFibreRetrain f val s
  | .fibreFreeze f val => Sys2Proof.Machine.execFibreFreeze f val s
  | .fibrePause f val => Sys2Proof.Machine.execFibrePause f val s
  | .combPresentChange src high => Sys2Proof.Machine.execCombPresentChange src high s
  | .combReadyChange src high => Sys2Proof.Machine.execCombReadyChange src high s
  | .combFaultChange src high => Sys2Proof.Machine.execCombFaultChange src high s
  | .linePowerSample e src line power => Sys2Proof.Machine.execLinePowerSample e src line power s
  | .lineMeanUpdate e src line => Sys2Proof.Machine.execLineMeanUpdate e src line s
  | .slopeUpdate e src line => Sys2Proof.Machine.execSlopeUpdate e src line s
  | .commission val => Sys2Proof.Machine.execCommission val s
  | .spareStart val => Sys2Proof.Machine.execSpareStart val s
  | .spareStop val => Sys2Proof.Machine.execSpareStop val s
  | .switch val => Sys2Proof.Machine.execSwitch val s
  | .lgtThreshWrite val => Sys2Proof.Machine.execLgtThreshWrite val s
  | .changeoverFibreBegin => Sys2Proof.Machine.execChangeoverFibreBegin s
  | .changeoverAcksDone => Sys2Proof.Machine.execChangeoverAcksDone s
  | .changeoverRingsLocked locked => Sys2Proof.Machine.execChangeoverRingsLocked locked s
  | .sourceStartTimeout => Sys2Proof.Machine.execSourceStartTimeout s
  | .ringUnlock f nib tx => Sys2Proof.Machine.execRingUnlock f nib tx s
  | .ringRelock f nib tx => Sys2Proof.Machine.execRingRelock f nib tx s
  | .read x m => Sys2Proof.Machine.execRead x m s
  | .write x m => Sys2Proof.Machine.execWrite x m s
  | .atomic x m => Sys2Proof.Machine.execAtomic x m s
  | .tallyAdd x m => Sys2Proof.Machine.execTallyAdd x m s
  | .readResp x m => Sys2Proof.Machine.execReadResp x m s
  | .writeAck x m => Sys2Proof.Machine.execWriteAck x m s
  | .atomicResp x m => Sys2Proof.Machine.execAtomicResp x m s
  | .tallyAck x m => Sys2Proof.Machine.execTallyAck x m s
  | .packet x m => Sys2Proof.Machine.execPacket x m s
  | .notice x m => Sys2Proof.Machine.execNotice x m s
  | .credit x c0 c1 c2 c3 ack => Sys2Proof.Machine.execCredit x c0 c1 c2 c3 ack s
  | .nak x seq => Sys2Proof.Machine.execNak x seq s
  | .sweyrSplitMarker x ns frac => Sys2Proof.Machine.execSweyrSplitMarker x ns frac s
  | .sweyrAckTimer x => Sys2Proof.Machine.execSweyrAckTimer x s
  | .sweyrCreditTimer x => Sys2Proof.Machine.execSweyrCreditTimer x s
  | .sweyrResendTimeout x => Sys2Proof.Machine.execSweyrResendTimeout x s
  | .cap x blk => Sys2Proof.Machine.execCap x blk s
  | .capAck x => Sys2Proof.Machine.execCapAck x s
  | .capResendTimer x => Sys2Proof.Machine.execCapResendTimer x s
  | .trainReq x rate => Sys2Proof.Machine.execTrainReq x rate s
  | .laneTestDone x pass => Sys2Proof.Machine.execLaneTestDone x pass s
  | .laneResult x pass => Sys2Proof.Machine.execLaneResult x pass s
  | .widthCheck x word => Sys2Proof.Machine.execWidthCheck x word s
  | .active x => Sys2Proof.Machine.execActive x s
  | .resetNotice x => Sys2Proof.Machine.execResetNotice x s
  | .retrainReq x => Sys2Proof.Machine.execRetrainReq x s
  | .time x ns frac => Sys2Proof.Machine.execTime x ns frac s
  | .mgmt x data => Sys2Proof.Machine.execMgmt x data s
  | .forwardedClockLoss x => Sys2Proof.Machine.execForwardedClockLoss x s
  | .arbPriorityWrite a val => Sys2Proof.Machine.execArbPriorityWrite a val s
  | .arbiterWatchdog a => Sys2Proof.Machine.execArbiterWatchdog a s
  | .swlRetrain x val => Sys2Proof.Machine.execSwlRetrain x val s
  | .swlRelearn x val => Sys2Proof.Machine.execSwlRelearn x val s
  | .swlDisable x val => Sys2Proof.Machine.execSwlDisable x val s
  | .cxlLinkTrain width speed cache mem => Sys2Proof.Machine.execCxlLinkTrain width speed cache mem s
  | .queueInstallGo val => Sys2Proof.Machine.execQueueInstallGo val s
  | .queueEnable q val => Sys2Proof.Machine.execQueueEnable q val s
  | .queueDisable q val => Sys2Proof.Machine.execQueueDisable q val s
  | .queueResume q val => Sys2Proof.Machine.execQueueResume q val s
  | .queueStopped q => Sys2Proof.Machine.execQueueStopped q s
  | .submissionTailDoorbell q val => Sys2Proof.Machine.execSubmissionTailDoorbell q val s
  | .completionHeadDoorbell q val => Sys2Proof.Machine.execCompletionHeadDoorbell q val s
  | .descriptorFetch q good => Sys2Proof.Machine.execDescriptorFetch q good s
  | .completionWrite q => Sys2Proof.Machine.execCompletionWrite q s
  | .emergencyHalt val => Sys2Proof.Machine.execEmergencyHalt val s
  | .emergencyRelease val => Sys2Proof.Machine.execEmergencyRelease val s
  | .mailboxPost sender receiver ptr tag => Sys2Proof.Machine.execMailboxPost sender receiver ptr tag s
  | .legacyPost sender receiver ptr tag => Sys2Proof.Machine.execLegacyPost sender receiver ptr tag s
  | .mailboxTagRead receiver sender => Sys2Proof.Machine.execMailboxTagRead receiver sender s
  | .mailboxStateClear sender receiver legacy => Sys2Proof.Machine.execMailboxStateClear sender receiver legacy s
  | .mailboxRead => Sys2Proof.Machine.execMailboxRead s
  | .oscALoss d => Sys2Proof.Machine.execOscALoss d s
  | .bothRefLoss d => Sys2Proof.Machine.execBothRefLoss d s
  | .adaptiveClockAdjust island khz => Sys2Proof.Machine.execAdaptiveClockAdjust island khz s
  | .rateThrottle d temp => Sys2Proof.Machine.execRateThrottle d temp s
  | .hotThrottle d r => Sys2Proof.Machine.execHotThrottle d r s
  | .ceilingThrottle watts => Sys2Proof.Machine.execCeilingThrottle watts s
  | .supplyLow volts => Sys2Proof.Machine.execSupplyLow volts s
  | .throttleRelease d cause => Sys2Proof.Machine.execThrottleRelease d cause s
  | .thermtrip d r => Sys2Proof.Machine.execThermtrip d r s
  | .thermtripResume d temp => Sys2Proof.Machine.execThermtripResume d temp s
  | .splitMeasure l => Sys2Proof.Machine.execSplitMeasure l s
  | .ppsInEdge ns => Sys2Proof.Machine.execPpsInEdge ns s
  | .ppsInTimeout => Sys2Proof.Machine.execPpsInTimeout s
  | .ppsOutRise => Sys2Proof.Machine.execPpsOutRise s
  | .todFrameSend => Sys2Proof.Machine.execTodFrameSend s
  | .timSet val => Sys2Proof.Machine.execTimSet val s
  | .timNowRead => Sys2Proof.Machine.execTimNowRead s
  | .coldReset => Sys2Proof.Machine.execColdReset s
  | .moduleWarmReset cause => Sys2Proof.Machine.execModuleWarmReset cause s
  | .dieWarmReset d cause => Sys2Proof.Machine.execDieWarmReset d cause s
  | .dieResetReady d => Sys2Proof.Machine.execDieResetReady d s
  | .jobReset => Sys2Proof.Machine.execJobReset s
  | .coreReset val => Sys2Proof.Machine.execCoreReset val s
  | .coreResetComplete => Sys2Proof.Machine.execCoreResetComplete s
  | .parkRequest => Sys2Proof.Machine.execParkRequest s
  | .deepParkRequest => Sys2Proof.Machine.execDeepParkRequest s
  | .activeRequest => Sys2Proof.Machine.execActiveRequest s
  | .parkExitComplete => Sys2Proof.Machine.execParkExitComplete s
  | .supplyLoss volts => Sys2Proof.Machine.execSupplyLoss volts s
  | .inputOvervoltage volts => Sys2Proof.Machine.execInputOvervoltage volts s
  | .inputSwitchOpen volts => Sys2Proof.Machine.execInputSwitchOpen volts s
  | .inputSwitchReclose volts => Sys2Proof.Machine.execInputSwitchReclose volts s
  | .auxLost volts => Sys2Proof.Machine.execAuxLost volts s
  | .powerUp => Sys2Proof.Machine.execPowerUp s
  | .refresh d ch bank => Sys2Proof.Machine.execRefresh d ch bank s
  | .pinCheck d ch pin good => Sys2Proof.Machine.execPinCheck d ch pin good s
  | .patrolScrubRead d upset passEnd => Sys2Proof.Machine.execPatrolScrubRead d upset passEnd s
  | .boot fails => Sys2Proof.Machine.execBoot fails s
  | .processorStartTimeout d => Sys2Proof.Machine.execProcessorStartTimeout d s
  | .watchdogExpiry d => Sys2Proof.Machine.execWatchdogExpiry d s
  | .firmwareUpdate val => Sys2Proof.Machine.execFirmwareUpdate val s
  | .firmwareUpdateComplete good => Sys2Proof.Machine.execFirmwareUpdateComplete good s
  | .requestUpdate image => Sys2Proof.Machine.execRequestUpdate image s
  | .recoveryLoad val => Sys2Proof.Machine.execRecoveryLoad val s
  | .recoveryCommit val => Sys2Proof.Machine.execRecoveryCommit val s
  | .svnAdvance val => Sys2Proof.Machine.execSvnAdvance val s
  | .debugTokenPresent val => Sys2Proof.Machine.execDebugTokenPresent val s
  | .setdasa addr => Sys2Proof.Machine.execSetdasa addr s
  | .setCoord coord => Sys2Proof.Machine.execSetCoord coord s
  | .forceRecovery => Sys2Proof.Machine.execForceRecovery s
  | .getStatus => Sys2Proof.Machine.execGetStatus s
  | .getVersion tr => Sys2Proof.Machine.execGetVersion tr s
  | .getCapabilities tr => Sys2Proof.Machine.execGetCapabilities tr s
  | .negotiateAlgorithms tr => Sys2Proof.Machine.execNegotiateAlgorithms tr s
  | .getDigests tr => Sys2Proof.Machine.execGetDigests tr s
  | .getCertificate tr slot off len => Sys2Proof.Machine.execGetCertificate tr slot off len s
  | .challenge tr slot nonce => Sys2Proof.Machine.execChallenge tr slot nonce s
  | .getMeasurements tr idx sign nonce => Sys2Proof.Machine.execGetMeasurements tr idx sign nonce s
  | .numericSensorRead id => Sys2Proof.Machine.execNumericSensorRead id s
  | .sensorRefresh => Sys2Proof.Machine.execSensorRefresh s
  | .watchWrite n val => Sys2Proof.Machine.execWatchWrite n val s
  | .watchWindowClose n => Sys2Proof.Machine.execWatchWindowClose n s
  | .coreIllegalInstruction w bundle => Sys2Proof.Machine.execCoreIllegalInstruction w bundle s
  | .nibLock l nib => Sys2Proof.Machine.execNibLock l nib s
  | .flitDelineation l heard => Sys2Proof.Machine.execFlitDelineation l heard s
  | .negotiationRound l => Sys2Proof.Machine.execNegotiationRound l s
  | .flitCrcFail f => Sys2Proof.Machine.execFlitCrcFail f s
  | .sweyrCrcFail f => Sys2Proof.Machine.execSweyrCrcFail f s
  | .generatorLoadComplete k => Sys2Proof.Machine.execGeneratorLoadComplete k s
  | .reseedComplete d => Sys2Proof.Machine.execReseedComplete d s
  | .referenceRestored d => Sys2Proof.Machine.execReferenceRestored d s
  | .auxRestored volts => Sys2Proof.Machine.execAuxRestored volts s
  | .parkEntryComplete => Sys2Proof.Machine.execParkEntryComplete s
  | .setEndpointId eid => Sys2Proof.Machine.execSetEndpointId eid s

end Sys2Proof.Machine
end

