-- ==== Sys2Proof/Machine/Tick.lean ====
section
/-! DEFINITION. What passes when no command waits: one nanosecond, in which the meshes and Sweyr links carry what they hold and one core, each in turn, issues a bundle (R72, R362, R385, R430, R434, R436; assumption 1). -/

namespace Sys2Proof.Machine

/-- Fabric time moves on by a nanosecond, steered by no more than the limit that its last measurement set (R434). -/
def timePasses (s : State) : State :=
  let c := s.clock
  let m : Int := c.steerMax
  let by_ := max (-m) (min m c.steer)
  setUnits (timeUnits s + 65536 + by_) (modClock (fun c => { c with steer := c.steer - by_ }) s)

/-- TIM_PPS_OUT falls 100 ms after the second that its rise named (R436). -/
def ppsFalls (before : Nat) (s : State) : State :=
  match s.clock.ppsNamed with
  | none => s
  | some t =>
    if flag s .timCtl F.timCtl_pps_out && decide (before < t + 10 ^ 8 ∧ t + 10 ^ 8 ≤ s.clock.ns) then emit (.pin .ppsOut false) s else s

/-- TIM_10M_OUT is a square wave that rises at each multiple of 100 ns (R436). -/
def tenMEdge (before : Nat) (s : State) : State :=
  let pin (v : Bool) (s : State) : State := if flag s .timCtl F.timCtl_tenm_out then emit (.pin .tenM v) s else s
  if before / 100 < s.clock.ns / 100 then pin true s
  else if (before + 50) / 100 < (s.clock.ns + 50) / 100 then pin false s
  else s

/-- The next core in turn issues. -/
def turnIssue (s : State) : State :=
  let k := s.turn % 1024
  coreIssue k { s with turn := (k + 1) % 1024 }

/-- One nanosecond. -/
def tick (s : State) : State :=
  let s' := rechoose (tenMEdge s.clock.ns (ppsFalls s.clock.ns (timePasses s)))
  turnIssue (swlTick (contain s'))

end Sys2Proof.Machine
end

