-- ==== Sys2Proof/Machine/Encode.lean ====
section
/-! DEFINITION. The encoding of an instruction as a bundle (R75, R76, R80, Tables 3.7 to 3.9, 3.11, 3.13, 3.14): the instruction stands in its own slot, every other
slot holds NOP with guard 0. An instruction of form SI takes a bundle of fmt 1, which carries its whole immediate; a V instruction with a constant takes one of fmt 2. -/

namespace Sys2Proof.Machine

/-- A slot field: opcode [39:32], guard [31:28], operands [27:0] (R76). -/
def slot40 (op g o : Nat) : Nat := op * 2 ^ 32 + g * 2 ^ 28 + o

/-- An S slot in a bundle of fmt 0. -/
def sSlot (op g o : Nat) : BitVec 128 := BitVec.ofNat 128 (slot40 op g o * 2 ^ 80)

/-- A V slot in a bundle of fmt 0, or of fmt 2 with its constant. -/
def vBundle (op g o : Nat) (const : Option (BitVec 32)) : BitVec 128 :=
  BitVec.ofNat 128 (match const with
    | none => slot40 op g o * 2 ^ 40
    | some c => 2 * 2 ^ 120 + slot40 op g o * 2 ^ 40 + c.toNat)

/-- An M slot in a bundle of fmt 0. -/
def mSlot (op g o : Nat) : BitVec 128 := BitVec.ofNat 128 (slot40 op g o)

/-- Operand fields of forms SR, SM and SA (Table 3.9). -/
def fSR (rd rs1 rs2 rs3 : Nat) : Nat := rd * 2 ^ 22 + rs1 * 2 ^ 16 + rs2 * 2 ^ 10 + rs3 * 2 ^ 4
def fSM (rd base : Nat) (inc : Bool) (off : BitVec 17) : Nat := rd * 2 ^ 22 + base * 2 ^ 18 + inc.toNat * 2 ^ 17 + off.toNat
def fSA (rd base rs : Nat) (off : BitVec 12) : Nat := rd * 2 ^ 22 + base * 2 ^ 18 + rs * 2 ^ 12 + off.toNat

/-- An S slot of form SI in a bundle of fmt 1: ext40 stands in the place of the V slot (Table 3.8). -/
def sLong (op g rd rs1 : Nat) (imm : BitVec 56) : BitVec 128 :=
  BitVec.ofNat 128 (2 ^ 120 + slot40 op g (rd * 2 ^ 22 + rs1 * 2 ^ 16 + imm.toNat % 2 ^ 16) * 2 ^ 80 + imm.toNat / 2 ^ 16 * 2 ^ 40)

/-- A V slot of form VR. -/
def vSlotOf (op g : Nat) (o : VR) : BitVec 128 :=
  vBundle op g (o.vd * 2 ^ 23 + o.va * 2 ^ 18 + o.vb * 2 ^ 13 + o.mask * 2 ^ 10 + o.maskEn.toNat * 2 ^ 9 + o.type * 2 ^ 5 + o.func) o.const

/-- The bundle of an instruction; a command that is no instruction has none. -/
def bundleOf : Instr → Option (BitVec 128)
  | .add _ g rd rs1 rs2 => some (sSlot 0x01 g (fSR rd rs1 rs2 0))
  | .sub _ g rd rs1 rs2 => some (sSlot 0x02 g (fSR rd rs1 rs2 0))
  | .mul _ g rd rs1 rs2 => some (sSlot 0x03 g (fSR rd rs1 rs2 0))
  | .mulh _ g rd rs1 rs2 => some (sSlot 0x04 g (fSR rd rs1 rs2 0))
  | .mulhu _ g rd rs1 rs2 => some (sSlot 0x05 g (fSR rd rs1 rs2 0))
  | .div _ g rd rs1 rs2 => some (sSlot 0x06 g (fSR rd rs1 rs2 0))
  | .divu _ g rd rs1 rs2 => some (sSlot 0x07 g (fSR rd rs1 rs2 0))
  | .rem _ g rd rs1 rs2 => some (sSlot 0x08 g (fSR rd rs1 rs2 0))
  | .remu _ g rd rs1 rs2 => some (sSlot 0x09 g (fSR rd rs1 rs2 0))
  | .and _ g rd rs1 rs2 => some (sSlot 0x0A g (fSR rd rs1 rs2 0))
  | .or _ g rd rs1 rs2 => some (sSlot 0x0B g (fSR rd rs1 rs2 0))
  | .xor _ g rd rs1 rs2 => some (sSlot 0x0C g (fSR rd rs1 rs2 0))
  | .shl _ g rd rs1 rs2 => some (sSlot 0x0D g (fSR rd rs1 rs2 0))
  | .shr _ g rd rs1 rs2 => some (sSlot 0x0E g (fSR rd rs1 rs2 0))
  | .sra _ g rd rs1 rs2 => some (sSlot 0x0F g (fSR rd rs1 rs2 0))
  | .min _ g rd rs1 rs2 => some (sSlot 0x10 g (fSR rd rs1 rs2 0))
  | .max _ g rd rs1 rs2 => some (sSlot 0x11 g (fSR rd rs1 rs2 0))
  | .minu _ g rd rs1 rs2 => some (sSlot 0x12 g (fSR rd rs1 rs2 0))
  | .maxu _ g rd rs1 rs2 => some (sSlot 0x13 g (fSR rd rs1 rs2 0))
  | .clz _ g rd rs1 => some (sSlot 0x14 g (fSR rd rs1 0 0))
  | .ctz _ g rd rs1 => some (sSlot 0x15 g (fSR rd rs1 0 0))
  | .popc _ g rd rs1 => some (sSlot 0x16 g (fSR rd rs1 0 0))
  | .addi _ g rd rs1 imm => some (sLong 0x20 g rd rs1 imm)
  | .andi _ g rd rs1 imm => some (sLong 0x21 g rd rs1 imm)
  | .ori _ g rd rs1 imm => some (sLong 0x22 g rd rs1 imm)
  | .xori _ g rd rs1 imm => some (sLong 0x23 g rd rs1 imm)
  | .shli _ g rd rs1 imm => some (sLong 0x24 g rd rs1 imm)
  | .shri _ g rd rs1 imm => some (sLong 0x25 g rd rs1 imm)
  | .srai _ g rd rs1 imm => some (sLong 0x26 g rd rs1 imm)
  | .li _ g rd imm => some (sLong 0x27 g rd 0 imm)
  | .cmpeq _ g pd rs1 rs2 => some (sSlot 0x40 g (fSR pd rs1 rs2 0))
  | .cmpne _ g pd rs1 rs2 => some (sSlot 0x41 g (fSR pd rs1 rs2 0))
  | .cmplt _ g pd rs1 rs2 => some (sSlot 0x42 g (fSR pd rs1 rs2 0))
  | .cmpltu _ g pd rs1 rs2 => some (sSlot 0x43 g (fSR pd rs1 rs2 0))
  | .cmple _ g pd rs1 rs2 => some (sSlot 0x44 g (fSR pd rs1 rs2 0))
  | .cmpleu _ g pd rs1 rs2 => some (sSlot 0x45 g (fSR pd rs1 rs2 0))
  | .pand _ g pd p1 p2 => some (sSlot 0x46 g (fSR pd p1 p2 0))
  | .por _ g pd p1 p2 => some (sSlot 0x47 g (fSR pd p1 p2 0))
  | .pxor _ g pd p1 p2 => some (sSlot 0x48 g (fSR pd p1 p2 0))
  | .pandn _ g pd p1 p2 => some (sSlot 0x49 g (fSR pd p1 p2 0))
  | .fadd _ g rd rs1 rs2 => some (sSlot 0x50 g (fSR rd rs1 rs2 0))
  | .fsub _ g rd rs1 rs2 => some (sSlot 0x51 g (fSR rd rs1 rs2 0))
  | .fmul _ g rd rs1 rs2 => some (sSlot 0x52 g (fSR rd rs1 rs2 0))
  | .ffma _ g rd rs1 rs2 rs3 => some (sSlot 0x53 g (fSR rd rs1 rs2 rs3))
  | .fdiv _ g rd rs1 rs2 => some (sSlot 0x54 g (fSR rd rs1 rs2 0))
  | .fsqrt _ g rd rs1 => some (sSlot 0x55 g (fSR rd rs1 0 0))
  | .fmin _ g rd rs1 rs2 => some (sSlot 0x56 g (fSR rd rs1 rs2 0))
  | .fmax _ g rd rs1 rs2 => some (sSlot 0x57 g (fSR rd rs1 rs2 0))
  | .fcmpeq _ g rd rs1 rs2 => some (sSlot 0x58 g (fSR rd rs1 rs2 0))
  | .fcmplt _ g rd rs1 rs2 => some (sSlot 0x59 g (fSR rd rs1 rs2 0))
  | .fcmple _ g rd rs1 rs2 => some (sSlot 0x5A g (fSR rd rs1 rs2 0))
  | .fcvtif _ g rd rs1 => some (sSlot 0x5B g (fSR rd rs1 0 0))
  | .fcvtfi _ g rd rs1 => some (sSlot 0x5C g (fSR rd rs1 0 0))
  | .mova _ g rd rs1 => some (sSlot 0x60 g (fSR rd rs1 0 0))
  | .movs _ g rd rs1 => some (sSlot 0x61 g (fSR rd rs1 0 0))
  | .adda _ g rd rs1 rs2 => some (sSlot 0x62 g (fSR rd rs1 rs2 0))
  | .ld8 _ g rd base inc off => some (sSlot 0x70 g (fSM rd base inc off))
  | .ld8u _ g rd base inc off => some (sSlot 0x71 g (fSM rd base inc off))
  | .ld16 _ g rd base inc off => some (sSlot 0x72 g (fSM rd base inc off))
  | .ld16u _ g rd base inc off => some (sSlot 0x73 g (fSM rd base inc off))
  | .ld32 _ g rd base inc off => some (sSlot 0x74 g (fSM rd base inc off))
  | .ld32u _ g rd base inc off => some (sSlot 0x75 g (fSM rd base inc off))
  | .ld64 _ g rd base inc off => some (sSlot 0x76 g (fSM rd base inc off))
  | .st8 _ g rs base inc off => some (sSlot 0x78 g (fSM rs base inc off))
  | .st16 _ g rs base inc off => some (sSlot 0x79 g (fSM rs base inc off))
  | .st32 _ g rs base inc off => some (sSlot 0x7A g (fSM rs base inc off))
  | .st64 _ g rs base inc off => some (sSlot 0x7B g (fSM rs base inc off))
  | .aadd32 _ g rd base rs off => some (sSlot 0x80 g (fSA rd base rs off))
  | .aadd64 _ g rd base rs off => some (sSlot 0x81 g (fSA rd base rs off))
  | .amin32 _ g rd base rs off => some (sSlot 0x82 g (fSA rd base rs off))
  | .amin64 _ g rd base rs off => some (sSlot 0x83 g (fSA rd base rs off))
  | .aminu32 _ g rd base rs off => some (sSlot 0x84 g (fSA rd base rs off))
  | .aminu64 _ g rd base rs off => some (sSlot 0x85 g (fSA rd base rs off))
  | .amax32 _ g rd base rs off => some (sSlot 0x86 g (fSA rd base rs off))
  | .amax64 _ g rd base rs off => some (sSlot 0x87 g (fSA rd base rs off))
  | .amaxu32 _ g rd base rs off => some (sSlot 0x88 g (fSA rd base rs off))
  | .amaxu64 _ g rd base rs off => some (sSlot 0x89 g (fSA rd base rs off))
  | .aswap32 _ g rd base rs off => some (sSlot 0x8A g (fSA rd base rs off))
  | .aswap64 _ g rd base rs off => some (sSlot 0x8B g (fSA rd base rs off))
  | .acas32 _ g rd base rs off => some (sSlot 0x8C g (fSA rd base rs off))
  | .acas64 _ g rd base rs off => some (sSlot 0x8D g (fSA rd base rs off))
  | .afadd32 _ g rd base rs off => some (sSlot 0x8E g (fSA rd base rs off))
  | .fence _ g scope pairs => some (sSlot 0x90 g (scope * 2 ^ 25 + pairs * 2 ^ 21))
  | .hurdle _ g scope hid rc => some (sSlot 0x91 g (scope * 2 ^ 25 + hid * 2 ^ 21 + rc * 2 ^ 15))
  | .bwait _ g rd rb => some (sSlot 0x92 g (rd * 2 ^ 22 + rb * 2 ^ 16))
  | .btest _ g rd rb => some (sSlot 0x93 g (rd * 2 ^ 22 + rb * 2 ^ 16))
  | .hpost _ g r => some (sSlot 0x94 g (r * 2 ^ 22))
  | .hnext _ g r => some (sSlot 0x95 g (r * 2 ^ 22))
  | .hdone _ g r => some (sSlot 0x96 g (r * 2 ^ 22))
  | .br _ g off => some (sSlot 0xA0 g off.toNat)
  | .call _ g off => some (sSlot 0xA1 g off.toNat)
  | .brx _ g r => some (sSlot 0xA2 g (r * 2 ^ 22))
  | .ret _ g => some (sSlot 0xA3 g 0)
  | .exit _ g => some (sSlot 0xA5 g 0)
  | .breakInstr _ g => some (sSlot 0xA6 g 0)
  | .rdsr _ g rd idx => some (sSlot 0xC0 g (rd * 2 ^ 22 + idx))
  | .wrsr _ g rs idx => some (sSlot 0xC1 g (rs * 2 ^ 16 + idx))
  | .nop _ g => some (sSlot 0x00 g 0)
  | .vadd _ g o => some (vSlotOf 0x01 g o)
  | .vsub _ g o => some (vSlotOf 0x02 g o)
  | .vmul _ g o => some (vSlotOf 0x03 g o)
  | .vfma _ g o => some (vSlotOf 0x04 g o)
  | .vmin _ g o => some (vSlotOf 0x05 g o)
  | .vmax _ g o => some (vSlotOf 0x06 g o)
  | .vabs _ g o => some (vSlotOf 0x07 g o)
  | .vneg _ g o => some (vSlotOf 0x08 g o)
  | .vdiv _ g o => some (vSlotOf 0x09 g o)
  | .vsqrt _ g o => some (vSlotOf 0x0A g o)
  | .vrcp _ g o => some (vSlotOf 0x0B g o)
  | .vrsqrt _ g o => some (vSlotOf 0x0C g o)
  | .vand _ g o => some (vSlotOf 0x10 g o)
  | .vor _ g o => some (vSlotOf 0x11 g o)
  | .vxor _ g o => some (vSlotOf 0x12 g o)
  | .vshl _ g o => some (vSlotOf 0x13 g o)
  | .vshr _ g o => some (vSlotOf 0x14 g o)
  | .vsra _ g o => some (vSlotOf 0x15 g o)
  | .vcmpeq _ g o => some (vSlotOf 0x20 g o)
  | .vcmpne _ g o => some (vSlotOf 0x21 g o)
  | .vcmplt _ g o => some (vSlotOf 0x22 g o)
  | .vcmple _ g o => some (vSlotOf 0x23 g o)
  | .vsel _ g o => some (vSlotOf 0x24 g o)
  | .vclass _ g o => some (vSlotOf 0x25 g o)
  | .vexp _ g o => some (vSlotOf 0x30 g o)
  | .vexp2 _ g o => some (vSlotOf 0x31 g o)
  | .vlog _ g o => some (vSlotOf 0x32 g o)
  | .vlog2 _ g o => some (vSlotOf 0x33 g o)
  | .vsin _ g o => some (vSlotOf 0x34 g o)
  | .vcos _ g o => some (vSlotOf 0x35 g o)
  | .vtanh _ g o => some (vSlotOf 0x36 g o)
  | .vsigm _ g o => some (vSlotOf 0x37 g o)
  | .verf _ g o => some (vSlotOf 0x38 g o)
  | .vcvt _ g o => some (vSlotOf 0x40 g o)
  | .vperm _ g o => some (vSlotOf 0x50 g o)
  | .vshuf _ g o => some (vSlotOf 0x51 g o)
  | .vtrans _ g o => some (vSlotOf 0x52 g o)
  | .vpack _ g o => some (vSlotOf 0x60 g o)
  | .vunpack _ g o => some (vSlotOf 0x61 g o)
  | .vmxpack _ g o => some (vSlotOf 0x62 g o)
  | .vmxunpack _ g o => some (vSlotOf 0x63 g o)
  | .vsoftmax _ g o => some (vSlotOf 0x70 g o)
  | .vred _ g o => some (vSlotOf 0x80 g o)
  | .mand _ g o => some (vSlotOf 0x90 g o)
  | .mor _ g o => some (vSlotOf 0x91 g o)
  | .mxor _ g o => some (vSlotOf 0x92 g o)
  | .mnot _ g o => some (vSlotOf 0x93 g o)
  | .gensave _ g o => some (vSlotOf 0xA0 g o)
  | .genload _ g o => some (vSlotOf 0xA1 g o)
  | .gendraw _ g o => some (vSlotOf 0xA2 g o)
  | .gendrop _ g o => some (vSlotOf 0xA3 g o)
  | .vsplat _ g vd rs ty => some (vBundle 0xB0 g (vd * 2 ^ 23 + rs * 2 ^ 17 + ty * 2 ^ 5) none)
  | .mmac _ g aa ab kreg ta tb tile clear => some (mSlot 0x01 g (aa * 2 ^ 24 + ab * 2 ^ 20 + kreg * 2 ^ 14 + ta * 2 ^ 10 + tb * 2 ^ 6 + tile * 2 ^ 5 + clear.toNat * 2 ^ 4))
  | .msetp _ g interval => some (mSlot 0x02 g interval)
  | .mscale _ g sa sb tile => some (mSlot 0x03 g (sa * 2 ^ 22 + sb * 2 ^ 16 + tile * 2 ^ 5))
  | .mdrain _ g a scale ty rnd tile census => some (mSlot 0x04 g (a * 2 ^ 24 + scale * 2 ^ 18 + ty * 2 ^ 14 + rnd * 2 ^ 12 + tile * 2 ^ 11 + census.toNat * 2 ^ 10))
  | .mzero _ g tile => some (mSlot 0x05 g (tile * 2 ^ 5))
  | .mwait _ g => some (mSlot 0x06 g 0)
  | .dmcopy _ g a asrc len tag census => some (mSlot 0x20 g (a * 2 ^ 24 + asrc * 2 ^ 20 + len * 2 ^ 14 + tag * 2 ^ 8 + census.toNat * 2 ^ 7))
  | .dm2d _ g a tag census => some (mSlot 0x21 g (a * 2 ^ 24 + tag * 2 ^ 8 + census.toNat * 2 ^ 7))
  | .dmfill _ g a pat len tag => some (mSlot 0x22 g (a * 2 ^ 24 + pat * 2 ^ 18 + len * 2 ^ 12 + tag * 2 ^ 6))
  | .dmwait _ g tag => some (mSlot 0x23 g (tag * 2 ^ 22))
  | .vld _ g vd a stride inc => some (mSlot 0x40 g (vd * 2 ^ 23 + a * 2 ^ 19 + stride * 2 ^ 13 + inc.toNat * 2 ^ 12))
  | .vst _ g vs a stride inc census => some (mSlot 0x41 g (vs * 2 ^ 23 + a * 2 ^ 19 + stride * 2 ^ 13 + inc.toNat * 2 ^ 12 + census.toNat * 2 ^ 11))
  | .tld _ g a tile => some (mSlot 0x42 g (a * 2 ^ 24 + tile * 2 ^ 5))
  | .tst _ g a tile census => some (mSlot 0x43 g (a * 2 ^ 24 + tile * 2 ^ 5 + census.toNat * 2 ^ 4))
  | .rpost _ g a ed rd => some (mSlot 0x60 g (a * 2 ^ 24 + ed * 2 ^ 22 + rd * 2 ^ 16))
  | .registerWrite _ _ _ => none
  | .rcFieldRead _ _ => none
  | .devSetupLockSet _ => none
  | .stallTimeoutWrite _ => none
  | .stallTimeoutExpiry _ _ => none
  | .modeChange _ => none
  | .modeChangeComplete => none
  | .memInterleaveWrite _ _ => none
  | .interleaveTakesEffect _ => none
  | .hostMemRead _ _ => none
  | .hostMemWrite _ _ => none
  | .hostSnoop _ _ => none
  | .windowGrant _ _ _ _ _ _ _ => none
  | .windowRevoke _ _ => none
  | .windowRevokeComplete _ => none
  | .accessPerformed _ _ => none
  | .kstep _ => none
  | .drainExecute _ => none
  | .dmTransferPerformed _ => none
  | .coreHalt _ _ => none
  | .coreResume _ _ => none
  | .coreStep _ _ => none
  | .stepDone _ => none
  | .coreKill _ _ => none
  | .runnerFreed _ => none
  | .dbgDataWrite _ _ => none
  | .odrainGo _ _ => none
  | .odrainDone _ => none
  | .loadProgram _ _ _ => none
  | .launch _ _ _ _ _ _ _ => none
  | .launchShareStart _ => none
  | .haltRunners _ _ _ _ _ => none
  | .heatAssign _ => none
  | .heatAutoPost _ => none
  | .farQueueSegmentCarry _ => none
  | .farQueueHeadAdvance _ => none
  | .farQueueTailCopy _ => none
  | .stageCfgWrite _ _ _ _ => none
  | .snapshotTake _ => none
  | .snapshotWriteComplete _ => none
  | .generatorRestore _ => none
  | .vecReseed _ _ => none
  | .vecSnapWrite _ _ => none
  | .censusInstallGo _ => none
  | .censusInstallComplete => none
  | .censusRead _ _ _ _ _ _ => none
  | .scaleTableBaseWrite _ => none
  | .lapNextWrite _ => none
  | .lapRegionCfgWrite _ _ => none
  | .lapRegionBaseWrite _ _ _ => none
  | .lapBaseWrite _ _ => none
  | .unseal _ => none
  | .lapOpen _ _ => none
  | .lapOpenProceed => none
  | .lapBecomesWriting => none
  | .lapVote _ _ _ => none
  | .voteCast => none
  | .lapAbort _ _ => none
  | .relay _ _ _ => none
  | .mirror _ _ _ => none
  | .restore _ _ _ => none
  | .relayStart _ => none
  | .relaySend _ _ _ => none
  | .relayPacketReceive _ _ _ _ => none
  | .contributionLanded _ _ => none
  | .relayComplete _ _ => none
  | .relayTimeout _ _ => none
  | .relayCancel _ _ => none
  | .layoutInstall _ _ => none
  | .layoutInstallComplete => none
  | .copy _ _ _ _ => none
  | .fill _ _ _ _ => none
  | .nopDescriptor _ => none
  | .fenceDescriptor _ => none
  | .lanePlanInstall _ _ => none
  | .lanePlanApply _ => none
  | .coordAdopt _ _ _ _ => none
  | .cablingPlanInstall _ _ => none
  | .pacerSet _ _ _ => none
  | .lightDetected _ => none
  | .linkLightLost _ => none
  | .bringupTimeout _ => none
  | .bringupRetryTimer _ => none
  | .negotiation _ _ => none
  | .fecChange _ => none
  | .identityBlock _ _ => none
  | .identitySendTimer _ => none
  | .channelOpen _ _ _ _ => none
  | .channelOpenTimer _ _ => none
  | .managementMessage _ _ => none
  | .timeMessage _ _ => none
  | .linkAck _ _ _ _ _ _ => none
  | .writePacket _ _ _ _ => none
  | .packetForward _ _ _ => none
  | .packetSend _ _ _ => none
  | .linkAckTimer _ _ => none
  | .nakGapTimeout _ _ => none
  | .resendTimeout _ _ => none
  | .freeze _ _ => none
  | .thaw _ => none
  | .pause _ _ => none
  | .resume _ _ => none
  | .splitMarker _ _ => none
  | .nibLeave _ _ => none
  | .nibJoin _ _ => none
  | .fibreHold _ => none
  | .fibreResume _ => none
  | .keepalive _ _ _ => none
  | .keepaliveTimer _ => none
  | .fibreThaw _ _ => none
  | .fibreAdopt _ _ => none
  | .fibreRetrain _ _ => none
  | .fibreFreeze _ _ => none
  | .fibrePause _ _ => none
  | .combPresentChange _ _ => none
  | .combReadyChange _ _ => none
  | .combFaultChange _ _ => none
  | .linePowerSample _ _ _ _ => none
  | .lineMeanUpdate _ _ _ => none
  | .slopeUpdate _ _ _ => none
  | .commission _ => none
  | .spareStart _ => none
  | .spareStop _ => none
  | .switch _ => none
  | .lgtThreshWrite _ => none
  | .changeoverFibreBegin => none
  | .changeoverAcksDone => none
  | .changeoverRingsLocked _ => none
  | .sourceStartTimeout => none
  | .ringUnlock _ _ _ => none
  | .ringRelock _ _ _ => none
  | .read _ _ => none
  | .write _ _ => none
  | .atomic _ _ => none
  | .tallyAdd _ _ => none
  | .readResp _ _ => none
  | .writeAck _ _ => none
  | .atomicResp _ _ => none
  | .tallyAck _ _ => none
  | .packet _ _ => none
  | .notice _ _ => none
  | .credit _ _ _ _ _ _ => none
  | .nak _ _ => none
  | .sweyrSplitMarker _ _ _ => none
  | .sweyrAckTimer _ => none
  | .sweyrCreditTimer _ => none
  | .sweyrResendTimeout _ => none
  | .cap _ _ => none
  | .capAck _ => none
  | .capResendTimer _ => none
  | .trainReq _ _ => none
  | .laneTestDone _ _ => none
  | .laneResult _ _ => none
  | .widthCheck _ _ => none
  | .active _ => none
  | .resetNotice _ => none
  | .retrainReq _ => none
  | .time _ _ _ => none
  | .mgmt _ _ => none
  | .forwardedClockLoss _ => none
  | .arbPriorityWrite _ _ => none
  | .arbiterWatchdog _ => none
  | .swlRetrain _ _ => none
  | .swlRelearn _ _ => none
  | .swlDisable _ _ => none
  | .cxlLinkTrain _ _ _ _ => none
  | .queueInstallGo _ => none
  | .queueEnable _ _ => none
  | .queueDisable _ _ => none
  | .queueResume _ _ => none
  | .queueStopped _ => none
  | .submissionTailDoorbell _ _ => none
  | .completionHeadDoorbell _ _ => none
  | .descriptorFetch _ _ => none
  | .completionWrite _ => none
  | .emergencyHalt _ => none
  | .emergencyRelease _ => none
  | .mailboxPost _ _ _ _ => none
  | .legacyPost _ _ _ _ => none
  | .mailboxTagRead _ _ => none
  | .mailboxStateClear _ _ _ => none
  | .mailboxRead => none
  | .oscALoss _ => none
  | .bothRefLoss _ => none
  | .adaptiveClockAdjust _ _ => none
  | .rateThrottle _ _ => none
  | .hotThrottle _ _ => none
  | .ceilingThrottle _ => none
  | .supplyLow _ => none
  | .throttleRelease _ _ => none
  | .thermtrip _ _ => none
  | .thermtripResume _ _ => none
  | .splitMeasure _ => none
  | .ppsInEdge _ => none
  | .ppsInTimeout => none
  | .ppsOutRise => none
  | .todFrameSend => none
  | .timSet _ => none
  | .timNowRead => none
  | .coldReset => none
  | .moduleWarmReset _ => none
  | .dieWarmReset _ _ => none
  | .dieResetReady _ => none
  | .jobReset => none
  | .coreReset _ => none
  | .coreResetComplete => none
  | .parkRequest => none
  | .deepParkRequest => none
  | .activeRequest => none
  | .parkExitComplete => none
  | .supplyLoss _ => none
  | .inputOvervoltage _ => none
  | .inputSwitchOpen _ => none
  | .inputSwitchReclose _ => none
  | .auxLost _ => none
  | .powerUp => none
  | .refresh _ _ _ => none
  | .pinCheck _ _ _ _ => none
  | .patrolScrubRead _ _ _ => none
  | .boot _ => none
  | .processorStartTimeout _ => none
  | .watchdogExpiry _ => none
  | .firmwareUpdate _ => none
  | .firmwareUpdateComplete _ => none
  | .requestUpdate _ => none
  | .recoveryLoad _ => none
  | .recoveryCommit _ => none
  | .svnAdvance _ => none
  | .debugTokenPresent _ => none
  | .setdasa _ => none
  | .setCoord _ => none
  | .forceRecovery => none
  | .getStatus => none
  | .getVersion _ => none
  | .getCapabilities _ => none
  | .negotiateAlgorithms _ => none
  | .getDigests _ => none
  | .getCertificate _ _ _ _ => none
  | .challenge _ _ _ => none
  | .getMeasurements _ _ _ _ => none
  | .numericSensorRead _ => none
  | .sensorRefresh => none
  | .watchWrite _ _ => none
  | .watchWindowClose _ => none
  | .coreIllegalInstruction _ _ => none
  | .nibLock _ _ => none
  | .flitDelineation _ _ => none
  | .negotiationRound _ => none
  | .flitCrcFail _ => none
  | .sweyrCrcFail _ => none
  | .generatorLoadComplete _ => none
  | .reseedComplete _ => none
  | .referenceRestored _ => none
  | .auxRestored _ => none
  | .parkEntryComplete => none
  | .setEndpointId _ => none

/-- The runner that a command which is an instruction issues from. -/
def runnerOf : Instr → Nat
  | .registerWrite _ _ _ => 0
  | .rcFieldRead _ _ => 0
  | .devSetupLockSet _ => 0
  | .stallTimeoutWrite _ => 0
  | .stallTimeoutExpiry _ _ => 0
  | .modeChange _ => 0
  | .modeChangeComplete => 0
  | .memInterleaveWrite _ _ => 0
  | .interleaveTakesEffect _ => 0
  | .hostMemRead _ _ => 0
  | .hostMemWrite _ _ => 0
  | .hostSnoop _ _ => 0
  | .windowGrant _ _ _ _ _ _ _ => 0
  | .windowRevoke _ _ => 0
  | .windowRevokeComplete _ => 0
  | .accessPerformed _ _ => 0
  | .nop w _ => w
  | .add w _ _ _ _ => w
  | .sub w _ _ _ _ => w
  | .mul w _ _ _ _ => w
  | .mulh w _ _ _ _ => w
  | .mulhu w _ _ _ _ => w
  | .div w _ _ _ _ => w
  | .divu w _ _ _ _ => w
  | .rem w _ _ _ _ => w
  | .remu w _ _ _ _ => w
  | .and w _ _ _ _ => w
  | .or w _ _ _ _ => w
  | .xor w _ _ _ _ => w
  | .shl w _ _ _ _ => w
  | .shr w _ _ _ _ => w
  | .sra w _ _ _ _ => w
  | .min w _ _ _ _ => w
  | .max w _ _ _ _ => w
  | .minu w _ _ _ _ => w
  | .maxu w _ _ _ _ => w
  | .clz w _ _ _ => w
  | .ctz w _ _ _ => w
  | .popc w _ _ _ => w
  | .addi w _ _ _ _ => w
  | .andi w _ _ _ _ => w
  | .ori w _ _ _ _ => w
  | .xori w _ _ _ _ => w
  | .shli w _ _ _ _ => w
  | .shri w _ _ _ _ => w
  | .srai w _ _ _ _ => w
  | .li w _ _ _ => w
  | .cmpeq w _ _ _ _ => w
  | .cmpne w _ _ _ _ => w
  | .cmplt w _ _ _ _ => w
  | .cmpltu w _ _ _ _ => w
  | .cmple w _ _ _ _ => w
  | .cmpleu w _ _ _ _ => w
  | .pand w _ _ _ _ => w
  | .por w _ _ _ _ => w
  | .pxor w _ _ _ _ => w
  | .pandn w _ _ _ _ => w
  | .fadd w _ _ _ _ => w
  | .fsub w _ _ _ _ => w
  | .fmul w _ _ _ _ => w
  | .ffma w _ _ _ _ _ => w
  | .fdiv w _ _ _ _ => w
  | .fsqrt w _ _ _ => w
  | .fmin w _ _ _ _ => w
  | .fmax w _ _ _ _ => w
  | .fcmpeq w _ _ _ _ => w
  | .fcmplt w _ _ _ _ => w
  | .fcmple w _ _ _ _ => w
  | .fcvtif w _ _ _ => w
  | .fcvtfi w _ _ _ => w
  | .mova w _ _ _ => w
  | .movs w _ _ _ => w
  | .adda w _ _ _ _ => w
  | .ld8 w _ _ _ _ _ => w
  | .ld8u w _ _ _ _ _ => w
  | .ld16 w _ _ _ _ _ => w
  | .ld16u w _ _ _ _ _ => w
  | .ld32 w _ _ _ _ _ => w
  | .ld32u w _ _ _ _ _ => w
  | .ld64 w _ _ _ _ _ => w
  | .st8 w _ _ _ _ _ => w
  | .st16 w _ _ _ _ _ => w
  | .st32 w _ _ _ _ _ => w
  | .st64 w _ _ _ _ _ => w
  | .aadd32 w _ _ _ _ _ => w
  | .aadd64 w _ _ _ _ _ => w
  | .amin32 w _ _ _ _ _ => w
  | .amin64 w _ _ _ _ _ => w
  | .aminu32 w _ _ _ _ _ => w
  | .aminu64 w _ _ _ _ _ => w
  | .amax32 w _ _ _ _ _ => w
  | .amax64 w _ _ _ _ _ => w
  | .amaxu32 w _ _ _ _ _ => w
  | .amaxu64 w _ _ _ _ _ => w
  | .aswap32 w _ _ _ _ _ => w
  | .aswap64 w _ _ _ _ _ => w
  | .acas32 w _ _ _ _ _ => w
  | .acas64 w _ _ _ _ _ => w
  | .afadd32 w _ _ _ _ _ => w
  | .fence w _ _ _ => w
  | .hurdle w _ _ _ _ => w
  | .bwait w _ _ _ => w
  | .btest w _ _ _ => w
  | .hpost w _ _ => w
  | .hnext w _ _ => w
  | .hdone w _ _ => w
  | .br w _ _ => w
  | .call w _ _ => w
  | .brx w _ _ => w
  | .ret w _ => w
  | .exit w _ => w
  | .breakInstr w _ => w
  | .rdsr w _ _ _ => w
  | .wrsr w _ _ _ => w
  | .vadd w _ _ => w
  | .vsub w _ _ => w
  | .vmul w _ _ => w
  | .vfma w _ _ => w
  | .vmin w _ _ => w
  | .vmax w _ _ => w
  | .vabs w _ _ => w
  | .vneg w _ _ => w
  | .vdiv w _ _ => w
  | .vsqrt w _ _ => w
  | .vrcp w _ _ => w
  | .vrsqrt w _ _ => w
  | .vand w _ _ => w
  | .vor w _ _ => w
  | .vxor w _ _ => w
  | .vshl w _ _ => w
  | .vshr w _ _ => w
  | .vsra w _ _ => w
  | .vcmpeq w _ _ => w
  | .vcmpne w _ _ => w
  | .vcmplt w _ _ => w
  | .vcmple w _ _ => w
  | .vsel w _ _ => w
  | .vclass w _ _ => w
  | .vexp w _ _ => w
  | .vexp2 w _ _ => w
  | .vlog w _ _ => w
  | .vlog2 w _ _ => w
  | .vsin w _ _ => w
  | .vcos w _ _ => w
  | .vtanh w _ _ => w
  | .vsigm w _ _ => w
  | .verf w _ _ => w
  | .vcvt w _ _ => w
  | .vperm w _ _ => w
  | .vshuf w _ _ => w
  | .vtrans w _ _ => w
  | .vpack w _ _ => w
  | .vunpack w _ _ => w
  | .vmxpack w _ _ => w
  | .vmxunpack w _ _ => w
  | .vsoftmax w _ _ => w
  | .vred w _ _ => w
  | .mand w _ _ => w
  | .mor w _ _ => w
  | .mxor w _ _ => w
  | .mnot w _ _ => w
  | .gensave w _ _ => w
  | .genload w _ _ => w
  | .gendraw w _ _ => w
  | .gendrop w _ _ => w
  | .vsplat w _ _ _ _ => w
  | .mmac w _ _ _ _ _ _ _ _ => w
  | .kstep _ => 0
  | .msetp w _ _ => w
  | .mscale w _ _ _ _ => w
  | .mdrain w _ _ _ _ _ _ _ => w
  | .drainExecute _ => 0
  | .mzero w _ _ => w
  | .mwait w _ => w
  | .dmcopy w _ _ _ _ _ _ => w
  | .dm2d w _ _ _ _ => w
  | .dmfill w _ _ _ _ _ => w
  | .dmwait w _ _ => w
  | .dmTransferPerformed _ => 0
  | .vld w _ _ _ _ _ => w
  | .vst w _ _ _ _ _ _ => w
  | .tld w _ _ _ => w
  | .tst w _ _ _ _ => w
  | .rpost w _ _ _ _ => w
  | .coreHalt _ _ => 0
  | .coreResume _ _ => 0
  | .coreStep _ _ => 0
  | .stepDone _ => 0
  | .coreKill _ _ => 0
  | .runnerFreed _ => 0
  | .dbgDataWrite _ _ => 0
  | .odrainGo _ _ => 0
  | .odrainDone _ => 0
  | .loadProgram _ _ _ => 0
  | .launch _ _ _ _ _ _ _ => 0
  | .launchShareStart _ => 0
  | .haltRunners _ _ _ _ _ => 0
  | .heatAssign _ => 0
  | .heatAutoPost _ => 0
  | .farQueueSegmentCarry _ => 0
  | .farQueueHeadAdvance _ => 0
  | .farQueueTailCopy _ => 0
  | .stageCfgWrite _ _ _ _ => 0
  | .snapshotTake _ => 0
  | .snapshotWriteComplete _ => 0
  | .generatorRestore _ => 0
  | .vecReseed _ _ => 0
  | .vecSnapWrite _ _ => 0
  | .censusInstallGo _ => 0
  | .censusInstallComplete => 0
  | .censusRead _ _ _ _ _ _ => 0
  | .scaleTableBaseWrite _ => 0
  | .lapNextWrite _ => 0
  | .lapRegionCfgWrite _ _ => 0
  | .lapRegionBaseWrite _ _ _ => 0
  | .lapBaseWrite _ _ => 0
  | .unseal _ => 0
  | .lapOpen _ _ => 0
  | .lapOpenProceed => 0
  | .lapBecomesWriting => 0
  | .lapVote _ _ _ => 0
  | .voteCast => 0
  | .lapAbort _ _ => 0
  | .relay _ _ _ => 0
  | .mirror _ _ _ => 0
  | .restore _ _ _ => 0
  | .relayStart _ => 0
  | .relaySend _ _ _ => 0
  | .relayPacketReceive _ _ _ _ => 0
  | .contributionLanded _ _ => 0
  | .relayComplete _ _ => 0
  | .relayTimeout _ _ => 0
  | .relayCancel _ _ => 0
  | .layoutInstall _ _ => 0
  | .layoutInstallComplete => 0
  | .copy _ _ _ _ => 0
  | .fill _ _ _ _ => 0
  | .nopDescriptor _ => 0
  | .fenceDescriptor _ => 0
  | .lanePlanInstall _ _ => 0
  | .lanePlanApply _ => 0
  | .coordAdopt _ _ _ _ => 0
  | .cablingPlanInstall _ _ => 0
  | .pacerSet _ _ _ => 0
  | .lightDetected _ => 0
  | .linkLightLost _ => 0
  | .bringupTimeout _ => 0
  | .bringupRetryTimer _ => 0
  | .negotiation _ _ => 0
  | .fecChange _ => 0
  | .identityBlock _ _ => 0
  | .identitySendTimer _ => 0
  | .channelOpen _ _ _ _ => 0
  | .channelOpenTimer _ _ => 0
  | .managementMessage _ _ => 0
  | .timeMessage _ _ => 0
  | .linkAck _ _ _ _ _ _ => 0
  | .writePacket _ _ _ _ => 0
  | .packetForward _ _ _ => 0
  | .packetSend _ _ _ => 0
  | .linkAckTimer _ _ => 0
  | .nakGapTimeout _ _ => 0
  | .resendTimeout _ _ => 0
  | .freeze _ _ => 0
  | .thaw _ => 0
  | .pause _ _ => 0
  | .resume _ _ => 0
  | .splitMarker _ _ => 0
  | .nibLeave _ _ => 0
  | .nibJoin _ _ => 0
  | .fibreHold _ => 0
  | .fibreResume _ => 0
  | .keepalive _ _ _ => 0
  | .keepaliveTimer _ => 0
  | .fibreThaw _ _ => 0
  | .fibreAdopt _ _ => 0
  | .fibreRetrain _ _ => 0
  | .fibreFreeze _ _ => 0
  | .fibrePause _ _ => 0
  | .combPresentChange _ _ => 0
  | .combReadyChange _ _ => 0
  | .combFaultChange _ _ => 0
  | .linePowerSample _ _ _ _ => 0
  | .lineMeanUpdate _ _ _ => 0
  | .slopeUpdate _ _ _ => 0
  | .commission _ => 0
  | .spareStart _ => 0
  | .spareStop _ => 0
  | .switch _ => 0
  | .lgtThreshWrite _ => 0
  | .changeoverFibreBegin => 0
  | .changeoverAcksDone => 0
  | .changeoverRingsLocked _ => 0
  | .sourceStartTimeout => 0
  | .ringUnlock _ _ _ => 0
  | .ringRelock _ _ _ => 0
  | .read _ _ => 0
  | .write _ _ => 0
  | .atomic _ _ => 0
  | .tallyAdd _ _ => 0
  | .readResp _ _ => 0
  | .writeAck _ _ => 0
  | .atomicResp _ _ => 0
  | .tallyAck _ _ => 0
  | .packet _ _ => 0
  | .notice _ _ => 0
  | .credit _ _ _ _ _ _ => 0
  | .nak _ _ => 0
  | .sweyrSplitMarker _ _ _ => 0
  | .sweyrAckTimer _ => 0
  | .sweyrCreditTimer _ => 0
  | .sweyrResendTimeout _ => 0
  | .cap _ _ => 0
  | .capAck _ => 0
  | .capResendTimer _ => 0
  | .trainReq _ _ => 0
  | .laneTestDone _ _ => 0
  | .laneResult _ _ => 0
  | .widthCheck _ _ => 0
  | .active _ => 0
  | .resetNotice _ => 0
  | .retrainReq _ => 0
  | .time _ _ _ => 0
  | .mgmt _ _ => 0
  | .forwardedClockLoss _ => 0
  | .arbPriorityWrite _ _ => 0
  | .arbiterWatchdog _ => 0
  | .swlRetrain _ _ => 0
  | .swlRelearn _ _ => 0
  | .swlDisable _ _ => 0
  | .cxlLinkTrain _ _ _ _ => 0
  | .queueInstallGo _ => 0
  | .queueEnable _ _ => 0
  | .queueDisable _ _ => 0
  | .queueResume _ _ => 0
  | .queueStopped _ => 0
  | .submissionTailDoorbell _ _ => 0
  | .completionHeadDoorbell _ _ => 0
  | .descriptorFetch _ _ => 0
  | .completionWrite _ => 0
  | .emergencyHalt _ => 0
  | .emergencyRelease _ => 0
  | .mailboxPost _ _ _ _ => 0
  | .legacyPost _ _ _ _ => 0
  | .mailboxTagRead _ _ => 0
  | .mailboxStateClear _ _ _ => 0
  | .mailboxRead => 0
  | .oscALoss _ => 0
  | .bothRefLoss _ => 0
  | .adaptiveClockAdjust _ _ => 0
  | .rateThrottle _ _ => 0
  | .hotThrottle _ _ => 0
  | .ceilingThrottle _ => 0
  | .supplyLow _ => 0
  | .throttleRelease _ _ => 0
  | .thermtrip _ _ => 0
  | .thermtripResume _ _ => 0
  | .splitMeasure _ => 0
  | .ppsInEdge _ => 0
  | .ppsInTimeout => 0
  | .ppsOutRise => 0
  | .todFrameSend => 0
  | .timSet _ => 0
  | .timNowRead => 0
  | .coldReset => 0
  | .moduleWarmReset _ => 0
  | .dieWarmReset _ _ => 0
  | .dieResetReady _ => 0
  | .jobReset => 0
  | .coreReset _ => 0
  | .coreResetComplete => 0
  | .parkRequest => 0
  | .deepParkRequest => 0
  | .activeRequest => 0
  | .parkExitComplete => 0
  | .supplyLoss _ => 0
  | .inputOvervoltage _ => 0
  | .inputSwitchOpen _ => 0
  | .inputSwitchReclose _ => 0
  | .auxLost _ => 0
  | .powerUp => 0
  | .refresh _ _ _ => 0
  | .pinCheck _ _ _ _ => 0
  | .patrolScrubRead _ _ _ => 0
  | .boot _ => 0
  | .processorStartTimeout _ => 0
  | .watchdogExpiry _ => 0
  | .firmwareUpdate _ => 0
  | .firmwareUpdateComplete _ => 0
  | .requestUpdate _ => 0
  | .recoveryLoad _ => 0
  | .recoveryCommit _ => 0
  | .svnAdvance _ => 0
  | .debugTokenPresent _ => 0
  | .setdasa _ => 0
  | .setCoord _ => 0
  | .forceRecovery => 0
  | .getStatus => 0
  | .getVersion _ => 0
  | .getCapabilities _ => 0
  | .negotiateAlgorithms _ => 0
  | .getDigests _ => 0
  | .getCertificate _ _ _ _ => 0
  | .challenge _ _ _ => 0
  | .getMeasurements _ _ _ _ => 0
  | .numericSensorRead _ => 0
  | .sensorRefresh => 0
  | .watchWrite _ _ => 0
  | .watchWindowClose _ => 0
  | .coreIllegalInstruction _ _ => 0
  | .nibLock _ _ => 0
  | .flitDelineation _ _ => 0
  | .negotiationRound _ => 0
  | .flitCrcFail _ => 0
  | .sweyrCrcFail _ => 0
  | .generatorLoadComplete _ => 0
  | .reseedComplete _ => 0
  | .referenceRestored _ => 0
  | .auxRestored _ => 0
  | .parkEntryComplete => 0
  | .setEndpointId _ => 0

end Sys2Proof.Machine
end

