-- ==== Sys2Proof/Safety.lean ====
section
/-! DEFINITION. The terms of the claims: what every step keeps, and when a command has its own effect. -/

namespace Sys2Proof.Machine

/-- What every step keeps: memory stands in its one canonical form, so that equal memories are equal data. -/
def State.Inv (s : State) : Prop := Memory.wf s.mem = true

/-- A die whose registers answer: it is not in reset (R40) and not power-gated. -/
def dieAnswers (s : State) (d : Nat) : Prop := inReset s d = false ∧ gatedNow s d = false

/-- Registers whose writes do nothing beyond their fields (Table 0.3). -/
def ordinary : Reg → Bool
  | .cmpMemInterleave _ | .cmpCoreStatus _ | .cmpCoreCtl _ | .cmpCoreDbgData _ | .cmpCoreOdrainCtl _ | .cmpVecSnap _ | .cmpVecGenCtl _
  | .lapCensusInstallCtl | .lapScaleTableBase | .lapNext | .lapRecordBase | .lapClipBase | .lapCtl | .lapRegionBase _ _ | .lapRegionCfg _
  | .colCancelCtl _ | .cmpStageCfg _ _ | .cmpStageQueue _ _ _ | .memEccCtl | .opxFibreCtl _ | .lgtCombCtl | .lgtThresh | .swlCtl _ | .swlArb _
  | .cmpMeshArb _ _ | .hifQueueInstallCtl | .hifEmergencyHalt | .hifQCtl _ | .mbxInLegacyMeta | .mbxDoorbell | .mbxDbMask | .mbxOutMeta _
  | .mbxOutState _ | .mbxLegacyOutMeta _ | .mbxLegacyOutState _ | .timCtl | .timSet | .pwrMode | .pwrState | .pwrResetCtl | .pwrCoreReset
  | .pwrThermCfg | .secSvn | .secFwCtl | .secRecoveryCtl | .secDebugToken | .errWatchCfg _ => false
  | _ => true

/-- What a bundle of a runner's issue does besides its slots: the PC moves on, and the core counts it. -/
def issued (s : State) (w pc : Nat) : State :=
  let r := runnerAt s w
  let n := (coreAt s (coreOf w)).issues + 1
  modCore (coreOf w) (fun c => { c with issues := n })
    (setRunner s w { r with pc := pc, issued := n, stepIssued := r.stepArm, stepArm := false })

/-- A Ready runner whose core has nothing to do at a bundle boundary. -/
structure CanIssue (s : State) (w : Nat) : Prop where
  ready : (runnerAt s w).state = .ready
  going : (runnerAt s w).ending = false
  fresh : (runnerAt s w).stepIssued = false
  die : inReset s (dieOfRunner w) = false
  quiet : (coreAt s (coreOf w)).boundary = []

/-- The registers a slot names await no earlier write, and its units can accept it. -/
def free (s : State) (w : Nat) (x : Slot) : Prop := (∀ r ∈ x.srcs ++ x.dsts, busy s w r = false) ∧ x.holds s = none

end Sys2Proof.Machine
end

