-- ==== Sys2Proof/WellFormed.lean ====
section
/-! DEFINITION. Well-formed commands: every operand within the width that the spec's encoding, register or frame gives it. A slot's register field
may still name a register its instruction does not have; that is an illegal instruction (R79), which the meanings freeze the runner for. -/

namespace Sys2Proof

/-- Every number of a list is below a bound. -/
def below (n : Nat) (l : List Nat) : Bool := l.all (· < n)

/-- A runner of the module and a guard field (R17, R77). -/
def issues (w g : Nat) : Bool := below 16384 [w] && below 16 [g]

/-- One of the 128 queues (Table 1.8). -/
def Hdr.wf (h : Hdr) : Bool := below 128 [h.q]

/-- The operand widths of form VR (Table 3.9). -/
def VR.wf (o : VR) : Bool := below 32 [o.vd, o.va, o.vb, o.func] && below 8 [o.mask] && below 16 [o.type]

/-- A pool of Table 1.8: an engine or a core. -/
def Pool.wf : Pool → Bool
  | .relay e => below 4 [e]
  | .runner k => below 1024 [k]
  | .heat => true
  | .lap => true

/-- The widths of Table 11.12. -/
def Nego.wf (n : Nego) : Bool := below 256 [n.fec, n.features, n.credit, n.round]

/-- The widths of Table 11.14. -/
def IdBlock.wf (b : IdBlock) : Bool :=
  below 256 [b.port, b.fibre, b.phys, b.level] && below 65536 [b.coord, b.job] && below (2 ^ 32) [b.planCrc]

/-- The widths of Table 15.3. -/
def TimeMsg.wf (m : TimeMsg) : Bool :=
  below 256 [m.hops, m.state] && below 65536 [m.pacer, m.sent, m.sentFrac, m.seen, m.seenFrac] && below (2 ^ 64) [m.sentNs, m.seenNs]

/-- The widths of Table 8.7: at most 15 data flits of 60 words, each with its residue, and 14 blocks. -/
def RelayPkt.wf (p : RelayPkt) : Bool :=
  below (2 ^ 32) (p.tag :: p.lap :: p.crc :: p.blocks) && below 65536 (p.layout :: p.sender :: p.residues) && below 16 [p.kind, p.op, p.type] &&
  below 32768 [p.overflow] && below (2 ^ 64) [p.first] && decide (-128 ≤ p.scale ∧ p.scale ≤ 127) &&
  decide (p.words.length ≤ 900 ∧ p.residues.length ≤ 15 ∧ p.blocks.length ≤ 14)

/-- The widths of Table 11.7. -/
def WritePkt.wf (p : WritePkt) : Bool := below (2 ^ 64) [p.dest, p.postAddr] && decide (p.data.length ≤ 3808)

/-- The widths of Tables 13.3 and 13.6. -/
def SwlMsg.wf (m : SwlMsg) : Bool :=
  below 65536 [m.src, m.dst, m.tag, m.residue] && below (2 ^ 64) [m.addr] && below 3841 [m.len] && below 256 [m.atomic, m.status] &&
  below (2 ^ 32) [m.master] && decide (m.data.length ≤ 3840) && below 33 m.poison

/-- The widths of Table 13.3, and flits that the message has (R370). -/
def SwlIn.wf (a : SwlIn) : Bool :=
  a.msg.wf && below 256 [a.seq] && decide (0 < a.count ∧ a.first + a.count ≤ 33) && a.ack.all (· < 256)

/-- A flit's 128 bytes on an end the module has. -/
def SwlHeard.wf (h : SwlHeard) : Bool := below 448 [h.x] && decide (h.image.length = 128)

/-- An arbiter the module has (R385). -/
def Arb.wf : Arb → Bool
  | .mesh d r p => below 16 [d] && below 16 [r] && below 5 [p]
  | .swl x => below 448 [x]

/-- A well-formed command. -/
def Instr.wf : Instr → Bool
  | .registerWrite off size _ => below (2 ^ 25) [off] && below 9 [size]
  | .rcFieldRead off size => below (2 ^ 25) [off] && below 9 [size]
  | .devSetupLockSet _ => true
  | .stallTimeoutWrite _ => true
  | .stallTimeoutExpiry pool _ => pool.wf
  | .modeChange _ => true
  | .modeChangeComplete => true
  | .memInterleaveWrite d _ => below 16 [d]
  | .interleaveTakesEffect d => below 16 [d]
  | .hostMemRead addr _ => below (2 ^ 64) [addr]
  | .hostMemWrite addr _ => below (2 ^ 64) [addr]
  | .hostSnoop addr _ => below (2 ^ 64) [addr]
  | .windowGrant h id rights holder queue base len => h.wf && below 256 [id, queue] && below 8 [rights] && below 4 [holder] && below (2 ^ 64) [base, len]
  | .windowRevoke h id => h.wf && below 256 [id]
  | .windowRevokeComplete id => below 256 [id]
  | .accessPerformed _ _ => true
  | .nop w g => issues w g
  | .add w g rd rs1 rs2 => issues w g && below 64 [rd, rs1, rs2]
  | .sub w g rd rs1 rs2 => issues w g && below 64 [rd, rs1, rs2]
  | .mul w g rd rs1 rs2 => issues w g && below 64 [rd, rs1, rs2]
  | .mulh w g rd rs1 rs2 => issues w g && below 64 [rd, rs1, rs2]
  | .mulhu w g rd rs1 rs2 => issues w g && below 64 [rd, rs1, rs2]
  | .div w g rd rs1 rs2 => issues w g && below 64 [rd, rs1, rs2]
  | .divu w g rd rs1 rs2 => issues w g && below 64 [rd, rs1, rs2]
  | .rem w g rd rs1 rs2 => issues w g && below 64 [rd, rs1, rs2]
  | .remu w g rd rs1 rs2 => issues w g && below 64 [rd, rs1, rs2]
  | .and w g rd rs1 rs2 => issues w g && below 64 [rd, rs1, rs2]
  | .or w g rd rs1 rs2 => issues w g && below 64 [rd, rs1, rs2]
  | .xor w g rd rs1 rs2 => issues w g && below 64 [rd, rs1, rs2]
  | .shl w g rd rs1 rs2 => issues w g && below 64 [rd, rs1, rs2]
  | .shr w g rd rs1 rs2 => issues w g && below 64 [rd, rs1, rs2]
  | .sra w g rd rs1 rs2 => issues w g && below 64 [rd, rs1, rs2]
  | .min w g rd rs1 rs2 => issues w g && below 64 [rd, rs1, rs2]
  | .max w g rd rs1 rs2 => issues w g && below 64 [rd, rs1, rs2]
  | .minu w g rd rs1 rs2 => issues w g && below 64 [rd, rs1, rs2]
  | .maxu w g rd rs1 rs2 => issues w g && below 64 [rd, rs1, rs2]
  | .clz w g rd rs1 => issues w g && below 64 [rd, rs1]
  | .ctz w g rd rs1 => issues w g && below 64 [rd, rs1]
  | .popc w g rd rs1 => issues w g && below 64 [rd, rs1]
  | .addi w g rd rs1 _ => issues w g && below 64 [rd, rs1]
  | .andi w g rd rs1 _ => issues w g && below 64 [rd, rs1]
  | .ori w g rd rs1 _ => issues w g && below 64 [rd, rs1]
  | .xori w g rd rs1 _ => issues w g && below 64 [rd, rs1]
  | .shli w g rd rs1 _ => issues w g && below 64 [rd, rs1]
  | .shri w g rd rs1 _ => issues w g && below 64 [rd, rs1]
  | .srai w g rd rs1 _ => issues w g && below 64 [rd, rs1]
  | .li w g rd _ => issues w g && below 64 [rd]
  | .cmpeq w g pd rs1 rs2 => issues w g && below 64 [pd, rs1, rs2]
  | .cmpne w g pd rs1 rs2 => issues w g && below 64 [pd, rs1, rs2]
  | .cmplt w g pd rs1 rs2 => issues w g && below 64 [pd, rs1, rs2]
  | .cmpltu w g pd rs1 rs2 => issues w g && below 64 [pd, rs1, rs2]
  | .cmple w g pd rs1 rs2 => issues w g && below 64 [pd, rs1, rs2]
  | .cmpleu w g pd rs1 rs2 => issues w g && below 64 [pd, rs1, rs2]
  | .pand w g pd p1 p2 => issues w g && below 64 [pd, p1, p2]
  | .por w g pd p1 p2 => issues w g && below 64 [pd, p1, p2]
  | .pxor w g pd p1 p2 => issues w g && below 64 [pd, p1, p2]
  | .pandn w g pd p1 p2 => issues w g && below 64 [pd, p1, p2]
  | .fadd w g rd rs1 rs2 => issues w g && below 64 [rd, rs1, rs2]
  | .fsub w g rd rs1 rs2 => issues w g && below 64 [rd, rs1, rs2]
  | .fmul w g rd rs1 rs2 => issues w g && below 64 [rd, rs1, rs2]
  | .ffma w g rd rs1 rs2 rs3 => issues w g && below 64 [rd, rs1, rs2, rs3]
  | .fdiv w g rd rs1 rs2 => issues w g && below 64 [rd, rs1, rs2]
  | .fsqrt w g rd rs1 => issues w g && below 64 [rd, rs1]
  | .fmin w g rd rs1 rs2 => issues w g && below 64 [rd, rs1, rs2]
  | .fmax w g rd rs1 rs2 => issues w g && below 64 [rd, rs1, rs2]
  | .fcmpeq w g rd rs1 rs2 => issues w g && below 64 [rd, rs1, rs2]
  | .fcmplt w g rd rs1 rs2 => issues w g && below 64 [rd, rs1, rs2]
  | .fcmple w g rd rs1 rs2 => issues w g && below 64 [rd, rs1, rs2]
  | .fcvtif w g rd rs1 => issues w g && below 64 [rd, rs1]
  | .fcvtfi w g rd rs1 => issues w g && below 64 [rd, rs1]
  | .mova w g rd rs1 => issues w g && below 64 [rd, rs1]
  | .movs w g rd rs1 => issues w g && below 64 [rd, rs1]
  | .adda w g rd rs1 rs2 => issues w g && below 64 [rd, rs1, rs2]
  | .ld8 w g rd base _ _ => issues w g && below 64 [rd] && below 16 [base]
  | .ld8u w g rd base _ _ => issues w g && below 64 [rd] && below 16 [base]
  | .ld16 w g rd base _ _ => issues w g && below 64 [rd] && below 16 [base]
  | .ld16u w g rd base _ _ => issues w g && below 64 [rd] && below 16 [base]
  | .ld32 w g rd base _ _ => issues w g && below 64 [rd] && below 16 [base]
  | .ld32u w g rd base _ _ => issues w g && below 64 [rd] && below 16 [base]
  | .ld64 w g rd base _ _ => issues w g && below 64 [rd] && below 16 [base]
  | .st8 w g rs base _ _ => issues w g && below 64 [rs] && below 16 [base]
  | .st16 w g rs base _ _ => issues w g && below 64 [rs] && below 16 [base]
  | .st32 w g rs base _ _ => issues w g && below 64 [rs] && below 16 [base]
  | .st64 w g rs base _ _ => issues w g && below 64 [rs] && below 16 [base]
  | .aadd32 w g rd base rs _ => issues w g && below 64 [rd, rs] && below 16 [base]
  | .aadd64 w g rd base rs _ => issues w g && below 64 [rd, rs] && below 16 [base]
  | .amin32 w g rd base rs _ => issues w g && below 64 [rd, rs] && below 16 [base]
  | .amin64 w g rd base rs _ => issues w g && below 64 [rd, rs] && below 16 [base]
  | .aminu32 w g rd base rs _ => issues w g && below 64 [rd, rs] && below 16 [base]
  | .aminu64 w g rd base rs _ => issues w g && below 64 [rd, rs] && below 16 [base]
  | .amax32 w g rd base rs _ => issues w g && below 64 [rd, rs] && below 16 [base]
  | .amax64 w g rd base rs _ => issues w g && below 64 [rd, rs] && below 16 [base]
  | .amaxu32 w g rd base rs _ => issues w g && below 64 [rd, rs] && below 16 [base]
  | .amaxu64 w g rd base rs _ => issues w g && below 64 [rd, rs] && below 16 [base]
  | .aswap32 w g rd base rs _ => issues w g && below 64 [rd, rs] && below 16 [base]
  | .aswap64 w g rd base rs _ => issues w g && below 64 [rd, rs] && below 16 [base]
  | .acas32 w g rd base rs _ => issues w g && below 64 [rd, rs] && below 16 [base]
  | .acas64 w g rd base rs _ => issues w g && below 64 [rd, rs] && below 16 [base]
  | .afadd32 w g rd base rs _ => issues w g && below 64 [rd, rs] && below 16 [base]
  | .fence w g scope pairs => issues w g && below 8 [scope] && below 16 [pairs]
  | .hurdle w g scope hid rc => issues w g && below 8 [scope] && below 16 [hid] && below 64 [rc]
  | .bwait w g rd rb => issues w g && below 64 [rd, rb]
  | .btest w g rd rb => issues w g && below 64 [rd, rb]
  | .hpost w g r => issues w g && below 64 [r]
  | .hnext w g r => issues w g && below 64 [r]
  | .hdone w g r => issues w g && below 64 [r]
  | .br w g _ => issues w g
  | .call w g _ => issues w g
  | .brx w g r => issues w g && below 64 [r]
  | .ret w g => issues w g
  | .exit w g => issues w g
  | .breakInstr w g => issues w g
  | .rdsr w g rd idx => issues w g && below 64 [rd] && below 256 [idx]
  | .wrsr w g rs idx => issues w g && below 64 [rs] && below 256 [idx]
  | .vadd w g o => issues w g && o.wf
  | .vsub w g o => issues w g && o.wf
  | .vmul w g o => issues w g && o.wf
  | .vfma w g o => issues w g && o.wf
  | .vmin w g o => issues w g && o.wf
  | .vmax w g o => issues w g && o.wf
  | .vabs w g o => issues w g && o.wf
  | .vneg w g o => issues w g && o.wf
  | .vdiv w g o => issues w g && o.wf
  | .vsqrt w g o => issues w g && o.wf
  | .vrcp w g o => issues w g && o.wf
  | .vrsqrt w g o => issues w g && o.wf
  | .vand w g o => issues w g && o.wf
  | .vor w g o => issues w g && o.wf
  | .vxor w g o => issues w g && o.wf
  | .vshl w g o => issues w g && o.wf
  | .vshr w g o => issues w g && o.wf
  | .vsra w g o => issues w g && o.wf
  | .vcmpeq w g o => issues w g && o.wf
  | .vcmpne w g o => issues w g && o.wf
  | .vcmplt w g o => issues w g && o.wf
  | .vcmple w g o => issues w g && o.wf
  | .vsel w g o => issues w g && o.wf
  | .vclass w g o => issues w g && o.wf
  | .vexp w g o => issues w g && o.wf
  | .vexp2 w g o => issues w g && o.wf
  | .vlog w g o => issues w g && o.wf
  | .vlog2 w g o => issues w g && o.wf
  | .vsin w g o => issues w g && o.wf
  | .vcos w g o => issues w g && o.wf
  | .vtanh w g o => issues w g && o.wf
  | .vsigm w g o => issues w g && o.wf
  | .verf w g o => issues w g && o.wf
  | .vcvt w g o => issues w g && o.wf
  | .vperm w g o => issues w g && o.wf
  | .vshuf w g o => issues w g && o.wf
  | .vtrans w g o => issues w g && o.wf
  | .vpack w g o => issues w g && o.wf
  | .vunpack w g o => issues w g && o.wf
  | .vmxpack w g o => issues w g && o.wf
  | .vmxunpack w g o => issues w g && o.wf
  | .vsoftmax w g o => issues w g && o.wf
  | .vred w g o => issues w g && o.wf
  | .mand w g o => issues w g && o.wf
  | .mor w g o => issues w g && o.wf
  | .mxor w g o => issues w g && o.wf
  | .mnot w g o => issues w g && o.wf
  | .gensave w g o => issues w g && o.wf
  | .genload w g o => issues w g && o.wf
  | .gendraw w g o => issues w g && o.wf
  | .gendrop w g o => issues w g && o.wf
  | .vsplat w g vd rs ty => issues w g && below 32 [vd] && below 64 [rs] && below 16 [ty]
  | .mmac w g aa ab kreg ta tb tile _ => issues w g && below 16 [aa, ab, ta, tb] && below 64 [kreg] && below 2 [tile]
  | .kstep k => below 1024 [k]
  | .msetp w g interval => issues w g && below 4 [interval]
  | .mscale w g sa sb tile => issues w g && below 64 [sa, sb] && below 2 [tile]
  | .mdrain w g a scale ty rnd tile _ => issues w g && below 16 [a, ty] && below 64 [scale] && below 4 [rnd] && below 2 [tile]
  | .drainExecute k => below 1024 [k]
  | .mzero w g tile => issues w g && below 2 [tile]
  | .mwait w g => issues w g
  | .dmcopy w g a asrc len tag _ => issues w g && below 16 [a, asrc] && below 64 [len, tag]
  | .dm2d w g a tag _ => issues w g && below 16 [a] && below 64 [tag]
  | .dmfill w g a pat len tag => issues w g && below 16 [a] && below 64 [pat, len, tag]
  | .dmwait w g tag => issues w g && below 64 [tag]
  | .dmTransferPerformed _ => true
  | .vld w g vd a stride _ => issues w g && below 32 [vd] && below 16 [a] && below 64 [stride]
  | .vst w g vs a stride _ _ => issues w g && below 32 [vs] && below 16 [a] && below 64 [stride]
  | .tld w g a tile => issues w g && below 16 [a] && below 2 [tile]
  | .tst w g a tile _ => issues w g && below 16 [a] && below 2 [tile]
  | .rpost w g a ed rd => issues w g && below 16 [a] && below 4 [ed] && below 64 [rd]
  | .coreHalt k _ => below 1024 [k]
  | .coreResume k _ => below 1024 [k]
  | .coreStep k _ => below 1024 [k]
  | .stepDone w => below 16384 [w]
  | .coreKill k _ => below 1024 [k]
  | .runnerFreed w => below 16384 [w]
  | .dbgDataWrite k _ => below 1024 [k]
  | .odrainGo k _ => below 1024 [k]
  | .odrainDone k => below 1024 [k]
  | .loadProgram h image dies => h.wf && below (2 ^ 64) [image] && below 65536 [dies]
  | .launch h dies n _ entry cores _ => h.wf && below 65536 [dies, entry] && below 256 [n] && below (2 ^ 64) [cores]
  | .launchShareStart k => below 1024 [k]
  | .haltRunners h dies runners action cores => h.wf && below 65536 [dies, runners] && below 256 [action] && below (2 ^ 64) [cores]
  | .heatAssign d => below 16 [d]
  | .heatAutoPost sd => below 256 [sd]
  | .farQueueSegmentCarry base => below (2 ^ 64) [base]
  | .farQueueHeadAdvance base => below (2 ^ 64) [base]
  | .farQueueTailCopy base => below (2 ^ 64) [base]
  | .stageCfgWrite d stage reg _ => below 16 [d] && below 8 [stage] && below 6 [reg]
  | .snapshotTake k => below 1024 [k]
  | .snapshotWriteComplete d => below 16 [d]
  | .generatorRestore k => below 1024 [k]
  | .vecReseed d _ => below 16 [d]
  | .vecSnapWrite d _ => below 16 [d]
  | .censusInstallGo _ => true
  | .censusInstallComplete => true
  | .censusRead h first count lap dest _ => h.wf && below 4096 [first] && below 8192 [count] && below (2 ^ 32) [lap] && below (2 ^ 64) [dest]
  | .scaleTableBaseWrite _ => true
  | .lapNextWrite _ => true
  | .lapRegionCfgWrite r _ => below 64 [r]
  | .lapRegionBaseWrite r cp _ => below 64 [r] && below 2 [cp]
  | .lapBaseWrite which _ => below 2 [which]
  | .unseal _ => true
  | .lapOpen h lap => h.wf && below (2 ^ 32) [lap]
  | .lapOpenProceed => true
  | .lapBecomesWriting => true
  | .lapVote h lap _ => h.wf && below (2 ^ 32) [lap]
  | .voteCast => true
  | .lapAbort h lap => h.wf && below (2 ^ 32) [lap]
  | .relay h ext ed => h.wf && below (2 ^ 64) [ext] && below 4 [ed]
  | .mirror h ext ed => h.wf && below (2 ^ 64) [ext] && below 4 [ed]
  | .restore h ext ed => h.wf && below (2 ^ 64) [ext] && below 4 [ed]
  | .relayStart e => below 4 [e]
  | .relaySend e slot part => below 4 [e] && below 64 [slot] && below 65536 [part]
  | .relayPacketReceive l label a p => p.wf && below 768 [l] && below 256 [label, a.job] && below 65536 [a.seq, a.nibs]
  | .contributionLanded e slot => below 4 [e] && below 64 [slot]
  | .relayComplete e slot => below 4 [e] && below 64 [slot]
  | .relayTimeout e slot => below 4 [e] && below 64 [slot]
  | .relayCancel e _ => below 4 [e]
  | .layoutInstall h id => h.wf && below 65536 [id]
  | .layoutInstallComplete => true
  | .copy h dst src len => h.wf && below (2 ^ 64) [dst, len] && below 2 [src]
  | .fill h dst _ len => h.wf && below (2 ^ 64) [dst, len]
  | .nopDescriptor h => h.wf
  | .fenceDescriptor h => h.wf
  | .lanePlanInstall h addr => h.wf && below (2 ^ 64) [addr]
  | .lanePlanApply _ => true
  | .coordAdopt h x y slot => h.wf && below 16 [x, y] && below 256 [slot]
  | .cablingPlanInstall h addr => h.wf && below (2 ^ 64) [addr]
  | .pacerSet h mode coord => h.wf && below 2 [mode] && below 65536 [coord]
  | .lightDetected l => below 768 [l]
  | .linkLightLost l => below 768 [l]
  | .bringupTimeout l => below 768 [l]
  | .bringupRetryTimer l => below 768 [l]
  | .negotiation l n => n.wf && below 768 [l]
  | .fecChange l => below 768 [l]
  | .identityBlock l b => b.wf && below 768 [l]
  | .identitySendTimer l => below 768 [l]
  | .channelOpen l job coord peer => below 768 [l.link] && below 65536 [job, coord] && below 18 [peer.phys]
  | .channelOpenTimer e c => below 4 [e] && below 64 [c]
  | .managementMessage l data => below 768 [l.link] && decide (data.length ≤ 240)
  | .timeMessage l m => m.wf && below 768 [l.link]
  | .linkAck l seq _ c0 c1 c2 => below 768 [l] && below 4096 [seq] && below 256 [c0, c1, c2]
  | .writePacket l label a p => p.wf && below 768 [l] && below 256 [label, a.job] && below 65536 [a.seq, a.nibs]
  | .packetForward e c cls => below 4 [e] && below 64 [c] && below 3 [cls]
  | .packetSend e c cls => below 4 [e] && below 64 [c] && below 3 [cls]
  | .linkAckTimer e c => below 4 [e] && below 64 [c]
  | .nakGapTimeout e c => below 4 [e] && below 64 [c]
  | .resendTimeout e c => below 4 [e] && below 64 [c]
  | .freeze l reason => below 768 [l] && below 256 [reason]
  | .thaw l => below 768 [l]
  | .pause l classes => below 768 [l] && below 8 [classes]
  | .resume l classes => below 768 [l] && below 8 [classes]
  | .splitMarker l num => below 768 [l] && below 65536 [num]
  | .nibLeave l nib => below 768 [l] && below 16 [nib]
  | .nibJoin l nib => below 768 [l] && below 16 [nib]
  | .fibreHold f => below 24 [f]
  | .fibreResume f => below 24 [f]
  | .keepalive l _ classes => below 768 [l] && below 8 [classes]
  | .keepaliveTimer l => below 768 [l]
  | .fibreThaw f _ => below 24 [f]
  | .fibreAdopt f _ => below 24 [f]
  | .fibreRetrain f _ => below 24 [f]
  | .fibreFreeze f _ => below 24 [f]
  | .fibrePause f _ => below 24 [f]
  | .combPresentChange src _ => below 2 [src]
  | .combReadyChange src _ => below 2 [src]
  | .combFaultChange src _ => below 2 [src]
  | .linePowerSample e src line _ => below 4 [e] && below 2 [src] && below 72 [line]
  | .lineMeanUpdate e src line => below 4 [e] && below 2 [src] && below 72 [line]
  | .slopeUpdate e src line => below 4 [e] && below 2 [src] && below 72 [line]
  | .commission _ => true
  | .spareStart _ => true
  | .spareStop _ => true
  | .switch _ => true
  | .lgtThreshWrite _ => true
  | .changeoverFibreBegin => true
  | .changeoverAcksDone => true
  | .changeoverRingsLocked _ => true
  | .sourceStartTimeout => true
  | .ringUnlock f nib _ => below 24 [f] && below 16 [nib]
  | .ringRelock f nib _ => below 24 [f] && below 16 [nib]
  | .read x m => m.wf && below 448 [x]
  | .write x m => m.wf && below 448 [x]
  | .atomic x m => m.wf && below 448 [x]
  | .tallyAdd x m => m.wf && below 448 [x]
  | .readResp x m => m.wf && below 448 [x]
  | .writeAck x m => m.wf && below 448 [x]
  | .atomicResp x m => m.wf && below 448 [x]
  | .tallyAck x m => m.wf && below 448 [x]
  | .packet x m => m.wf && below 448 [x]
  | .notice x m => m.wf && below 448 [x]
  | .credit x c0 c1 c2 c3 ack => ack.all (· < 256) && below 448 [x] && below 256 [c0, c1, c2, c3]
  | .nak x seq => below 448 [x] && below 256 [seq]
  | .sweyrSplitMarker x ns frac => below 448 [x] && below (2 ^ 64) [ns] && below 65536 [frac]
  | .sweyrAckTimer x => below 448 [x]
  | .sweyrCreditTimer x => below 448 [x]
  | .sweyrResendTimeout x => below 448 [x]
  | .cap x _ => below 448 [x]
  | .capAck x => below 448 [x]
  | .capResendTimer x => below 448 [x]
  | .trainReq x rate => below 448 [x] && below 256 [rate]
  | .laneTestDone x _ => below 448 [x]
  | .laneResult x _ => below 448 [x]
  | .widthCheck x _ => below 448 [x]
  | .active x => below 448 [x]
  | .resetNotice x => below 448 [x]
  | .retrainReq x => below 448 [x]
  | .time x ns frac => below 448 [x] && below (2 ^ 64) [ns] && below 65536 [frac]
  | .mgmt x _ => below 448 [x]
  | .forwardedClockLoss x => below 448 [x]
  | .arbPriorityWrite a _ => a.wf
  | .arbiterWatchdog a => a.wf
  | .swlRetrain x _ => below 448 [x]
  | .swlRelearn x _ => below 448 [x]
  | .swlDisable x _ => below 448 [x]
  | .cxlLinkTrain width speed _ _ => below 256 [width, speed]
  | .queueInstallGo _ => true
  | .queueEnable q _ => below 128 [q]
  | .queueDisable q _ => below 128 [q]
  | .queueResume q _ => below 128 [q]
  | .queueStopped q => below 128 [q]
  | .submissionTailDoorbell q _ => below 128 [q]
  | .completionHeadDoorbell q _ => below 128 [q]
  | .descriptorFetch q _ => below 128 [q]
  | .completionWrite q => below 128 [q]
  | .emergencyHalt _ => true
  | .emergencyRelease _ => true
  | .mailboxPost sender receiver _ _ => below 22 [sender, receiver]
  | .legacyPost sender receiver _ _ => below 22 [sender, receiver]
  | .mailboxTagRead receiver sender => below 22 [receiver, sender]
  | .mailboxStateClear sender receiver _ => below 22 [sender, receiver]
  | .mailboxRead => true
  | .oscALoss d => below 20 [d]
  | .bothRefLoss d => below 20 [d]
  | .adaptiveClockAdjust island _ => below 1024 [island]
  | .rateThrottle d _ => below 20 [d]
  | .hotThrottle d r => below 20 [d] && (!r.package || below 16 [d])
  | .ceilingThrottle _ => true
  | .supplyLow _ => true
  | .throttleRelease d cause => below 20 [d] && below 4 [cause]
  | .thermtrip d r => below 20 [d] && (!r.package || below 16 [d])
  | .thermtripResume d _ => below 20 [d]
  | .splitMeasure l => below 768 [l]
  | .ppsInEdge ns => below (2 ^ 64) [ns]
  | .ppsInTimeout => true
  | .ppsOutRise => true
  | .todFrameSend => true
  | .timSet _ => true
  | .timNowRead => true
  | .coldReset => true
  | .moduleWarmReset cause => below 16 [cause]
  | .dieWarmReset d cause => below 20 [d] && below 16 [cause]
  | .dieResetReady d => below 20 [d]
  | .jobReset => true
  | .coreReset _ => true
  | .coreResetComplete => true
  | .parkRequest => true
  | .deepParkRequest => true
  | .activeRequest => true
  | .parkExitComplete => true
  | .supplyLoss _ => true
  | .inputOvervoltage _ => true
  | .inputSwitchOpen _ => true
  | .inputSwitchReclose _ => true
  | .auxLost _ => true
  | .powerUp => true
  | .refresh d ch _ => below 16 [d] && below 32 [ch]
  | .pinCheck d ch pin _ => below 16 [d] && below 32 [ch] && below 24 [pin]
  | .patrolScrubRead d _ _ => below 20 [d]
  | .boot _ => true
  | .processorStartTimeout d => below 20 [d]
  | .watchdogExpiry d => below 20 [d]
  | .firmwareUpdate _ => true
  | .firmwareUpdateComplete _ => true
  | .requestUpdate _ => true
  | .recoveryLoad _ => true
  | .recoveryCommit _ => true
  | .svnAdvance _ => true
  | .debugTokenPresent _ => true
  | .setdasa addr => below 128 [addr]
  | .setCoord coord => below 65536 [coord]
  | .forceRecovery => true
  | .getStatus => true
  | .getVersion tr => below 2 [tr]
  | .getCapabilities tr => below 2 [tr]
  | .negotiateAlgorithms tr => below 2 [tr]
  | .getDigests tr => below 2 [tr]
  | .getCertificate tr slot off len => below 2 [tr] && below 256 [slot] && below 65536 [off, len]
  | .challenge tr slot _ => below 2 [tr] && below 256 [slot]
  | .getMeasurements tr idx _ _ => below 2 [tr] && below 256 [idx]
  | .numericSensorRead id => below 65536 [id]
  | .sensorRefresh => true
  | .watchWrite n _ => below 16 [n]
  | .watchWindowClose n => below 16 [n]
  | .coreIllegalInstruction w _ => below 16384 [w]
  | .nibLock l nib => below 768 [l] && below 16 [nib]
  | .flitDelineation l heard => below 768 [l] && below 16 [heard.nib]
  | .negotiationRound l => below 768 [l]
  | .flitCrcFail f => below 768 [f.link] && below 16 [f.nib] && below 65536 [f.words] && decide (f.image.length = 256)
  | .sweyrCrcFail f => f.wf
  | .generatorLoadComplete k => below 1024 [k]
  | .reseedComplete d => below 16 [d]
  | .referenceRestored d => below 20 [d]
  | .auxRestored _ => true
  | .parkEntryComplete => true
  | .setEndpointId eid => below 256 [eid]

end Sys2Proof
end

