-- ==== Sys2Proof/Certificates/Slice0/Obligations.lean ====
section
/-! DEFINITION. The statements for the provers. -/

open Sys2Proof Sys2Proof.Machine

namespace Sys2Proof.Claims

/-- Runner `w` can issue an instruction that names the registers `l`: its guard is on, no register awaits an earlier write, and the bundle after it is
in the program. -/
structure Clear (s : State) (w g : Nat) (l : List RegName) : Prop where
  can : CanIssue s w
  guard : guardOn s w g = true
  sources : ∀ r ∈ l, busy s w r = false
  within : (runnerAt s w).pc + 1 < bundleCount s (dieOfRunner w)
  short : (runnerAt s w).pc + 1 < 2 ^ 17

/-- The state after a bundle of runner `w` has issued and the PC has moved to the next bundle, before what its instruction writes. -/
def moved (s : State) (w : Nat) : State := issued s w ((runnerAt s w).pc + 1)

/-- The outcome of an instruction that writes a scalar register and nothing else (s0 discards it). -/
def writes (s : State) (w rd : Nat) (v : Word) : Host.Outcome State Fault Refusal := .next (setS w rd v (moved s w))

/-- The outcome of an instruction that writes a predicate and nothing else (p0 discards it). -/
def sets (s : State) (w pd : Nat) (v : Bool) : Host.Outcome State Fault Refusal := .next (setP w pd v (moved s w))

/-- An access of runner `w` is in flight, decided in state `s` and numbered there; `t` is what else the bundle leaves. -/
def flying (s : State) (w : Nat) (kind : AccKind) (right : Right) (chunks : List (Nat × Nat)) (c : Option Counted) (t : State) : State :=
  { t with
    nextId := s.nextId + 1
    accesses := s.accesses ++ [⟨s.nextId, w, (runnerAt s w).pc, kind, chunks, chunks.flatMap (fun p => admitting s none right p.1 p.2),
      if right.writes then lapSeen s else .unseen, c, right.writes⟩] }

/-- Access `a` can be performed now, with nothing that follows it at once: no error in stored data, no injection armed, no lap open, no array operation queued, and no runner that ends or waits. -/
structure Quiet (s : State) (a : Access) : Prop where
  found : s.accesses.find? (fun b => b.id == a.id) = some a
  first : accessBlocked s a = false
  reached : memoryRefuses s (dieOfRunner a.runner) a.reads a.written = none
  clean : s.memp.faults = [] ∧ s.memp.poison = [] ∧ s.memp.dead = []
  unarmed : ∀ d < 16, flag s (.memDieInjectCtl d) F.memDieInjectCtl_arm = false
  outside : s.lap.state = 0 ∧ a.seen.writing = none ∧ a.seen.idle = true
  idle : (coreAt s (coreOf a.runner)).array = []
  going : (runnerAt s a.runner).ending = false
  awake : ∀ p ∈ s.runners, p.2.state ≠ .waiting

/-- A descriptor of opcode `op` at the head of its queue may start, in a queue of the privilege it needs. -/
structure Starts (s : State) (h : Hdr) (op : Nat) : Prop where
  may : mayStart s h.q op = true
  privilege : privileged op = true → (queueAt s h.q).priv = true
  fresh : ∀ d ∈ s.host.descs, d.id ≠ s.nextId

/-- What a descriptor of queue `q` reads and writes is admitted, outside the lap block's rules, and in memory that answers. -/
structure Reaches (s : State) (q : Nat) (reads writes : List (Nat × Nat)) : Prop where
  read : ∀ p ∈ reads, permits s (some q) .r p.1 p.2 = true
  write : ∀ p ∈ writes, permits s (some q) .w p.1 p.2 = true
  lap : ∀ p ∈ writes, lapCode s false p.1 p.2 = 0
  clean : s.memp.faults = []
  answers : memoryRefuses s 16 reads writes = none

/-- A descriptor of `h` is complete with a status, an error code and a result, its entry waiting as the newest to be written. -/
def finishes (s t : State) (h : Hdr) (op status code : Nat) (result : List Byte) : Prop :=
  t.host.entries = s.host.entries ++ [⟨(begin h op s).1, status, code, result⟩] ∧ t.host.descs = s.host.descs

/-- No error watch is enabled, so that a raising makes no other. -/
def unwatched (s : State) : Prop := ∀ i < 16, flag s (.errWatchCfg i) F.errWatchCfg_enable = false

/-- An error of a code was raised between two states (with no watch enabled): its counter is one higher, or stays at its greatest value. -/
def recorded (s t : State) (code : Nat) : Prop :=
  getF t (.errCount (countIndex code)) F.errCount_count =
    min (getF s (.errCount (countIndex code)) F.errCount_count + 1) (2 ^ F.errCount_count.width - 1)

/-- The bits an element of a type fills in a register: 8 for FP6 (R136), its own width otherwise. -/
def slotBits (ty : Nat) : Nat := if typeBits ty = 6 then 8 else typeBits ty

/-- Element `i` of a vector register in a type, by flat index (R135): at bit offset i × w, least significant bits first. -/
def vElem (s : State) (k v ty i : Nat) : Nat :=
  natLE (Mem.read s.mem (vregAddr k v + i * slotBits ty / 8) 4) / 2 ^ (i * slotBits ty % 8) % 2 ^ typeBits ty

/-- Element `i` of the vb operand: of its register, or of the constant that fills every container (R142). -/
def vbElem (s : State) (k : Nat) (o : VR) (ty i : Nat) : Nat :=
  match o.const with
  | some c => c.toNat / 2 ^ (i % perWord ty * slotBits ty) % 2 ^ typeBits ty
  | none => vElem s k o.vb ty i

/-- Nothing but vector register `v` of core `k` changes in memory. -/
def onlyV (s t : State) (k v : Nat) : Prop :=
  ∀ a, a < vregAddr k v ∨ vregAddr k v + 4096 ≤ a → Mem.get t.mem a = Mem.get s.mem a

/-- Runner `w` can issue the vector instruction `op` with operands `o`, with no error in stored data or injection armed. -/
structure VReady (s : State) (w g op : Nat) (o : VR) : Prop where
  clear : Clear s w g [.v o.vd, .v o.va, .v o.vb]
  legal : vLegal op o = true
  clean : s.memp.faults = []
  unarmed : ∀ d < 16, flag s (.memDieInjectCtl d) F.memDieInjectCtl_arm = false
  loaded : (coreAt s (coreOf w)).loading = false

/-- Two ranges of addresses that do not meet. -/
def Apart (a n b m : Nat) : Prop := a + n ≤ b ∨ b + m ≤ a

/-- Memory of `t` holds the scale table of lap `n` as R180 lays it out, computed from a scale-state area of `s`. -/
def holdsTable (s t : State) (area n : Nat) : Prop :=
  rdN t (tableOf s n + 0x4000) 4 = n ∧ (∀ i < 60, Mem.get t.mem (tableOf s n + 0x4004 + i) = 0) ∧
  ∀ slot < 4096, Mem.read t.mem (tableOf s n + slot * 4) 4 = (slotDef s slot).elim [0, 0, 0, 0] (fun d =>
    [BitVec.ofInt 8 (published s area slot d).1, if (published s area slot d).2 then 3 else 2, 0, 0])

/-- The lap record of `t` is as Table 7.3 gives it, where `s` has a base for one. -/
def showsRecord (s t : State) : Prop :=
  let a := getF s .lapRecordBase F.lapRecordBase_base * 64
  a ≠ 0 → rdN t a 4 = t.lap.ready % 2 ^ 32 ∧ rdN t (a + 4) 4 = t.lap.newest % 2 ^ 32 ∧ rdN t (a + 8) 4 = t.lap.settled % 2 ^ 32 ∧
    rdN t (a + 12) 1 = t.lap.outcome % 256 ∧ rdN t (a + 13) 1 = t.lap.state % 256 ∧ rdN t (a + 14) 1 = (awaitsWriting t).toNat ∧ rdN t (a + 15) 1 = 0 ∧
    (∀ r < 64, (rdN t (a + 16) 8).testBit r = (dryCopy t r == 1)) ∧ ∀ i < 40, Mem.get t.mem (a + 24 + i) = 0

/-- The commit relay of the older lap can start and stay in its slot: every voter is reached, and nothing is held for it. -/
def CanCommit (s : State) : Prop :=
  (engineAt s 0).held = [] ∧ ((voters s).map (·.coord)).Nodup ∧ ∀ g ∈ voters s, g.coord ≠ coordOf s → (reachOf s 0 g.coord).isSome = true

/-- Lap `n`, the older open lap, has voted: its vote and exchange stand, the lap block is Voting and the commit relay runs with them. -/
def voted (s t : State) (n : Nat) (vote : Bool) (flags : Nat) : Prop :=
  t.lap.state = 2 ∧ t.lap.older.any (fun o => o.lap == n && o.cast == some vote && o.flags == flags) = true ∧ t.lap.spec = s.lap.spec ∧
  t.lap.exchange = some (exchangeOf n vote s) ∧ (runAt t 0 63).any (fun r => r.post.ext.commits && r.post.ext.lap == n && r.post.ext.tag == 0xFFFFFFFF &&
    r.own == some (exchangeWords (exchangeOf n vote s))) = true ∧ showsRecord s t

/-- What R217 to R219 do alike when lap `n` settles with an outcome. -/
def settles (s t : State) (n outcome : Nat) : Prop :=
  t.lap.settled = n ∧ t.lap.outcome = outcome ∧ t.lap.state = 0 ∧ t.lap.spec = none ∧ t.lap.exchange = none ∧ t.lap.history.get? n = some outcome ∧
  showsRecord s t ∧ (runAt t 0 63).isNone = true ∧ (∀ v ∈ t.lap.votes, v.lap ≠ n) ∧
  (s.lap.votes = [] → t.host.entries = s.host.entries) ∧
  (∀ v ∈ s.lap.votes, ∀ d ∈ (descOf s v.desc).toList, s.lap.votes = [v] → v.lap = n →
    t.host.entries = s.host.entries ++ [⟨d, 0, 0, bytesLE 1 outcome ++ [0, 0, 0] ++ bytesLE 4 n⟩])

/-- Address `a` is of SRAM that a reset of compute die `d` zeroes: its wells, folios, tiles and vector registers. -/
def sram (d a : Nat) : Prop :=
  [0x1000_0000_0000, 0x1100_0000_0000, 0x1200_0000_0000].any (fun b => decide (b + d * 0x800_0000 ≤ a ∧ a < b + (d + 1) * 0x800_0000)) = true

/-- An address of a scale table that lies in a well, which a job reset or a die reset keeps (Table 6.7). -/
def keptTable (s : State) (a : Nat) : Prop :=
  0x1000_0000_0000 ≤ tableBase s ∧ tableBase s < 0x1000_0000_0000 + 16 * 0x800_0000 ∧ tableBase s ≤ a ∧ a < tableBase s + 0x1_0000

end Sys2Proof.Claims

open Sys2Proof.Claims

/-! ### The machine as a whole -/

/-- The module takes waiting commands first in, first out. What passes on an empty queue is the model's choice (log entry 1). -/
def Obligations.StepTakesFrontCommand : Prop :=
  ∀ (s : State) (c : Instr) (l : List Instr),
    step { s with pending := c :: l } = exec c { s with pending := l } ∧ step { s with pending := [] } = .next (tick { s with pending := [] })

/-- R72. A runner's `issued` is the core's number of its latest bundle, 0 for none since its launch. -/
def Obligations.BundlesIssueInTurn : Prop :=
  ∀ (s : State) (k w : Nat), coreOf w = k →
    ((∀ v, coreOf v = k → canIssue s v = false) → coreIssue k s = s) ∧
    (canIssue s w = true → (∀ v, coreOf v = k → canIssue s v = true →
        (runnerAt s w).issued < (runnerAt s v).issued ∨ ((runnerAt s w).issued = (runnerAt s v).issued ∧ w ≤ v)) →
      (∀ b, nextBundle s w = some b → s.memp.faults = [] → coreIssue k s = stepDone w (issue w (bundleSlots w b) s)) ∧
      (nextBundle s w = none → coreIssue k s = freezeRunner w 0x0109 0 s))

/-- R13 and Table 1.8. That memory no one has written reads 0 is the model's choice (log entry 3). -/
def Obligations.ResetState : Prop :=
  let s := State.reset
  s.Inv ∧ s.mem = [] ∧ s.pending = [] ∧ (∀ r f, f ∈ r.fields → f.lo + f.width ≤ 64 → f.cold < 2 ^ f.width → getF s r f = f.cold) ∧
  (∀ w, (runnerAt s w).state = .free) ∧ (∀ q, (queueAt s q).state = .absent) ∧ s.windows = [] ∧ s.accesses = [] ∧ s.lap.state = 0 ∧
  getF s .devScratch F.devScratch_value = 0 ∧ getF s .devSetupLock F.devSetupLock_lock = 0 ∧
  getF s .devStallTimeout F.devStallTimeout_relay_ms = 5000 ∧ getF s .devStallTimeout F.devStallTimeout_heat_ms = 100 ∧
  getF s .devStallTimeout F.devStallTimeout_runner_ms = 1000 ∧ getF s .devStallTimeout F.devStallTimeout_lap_ms = 60000

/-- The invariant of the model's memory, for all 421 commands. -/
def Obligations.MemoryStaysCanonical : Prop := ∀ (s t : State), s.Inv → step s = .next t → t.Inv

/-- R75, R76 and the tables of opcodes: `bundleOf` is the encoder, `bundleSlots` the decoder. R312 to R315 and R320 for optical flits and packets, R367 to R371 for Sweyr flits, lanes and
messages, R375 for frames; the payload-valid bytes of an optical flit that the spec leaves open are the model's choice (log entry 117). -/
def Obligations.InstructionsDecodeAsEncoded : Prop :=
  (∀ (i : Instr) (b : BitVec 128) (s : State), i.wf = true → bundleOf i = some b → exec i s = .next (issue (runnerOf i) (bundleSlots (runnerOf i) b) s)) ∧
  (∀ f : Flit, f.fits → f.typed = true → readFlit f.image = some f ∧ f.image.length = 256) ∧
  (∀ (seq : Nat) (p : Packet), seq < 2 ^ 16 → p.cls < 4 → p.label < 256 → p.job < 256 → p.dest = none →
    (∀ q, p.cargo = .relay q → q.wf = true ∧ q.residues.length = relayFlits q ∧ q.blocks.length = 14) → (∀ q, p.cargo = .write q → q.wf = true) → readPacket (packetFlits seq p) = some p) ∧
  (∀ f : SwlFlit, f.fits → readSwlFlit true f.image = some f ∧ f.image.length = 128 ∧ (f.type ≠ 4 → readSwlFlit false f.image = some f)) ∧
  (∀ (op seq : Nat) (ack : Option Nat) (m : SwlMsg), opKnown op = true → seq < 256 → m.wf = true → (if opCarries op = true then m.len = m.data.length else m.data = []) →
    m.poison.Pairwise (· < ·) → (∀ i ∈ m.poison, i < msgFlits m) → readMessage (swlFlits op seq ack m) = some (op, m)) ∧
  (∀ (image : List Byte) (code b : Nat), code ∈ [0, 1, 5, 2, 6, 10, 14] → b < 8 * image.length →
    let first := (laneGroup code).1
    let w := (laneGroup code).2
    laneBit code (first + b % w) (b / w) image = some ((image.getD (b / 8) 0).getLsbD (b % 8)) ∧ first + w ≤ 64) ∧
  (∀ (kind : Nat) (body : List Byte), kind < 256 → body.length ≤ 64 → readFrame (frameBytes kind body) = some (kind, body))

/-! ### Registers, limits and errors -/

/-- R9, R10 (Table 0.3), R12, R39 and R40. `written` is what a write makes of a register's fields with DEV_SETUP_LOCK clear. -/
def Obligations.RegisterAccess : Prop :=
  (∀ (s : State) (off size : Nat) (v : BitVec 64), ¬(size = 4 ∧ off % 4 = 0) → ¬(size = 8 ∧ off % 8 = 0) →
    exec (.registerWrite off size v) s = .next s ∧ exec (.rcFieldRead off size) s = .next { s with resp := 0 }) ∧
  (∀ (s : State) (off : Nat) (v : BitVec 64), off % 4 = 0 → regAt off = none → regAt (off - 4) = none →
    ¬(0x18000 ≤ off ∧ off < 0x1A000) → ¬(0xC0000 ≤ off ∧ off < 0x100000) →
    exec (.registerWrite off 4 v) s = .next s ∧ exec (.rcFieldRead off 4) s = .next { s with resp := 0 } ∧
    (off % 8 = 0 → regAt (off + 4) = none → exec (.registerWrite off 8 v) s = .next s ∧ exec (.rcFieldRead off 8) s = .next { s with resp := 0 })) ∧
  (∀ (s : State) (off : Nat) (r : Reg) (v : BitVec 64), off % 4 = 0 → regAt off = some r → (r.wide = true → off % 8 = 0) → inReset s r.holder = true →
    off < 0x18000 ∨ (0x1A000 ≤ off ∧ off < 0xC0000) ∨ 0x100000 ≤ off →
    exec (.registerWrite off 4 v) s = .next s ∧ exec (.rcFieldRead off 4) s = .next { s with resp := 0xFFFFFFFF } ∧
    (r.wide = true → exec (.registerWrite off 8 v) s = .next s ∧ exec (.rcFieldRead off 8) s = .next { s with resp := BitVec.allOnes 64 } ∧
      (regAt (off + 4) = none → exec (.registerWrite (off + 4) 4 v) s = .next s ∧ exec (.rcFieldRead (off + 4) 4) s = .next { s with resp := 0xFFFFFFFF }))) ∧
  (∀ (s : State) (off : Nat) (r : Reg), off % 4 = 0 → regAt off = some r → (r.wide = true → off % 8 = 0) → dieAnswers s r.holder →
    off < 0x18000 ∨ 0x1A000 ≤ off →
    ∃ t, exec (.rcFieldRead off (if r.wide then 8 else 4)) s = .next t ∧ (r.wide = true → t.resp = viewReg s r) ∧
      (r.wide = false → t.resp = BitVec.ofNat 64 ((viewReg s r).toNat % 2 ^ 32)) ∧ t.mem = s.mem ∧ t.runners = s.runners ∧
      (∀ f ∈ r.fields, f.acc = .rc → getF t r f = f.cold)) ∧
  (∀ (r : Reg) (f : Fld) (old v : Word), f ∈ r.fields →
    (f.acc = .rw ∨ f.acc = .rwl → f.of (written r old v) = f.of v) ∧ (f.acc = .ro ∨ f.acc = .wo ∨ f.acc = .rc → f.of (written r old v) = f.of old) ∧
    (f.acc = .w1c → ∀ i < f.width, (f.of (written r old v)).testBit i = ((f.of old).testBit i && !(f.of v).testBit i)) ∧
    (f.acc = .w1s → ∀ i < f.width, (f.of (written r old v)).testBit i = ((f.of old).testBit i || (f.of v).testBit i)) ∧
    (∀ i, (∀ g ∈ r.fields, ¬(g.lo ≤ i ∧ i < g.lo + g.width)) → (written r old v).getLsbD i = old.getLsbD i)) ∧
  (∀ (s : State) (off : Nat) (r : Reg) (v : BitVec 64), off % 4 = 0 → regAt off = some r → (r.wide = true → off % 8 = 0) → dieAnswers s r.holder → ordinary r = true →
    (∀ f ∈ r.fields, f.acc ≠ .rwl) → off < 0x18000 ∨ (0x1A000 ≤ off ∧ off < 0xC0000) ∨ 0x100000 ≤ off →
    exec (.registerWrite off (if r.wide then 8 else 4) v) s = .next (setReg s r (written r (regVal s r) (if r.wide then v else BitVec.ofNat 64 (v.toNat % 2 ^ 32))))) ∧
  (∀ (s : State) (off size : Nat) (v : BitVec 64), (∃ t, exec (.registerWrite off size v) s = .next t) ∧ ∃ t, exec (.rcFieldRead off size) s = .next t) ∧
  (∀ (s : State) (v : BitVec 64), dieAnswers s 16 → ∃ t, exec (.registerWrite 0x20 8 v) s = .next t ∧ getF t .devScratch F.devScratch_value = v.toNat ∧
    t.mem = s.mem ∧ t.runners = s.runners ∧ (∀ r, r ≠ .devScratch → regVal t r = regVal s r) ∧
    ∃ u, exec (.rcFieldRead 0x20 8) t = .next u ∧ u.resp = v)

/-- R501, with R49 for the mapping register; R36, and R37 and R41 for DEV_STALL_TIMEOUT. -/
def Obligations.SetupLockAndStallTimeouts : Prop :=
  (∀ (s : State) (v : BitVec 32), dieAnswers s 16 → ∃ t, exec (.devSetupLockSet v) s = .next t ∧ t.mem = s.mem ∧ t.runners = s.runners ∧
    flag t .devSetupLock F.devSetupLock_lock = (setupLocked s || v.getLsbD 0) ∧ (∀ r, r ≠ .devSetupLock → regVal t r = regVal s r)) ∧
  (∀ (s : State) (r : Reg) (v : BitVec 64) (f : Fld), setupLocked s = true → unwatched s → f ∈ r.fields → (∃ g ∈ r.fields, g.acc = .rwl) →
    let t := fieldsWrite r v s
    (f.acc = .rwl → getF t r f = getF s r f) ∧ (f.acc = .rw → getF t r f = f.of v) ∧ (f.acc = .ro → getF t r f = getF s r f) ∧
    ((∀ g ∈ r.fields, g.acc = .rwl → g.of v = getF s r g) → t.blotter = s.blotter) ∧
    ((∃ g ∈ r.fields, g.acc = .rwl ∧ g.of v ≠ getF s r g) → recorded s t 0x0A19)) ∧
  (∀ (s : State) (d : Nat) (v : BitVec 32), d < 16 → dieAnswers s d → unwatched s → s.newMaps = [] →
    let w := v.setWidth 64
    let bad := F.cmpMemInterleave_granule.of w = 7 ∨ 32 < F.cmpMemInterleave_pinned_channels.of w
    (setupLocked s = true → ∃ t, exec (.memInterleaveWrite d v) s = .next t ∧ t.newMaps = [] ∧ regVal t (.cmpMemInterleave d) = regVal s (.cmpMemInterleave d)) ∧
    (setupLocked s = false → bad → ∃ t, exec (.memInterleaveWrite d v) s = .next t ∧ t.newMaps = [] ∧ recorded s t 0x0413 ∧
      regVal t (.cmpMemInterleave d) = regVal s (.cmpMemInterleave d) ∧ t.mem = s.mem) ∧
    (setupLocked s = false → ¬bad → ∃ t, exec (.memInterleaveWrite d v) s = .next t ∧ t.mem = s.mem ∧ t.regs = s.regs ∧
      (t.newMaps.get? d).any (fun p => F.cmpMemInterleave_granule.of p.2 == F.cmpMemInterleave_granule.of w &&
        F.cmpMemInterleave_pinned_channels.of p.2 == F.cmpMemInterleave_pinned_channels.of w) ∧
      (s.accesses = [] → s.cores = [] → ∃ u, exec (.interleaveTakesEffect d) t = .next u ∧ u.newMaps.get? d = none ∧
        getF u (.cmpMemInterleave d) F.cmpMemInterleave_granule = F.cmpMemInterleave_granule.of w ∧
        getF u (.cmpMemInterleave d) F.cmpMemInterleave_pinned_channels = F.cmpMemInterleave_pinned_channels.of w))) ∧
  (∀ (s : State) (v : BitVec 64), dieAnswers s 16 → ∃ t, exec (.stallTimeoutWrite v) s = .next t ∧ regVal t .devStallTimeout = v ∧
    t.heat = s.heat ∧ t.shares = s.shares ∧ t.relays = s.relays ∧ t.lap = s.lap ∧ t.mem = s.mem) ∧
  (∀ (s : State) (req : Nat) (p : HeatPost), unwatched s → s.heat.posts[req]? = some p →
    (p.timeout = 0 ∨ p.stalled = true ∨ nowNs s < p.timeout → exec (.stallTimeoutExpiry .heat req) s = .next s) ∧
    (p.timeout ≠ 0 → p.stalled = false → p.timeout ≤ nowNs s → ∃ t, exec (.stallTimeoutExpiry .heat req) s = .next t ∧ recorded s t 0x01F2 ∧
      t.heat.posts = s.heat.posts.set req { p with stalled := true } ∧ exec (.stallTimeoutExpiry .heat req) t = .next t)) ∧
  (∀ (s : State) (e req : Nat) (p : Post), e < 4 → unwatched s → (engineAt s e).posts[req]? = some p →
    (p.timeout = 0 ∨ p.stalled = true ∨ nowNs s < p.timeout → exec (.stallTimeoutExpiry (.relay e) req) s = .next s) ∧
    (p.timeout ≠ 0 → p.stalled = false → p.timeout ≤ nowNs s → ∃ t, exec (.stallTimeoutExpiry (.relay e) req) s = .next t ∧ recorded s t 0x05F2 ∧
      (engineAt t e).posts = (engineAt s e).posts.set req { p with stalled := true } ∧ exec (.stallTimeoutExpiry (.relay e) req) t = .next t)) ∧
  (∀ (s : State) (k req : Nat) (x : Share), unwatched s → (s.shares.filter (·.core == k))[req]? = some x →
    (x.timeout = 0 ∨ x.stalled = true ∨ nowNs s < x.timeout → exec (.stallTimeoutExpiry (.runner k) req) s = .next s) ∧
    (x.timeout ≠ 0 → x.stalled = false → x.timeout ≤ nowNs s → ∃ t, exec (.stallTimeoutExpiry (.runner k) req) s = .next t ∧ recorded s t 0x01F2 ∧
      t.shares.map (·.core) = s.shares.map (·.core) ∧ (t.shares.filter (·.core == k))[req]? = some { x with stalled := true } ∧
      exec (.stallTimeoutExpiry (.runner k) req) t = .next t)) ∧
  (∀ (s : State) (req : Nat) (o : OpenReq), unwatched s → s.lap.opens[req]? = some o →
    (o.timeout = 0 ∨ o.stalled = true ∨ nowNs s < o.timeout → exec (.stallTimeoutExpiry .lap req) s = .next s) ∧
    (o.timeout ≠ 0 → o.stalled = false → o.timeout ≤ nowNs s → ∃ t, exec (.stallTimeoutExpiry .lap req) s = .next t ∧ recorded s t 0x06F2 ∧
      t.lap.opens = s.lap.opens.set req { o with stalled := true } ∧ exec (.stallTimeoutExpiry .lap req) t = .next t))

/-- R495, R496 and R498 for the ring and the counters; R499. That an accepted write starts the count at 0 is the model's reading (log entry 76). -/
def Obligations.ErrorRecordsAndWatches : Prop :=
  (∀ (s : State) (e : Err), 0x0100 ≤ e.code → e.code < 65536 → (∀ i < 16, watches s e.code i = false) →
    let t := raise e s
    let seq := getF s .errRingStatus F.errRingStatus_seq
    let sec := s.clock.ns / 10 ^ 9
    let made := if s.blotter.second = sec then s.blotter.supp.get (e.die * 65536 + e.code) 0 else 0
    let quiet := e.cont ≤ 1 ∧ 64 ≤ made
    recorded s t e.code ∧ t.mem = s.mem ∧ t.host = s.host ∧ t.runners = s.runners ∧
    (quiet → t.blotter = s.blotter ∧ getF t .errRingStatus F.errRingStatus_seq = seq ∧
      getF t .errRingStatus F.errRingStatus_suppressed = min (getF s .errRingStatus F.errRingStatus_suppressed + 1) (2 ^ F.errRingStatus_suppressed.width - 1)) ∧
    (¬quiet → t.blotter.ring.get? (seq % 4096) = some ⟨e, seq, dieNs s e.die⟩ ∧ (∀ i, i ≠ seq % 4096 → t.blotter.ring.get? i = s.blotter.ring.get? i) ∧
      getF t .errRingStatus F.errRingStatus_seq = (seq + 1) % 2 ^ F.errRingStatus_seq.width ∧
      getF t .errRingStatus F.errRingStatus_head = (seq % 4096 + 1) % 2 ^ F.errRingStatus_head.width ∧ t.blotter.second = sec ∧
      t.blotter.supp.get (e.die * 65536 + e.code) 0 = made + 1 ∧
      getF t .errRingStatus F.errRingStatus_suppressed = getF s .errRingStatus F.errRingStatus_suppressed)) ∧
  (∀ (s : State) (i : Nat) (v : BitVec 64), i < 16 → dieAnswers s 16 → unwatched s →
    let bad := F.errWatchCfg_enable.of v = 1 ∧ (F.errWatchCfg_code.of v ∉ errorCodes ∨ F.errWatchCfg_threshold.of v = 0 ∨ F.errWatchCfg_window.of v = 0)
    (bad → ∃ t, exec (.watchWrite i v) s = .next t ∧ recorded s t 0x0A41 ∧ regVal t (.errWatchCfg i) = regVal s (.errWatchCfg i)) ∧
    (¬bad → ∃ t, exec (.watchWrite i v) s = .next t ∧ (∀ f ∈ (Reg.errWatchCfg i).fields, getF t (.errWatchCfg i) f = f.of v) ∧
      getF t (.errWatchStatus i) F.errWatchStatus_count = 0 ∧ getF t (.errWatchStatus i) F.errWatchStatus_tripped = getF s (.errWatchStatus i) F.errWatchStatus_tripped ∧
      t.blotter = s.blotter ∧ t.mem = s.mem)) ∧
  (∀ (s : State) (i : Nat), i < 16 → ∃ t, exec (.watchWindowClose i) s = .next t ∧ getF t (.errWatchStatus i) F.errWatchStatus_count = 0 ∧
    getF t (.errWatchStatus i) F.errWatchStatus_tripped = getF s (.errWatchStatus i) F.errWatchStatus_tripped ∧ t.mem = s.mem) ∧
  (∀ (s : State) (i : Nat) (e : Err), i < 16 → 0x0100 ≤ e.code → e.code ≠ 0x0A40 → (∀ j < 16, watches s e.code j = decide (j = i)) → (∀ j < 16, watches s 0x0A40 j = false) →
    let n := getF s (.errWatchStatus i) F.errWatchStatus_count
    let t := raise e s
    getF t (.errWatchStatus i) F.errWatchStatus_count = min (n + 1) 65535 ∧
    (n + 1 = getF s (.errWatchCfg i) F.errWatchCfg_threshold → getF t (.errWatchStatus i) F.errWatchStatus_tripped = 1 ∧ recorded s t 0x0A40) ∧
    (n + 1 ≠ getF s (.errWatchCfg i) F.errWatchCfg_threshold →
      getF t (.errWatchStatus i) F.errWatchStatus_tripped = getF s (.errWatchStatus i) F.errWatchStatus_tripped ∧
      getF t (.errCount (countIndex 0x0A40)) F.errCount_count = getF s (.errCount (countIndex 0x0A40)) F.errCount_count))

/-! ### Address space, windows and ordering -/

/-- R53 and R54. -/
def Obligations.AddressWindows : Prop :=
  (∀ (s : State) (h : Hdr) (id rights holder queue base len : Nat), Starts s h 0x80 → unwatched s →
    let bad := base % 4096 ≠ 0 ∨ len % 4096 ≠ 0 ∨ len = 0 ∨ 2 ^ 47 < len ∨ mapped s base len = false ∨ rights % 8 = 0 ∨
      (holder = 1 ∧ (128 ≤ queue ∨ (queueAt s queue).state = .absent))
    let used := (s.windows.get? id).isSome = true
    (¬bad → ¬used → ∃ t, exec (.windowGrant h id rights holder queue base len) s = .next t ∧ finishes s t h 0x80 0 0 [] ∧
      t.windows = s.windows.set id ⟨base, len, rights % 8, holder, queue, some (begin h 0x80 s).1.id, false, []⟩ ∧ (∀ src right, id ∉ (grantors t src right).map (·.1)) ∧ t.mem = s.mem ∧ t.accesses = s.accesses) ∧
    (bad ∨ (used ∧ s.windows.length ≠ 256) → ∃ t, exec (.windowGrant h id rights holder queue base len) s = .next t ∧
      finishes s t h 0x80 1 0x0A12 [] ∧ t.windows = s.windows ∧ recorded s t 0x0A12) ∧
    (¬bad → used → s.windows.length = 256 → ∃ t, exec (.windowGrant h id rights holder queue base len) s = .next t ∧
      finishes s t h 0x80 2 0x0AF1 [] ∧ t.windows = s.windows ∧ recorded s t 0x0AF1)) ∧
  (∀ (s : State) (h : Hdr) (id : Nat), Starts s h 0x81 →
    (s.windows.get? id = none → ∃ t, exec (.windowRevoke h id) s = .next t ∧ finishes s t h 0x81 0 0 [] ∧ t.windows = s.windows) ∧
    (∀ w, s.windows.get? id = some w → ∃ t, exec (.windowRevoke h id) s = .next t ∧
      t.windows.get? id = some { w with revoking := true, waiters := w.waiters ++ [(begin h 0x81 s).1.id] } ∧
      (∀ right, id ∉ (grantors t none right).map (·.1)) ∧ t.host.entries = s.host.entries ∧ t.mem = s.mem)) ∧
  (∀ (s : State) (id : Nat) (d : Desc) (w : Window), s.windows.get? id = some w → w.revoking = true → w.waiters = [d.id] → descOf s d.id = some d →
    (underWindow s id = true → exec (.windowRevokeComplete id) s = .next s) ∧
    (underWindow s id = false → ∃ t, exec (.windowRevokeComplete id) s = .next t ∧ t.windows = s.windows ∧
      t.host.entries = s.host.entries ++ [⟨d, 0, 0, []⟩] ∧ t.mem = s.mem)) ∧
  (∀ (s : State) (id : Nat) (d : Desc) (w : Window), d.q < 128 → s.blotter.events = [] → s.host.entries.find? (·.desc.q == d.q) = some ⟨d, 0, 0, []⟩ →
    ringFull (queueAt s d.q) = false → s.windows = [(id, w)] →
    (d.op = 0x80 → w.granting = some d.id → ∃ t, exec (.completionWrite d.q) s = .next t ∧ t.windows = [(id, { w with granting := none })]) ∧
    (d.op = 0x81 → w.waiters = [d.id] → descOf s d.id = none → ∃ t, exec (.completionWrite d.q) s = .next t ∧ t.windows = []))

/-- R46, R395, R398 and R399, with no lap open, no error in stored data and no injection armed. -/
def Obligations.HostMemoryAccess : Prop :=
  (∀ (s : State) (a n : Nat) (bs : List Byte), hostLinkUp s = true → unwatched s → s.memp.faults = [] → s.memp.dead = [] → s.lap.state = 0 →
    (∀ d < 16, flag s (.memDieInjectCtl d) F.memDieInjectCtl_arm = false) → bs.length = n →
    (a + n ≤ 0x600_0000_0000 → mapped s a n = true → memoryRefuses s 16 [(a, n)] [] = none →
      exec (.hostMemRead a n) s = .next { s with out := .hostData (Mem.read s.mem a n) false :: s.out }) ∧
    (0x600_0000_0000 < a + n → (∃ t, exec (.hostMemRead a n) s = .next t ∧ t.out = .hostData (List.replicate n 0xFF) true :: s.out ∧ recorded s t 0x0A16 ∧ t.mem = s.mem) ∧
      (∃ t, exec (.hostMemWrite a bs) s = .next t ∧ t.mem = s.mem ∧ recorded s t 0x0A16)) ∧
    (a + n ≤ 0x600_0000_0000 → mapped s a n = false →
      (∃ t, exec (.hostMemRead a n) s = .next t ∧ t.out = .hostData (List.replicate n 0xFF) true :: s.out ∧ recorded s t 0x0412 ∧ t.mem = s.mem) ∧
      (∃ t, exec (.hostMemWrite a bs) s = .next t ∧ t.mem = s.mem ∧ recorded s t 0x0412)) ∧
    (a + n ≤ 0x600_0000_0000 → mapped s a n = true → memoryRefuses s 16 [] [(a, n)] = none → lapCode s false a n = 0 →
      ∃ t, exec (.hostMemWrite a bs) s = .next t ∧ (∀ i, i < n → Mem.get t.mem (a + i) = bs.getD i 0) ∧
        (∀ y, y < a ∨ a + n ≤ y → Mem.get t.mem y = Mem.get s.mem y) ∧ t.runners = s.runners ∧ t.regs = s.regs)) ∧
  (∀ (s : State) (a n : Nat) (bs : List Byte), hostLinkUp s = false → exec (.hostMemRead a n) s = .next s ∧ exec (.hostMemWrite a bs) s = .next s) ∧
  (∀ (s : State) (a : Nat), exec (.hostSnoop a false) s = .next { s with out := .snoopAnswer a (decide (a / 64 ∈ s.host.ringCache)) :: s.out } ∧
    ∃ t, exec (.hostSnoop a true) s = .next t ∧ t.out = .snoopAnswer a (decide (a / 64 ∈ s.host.ringCache)) :: s.out ∧ a / 64 ∉ t.host.ringCache ∧
      (∀ x, x ≠ a / 64 → (x ∈ t.host.ringCache ↔ x ∈ s.host.ringCache)) ∧ t.mem = s.mem)

/-! ### Cores, runners and the instruction set -/

/-- R81: integer operations work modulo 2^64 and never raise an error, with the edge results it lists. A write to s0 is discarded by `setS` (`Obligations.RegisterFiles`). -/
def Obligations.IntegerResults : Prop :=
  ∀ (s : State) (w g rd rs1 rs2 : Nat), rd < 64 → rs1 < 64 → rs2 < 64 → Clear s w g [.s rs1, .s rs2, .s rd] →
    let x := sReg s w rs1
    let y := sReg s w rs2
    let n := y.toNat % 64
    exec (.add w g rd rs1 rs2) s = writes s w rd (BitVec.ofInt 64 (x.toInt + y.toInt)) ∧
    exec (.sub w g rd rs1 rs2) s = writes s w rd (BitVec.ofInt 64 (x.toInt - y.toInt)) ∧
    exec (.mul w g rd rs1 rs2) s = writes s w rd (BitVec.ofInt 64 (x.toInt * y.toInt)) ∧
    exec (.mulh w g rd rs1 rs2) s = writes s w rd (BitVec.ofInt 64 (x.toInt * y.toInt / 2 ^ 64)) ∧
    exec (.mulhu w g rd rs1 rs2) s = writes s w rd (BitVec.ofNat 64 (x.toNat * y.toNat / 2 ^ 64)) ∧
    exec (.div w g rd rs1 rs2) s = writes s w rd (if y.toInt = 0 then BitVec.ofInt 64 (-1) else BitVec.ofInt 64 (x.toInt.tdiv y.toInt)) ∧
    exec (.divu w g rd rs1 rs2) s = writes s w rd (if y.toNat = 0 then BitVec.ofNat 64 0xFFFFFFFFFFFFFFFF else BitVec.ofNat 64 (x.toNat / y.toNat)) ∧
    exec (.rem w g rd rs1 rs2) s = writes s w rd (if y.toInt = 0 then x else BitVec.ofInt 64 (x.toInt.tmod y.toInt)) ∧
    exec (.remu w g rd rs1 rs2) s = writes s w rd (if y.toNat = 0 then x else BitVec.ofNat 64 (x.toNat % y.toNat)) ∧
    exec (.and w g rd rs1 rs2) s = writes s w rd (x &&& y) ∧
    exec (.or w g rd rs1 rs2) s = writes s w rd (x ||| y) ∧
    exec (.xor w g rd rs1 rs2) s = writes s w rd (x ^^^ y) ∧
    exec (.shl w g rd rs1 rs2) s = writes s w rd (BitVec.ofNat 64 (x.toNat * 2 ^ n)) ∧
    exec (.shr w g rd rs1 rs2) s = writes s w rd (BitVec.ofNat 64 (x.toNat / 2 ^ n)) ∧
    exec (.sra w g rd rs1 rs2) s = writes s w rd (BitVec.ofInt 64 (x.toInt / 2 ^ n)) ∧
    exec (.min w g rd rs1 rs2) s = writes s w rd (BitVec.ofInt 64 (min x.toInt y.toInt)) ∧
    exec (.max w g rd rs1 rs2) s = writes s w rd (BitVec.ofInt 64 (max x.toInt y.toInt)) ∧
    exec (.minu w g rd rs1 rs2) s = writes s w rd (BitVec.ofNat 64 (min x.toNat y.toNat)) ∧
    exec (.maxu w g rd rs1 rs2) s = writes s w rd (BitVec.ofNat 64 (max x.toNat y.toNat)) ∧
    (x = 0 → exec (.clz w g rd rs1) s = writes s w rd 64 ∧ exec (.ctz w g rd rs1) s = writes s w rd 64)

/-- R80, and R81 for the counts: a CLZ of 0 and a CTZ of 0 give 64. -/
def Obligations.CountsAndImmediates : Prop :=
  ∀ (s : State) (w g rd rs1 : Nat) (imm : BitVec 56), rd < 64 → rs1 < 64 → Clear s w g [.s rs1, .s rd, .s 0] →
    let x := sReg s w rs1
    let i := imm.toInt
    let n := imm.toNat % 64
    (∃ c : Nat, exec (.clz w g rd rs1) s = writes s w rd (BitVec.ofNat 64 c) ∧ c ≤ 64 ∧
      (∀ j < c, x.getLsbD (63 - j) = false) ∧ (c < 64 → x.getLsbD (63 - c) = true)) ∧
    (∃ c : Nat, exec (.ctz w g rd rs1) s = writes s w rd (BitVec.ofNat 64 c) ∧ c ≤ 64 ∧
      (∀ j < c, x.getLsbD j = false) ∧ (c < 64 → x.getLsbD c = true)) ∧
    exec (.popc w g rd rs1) s = writes s w rd (BitVec.ofNat 64 ((List.range 64).countP (fun j => x.getLsbD j))) ∧
    exec (.addi w g rd rs1 imm) s = writes s w rd (BitVec.ofInt 64 (x.toInt + i)) ∧
    exec (.andi w g rd rs1 imm) s = writes s w rd (x &&& BitVec.ofInt 64 i) ∧
    exec (.ori w g rd rs1 imm) s = writes s w rd (x ||| BitVec.ofInt 64 i) ∧
    exec (.xori w g rd rs1 imm) s = writes s w rd (x ^^^ BitVec.ofInt 64 i) ∧
    exec (.shli w g rd rs1 imm) s = writes s w rd (BitVec.ofNat 64 (x.toNat * 2 ^ n)) ∧
    exec (.shri w g rd rs1 imm) s = writes s w rd (BitVec.ofNat 64 (x.toNat / 2 ^ n)) ∧
    exec (.srai w g rd rs1 imm) s = writes s w rd (BitVec.ofInt 64 (x.toInt / 2 ^ n)) ∧
    exec (.li w g rd imm) s = writes s w rd (BitVec.ofInt 64 i)

/-- Table 3.11. That PANDN complements its second operand is the model's reading (log entry 27). -/
def Obligations.ComparesAndPredicates : Prop :=
  ∀ (s : State) (w g pd rs1 rs2 p1 p2 : Nat), pd < 8 → rs1 < 64 → rs2 < 64 → p1 < 8 → p2 < 8 →
    Clear s w g [.s rs1, .s rs2, .p pd, .p p1, .p p2] →
    let x := sReg s w rs1
    let y := sReg s w rs2
    let a := pReg s w p1
    let b := pReg s w p2
    exec (.cmpeq w g pd rs1 rs2) s = sets s w pd (decide (x = y)) ∧
    exec (.cmpne w g pd rs1 rs2) s = sets s w pd (decide (x ≠ y)) ∧
    exec (.cmplt w g pd rs1 rs2) s = sets s w pd (decide (x.toInt < y.toInt)) ∧
    exec (.cmpltu w g pd rs1 rs2) s = sets s w pd (decide (x.toNat < y.toNat)) ∧
    exec (.cmple w g pd rs1 rs2) s = sets s w pd (decide (x.toInt ≤ y.toInt)) ∧
    exec (.cmpleu w g pd rs1 rs2) s = sets s w pd (decide (x.toNat ≤ y.toNat)) ∧
    exec (.pand w g pd p1 p2) s = sets s w pd (a && b) ∧
    exec (.por w g pd p1 p2) s = sets s w pd (a || b) ∧
    exec (.pxor w g pd p1 p2) s = sets s w pd (a ^^ b) ∧
    exec (.pandn w g pd p1 p2) s = sets s w pd (a && !b)

/-- R82. Values are exact (`Val`), and `rne32` rounds one to binary32, ties to even. -/
def Obligations.FloatResults : Prop :=
  ∀ (s : State) (w g rd rs1 rs2 rs3 : Nat), rd < 64 → rs1 < 64 → rs2 < 64 → rs3 < 64 →
    Clear s w g [.s rs1, .s rs2, .s rs3, .s rd, .s 0] →
    let a := f32 ((sReg s w rs1).toNat % 2 ^ 32)
    let b := f32 ((sReg s w rs2).toNat % 2 ^ 32)
    let c := f32 ((sReg s w rs3).toNat % 2 ^ 32)
    let wr (n : Nat) := writes s w rd (BitVec.ofNat 64 n)
    let nan := a.isNan || b.isNan
    exec (.fadd w g rd rs1 rs2) s = wr (rne32 (a.add b)) ∧
    exec (.fsub w g rd rs1 rs2) s = wr (rne32 (a.add b.neg)) ∧
    exec (.fmul w g rd rs1 rs2) s = wr (rne32 (a.mul b)) ∧
    exec (.ffma w g rd rs1 rs2 rs3) s = wr (rne32 ((a.mul b).add c)) ∧
    exec (.fdiv w g rd rs1 rs2) s = wr (divTo .fp32 .rne a b) ∧
    exec (.fsqrt w g rd rs1) s = wr (sqrtTo .fp32 .rne a) ∧
    (∃ r : Nat, exec (.fmin w g rd rs1 rs2) s = wr r ∧ r < 2 ^ 32 ∧ (nan → r = 0x7FC00000) ∧
      (¬nan → (f32 r = a ∨ f32 r = b) ∧ ¬a.lt (f32 r) ∧ ¬b.lt (f32 r) ∧
        (a.isZero → b.isZero → (f32 r).sign = (a.sign || b.sign)))) ∧
    (∃ r : Nat, exec (.fmax w g rd rs1 rs2) s = wr r ∧ r < 2 ^ 32 ∧ (nan → r = 0x7FC00000) ∧
      (¬nan → (f32 r = a ∨ f32 r = b) ∧ ¬(f32 r).lt a ∧ ¬(f32 r).lt b ∧
        (a.isZero → b.isZero → (f32 r).sign = (a.sign && b.sign)))) ∧
    exec (.fcmpeq w g rd rs1 rs2) s = wr (!nan && !a.lt b && !b.lt a).toNat ∧
    exec (.fcmplt w g rd rs1 rs2) s = wr (!nan && a.lt b).toNat ∧
    exec (.fcmple w g rd rs1 rs2) s = wr (!nan && !b.lt a).toNat ∧
    exec (.fcvtif w g rd rs1) s = wr (rne32 (.ofInt (sReg s w rs1).toInt)) ∧
    (∃ i : Int, exec (.fcvtfi w g rd rs1) s = writes s w rd (BitVec.ofInt 64 i) ∧ (a.isNan → i = 0) ∧
      (a = .inf false → i = 2 ^ 63 - 1) ∧ (a = .inf true → i = -2 ^ 63) ∧
      (∀ neg m e, a = .fin neg m e → i = max (-2 ^ 63) (min (2 ^ 63 - 1)
        ((if neg then -1 else 1) * ((m * 2 ^ e.toNat / 2 ^ (-e).toNat : Nat) : Int)))))

/-- R82 keeps subnormals, and a result that binary32 holds is not changed by its rounding. -/
def Obligations.BinaryThirtyTwoExact : Prop :=
  ∀ (n : Nat), n < 2 ^ 32 → (f32 n).isNan = false → rne32 (f32 n) = n

/-- Table 3.1: s0 reads 0 and discards writes, p0 reads 1 and discards writes. -/
def Obligations.RegisterFiles : Prop :=
  ∀ (s : State) (w n : Nat) (v : Word) (b : Bool),
    setS w 0 v s = s ∧ sReg s w 0 = 0 ∧ setP w 0 b s = s ∧ pReg s w 0 = true ∧
    (n ≠ 0 → sReg (setS w n v s) w n = v) ∧ (n ≠ 0 → n < 8 → pReg (setP w n b s) w n = b) ∧ aReg (setA w n v s) w n = v ∧
    (∀ m ≠ n, sReg (setS w n v s) w m = sReg s w m ∧ aReg (setA w n v s) w m = aReg s w m ∧ pReg (setP w n b s) w m = pReg s w m) ∧
    (∀ u ≠ w, runnerAt (setS w n v s) u = runnerAt s u ∧ runnerAt (setA w n v s) u = runnerAt s u ∧ runnerAt (setP w n b s) u = runnerAt s u) ∧
    (∀ m, aReg (setS w n v s) w m = aReg s w m ∧ pReg (setS w n v s) w m = pReg s w m ∧ sReg (setA w n v s) w m = sReg s w m ∧
      pReg (setA w n v s) w m = pReg s w m ∧ sReg (setP w n b s) w m = sReg s w m ∧ aReg (setP w n b s) w m = aReg s w m) ∧
    (setS w n v s).mem = s.mem ∧ (setA w n v s).mem = s.mem ∧ (setP w n b s).mem = s.mem ∧
    (setS w n v s).regs = s.regs ∧ (setA w n v s).regs = s.regs ∧ (setP w n b s).regs = s.regs

/-- R85 and Table 3.12; R79 for the register fields of MOVA, MOVS and ADDA. -/
def Obligations.MovesAndSpecialRegisters : Prop :=
  ∀ (s : State) (w g rd rs1 rs2 idx : Nat), rd < 64 → rs1 < 64 → rs2 < 64 →
    Clear s w g [.s rs1, .s rs2, .s rd, .a rs1, .a rd] →
    let frozen := Host.Outcome.next (freezeRunner w 0x0101 0 s)
    exec (.mova w g rd rs1) s = (if rd < 16 then .next (setA w rd (sReg s w rs1) (moved s w)) else frozen) ∧
    exec (.movs w g rd rs1) s = (if rs1 < 16 then writes s w rd (aReg s w rs1) else frozen) ∧
    exec (.adda w g rd rs1 rs2) s = (if rd < 16 ∧ rs1 < 16 then .next (setA w rd (aReg s w rs1 + sReg s w rs2) (moved s w)) else frozen) ∧
    exec (.rdsr w g rd 0) s = writes s w rd (BitVec.ofNat 64 w) ∧
    exec (.rdsr w g rd 1) s = writes s w rd (BitVec.ofNat 64 (w / 16)) ∧
    ((runnerAt s w).cycles < 2 ^ 64 → ∃ t c, exec (.rdsr w g rd 2) s = .next t ∧ (runnerAt s w).cycles ≤ c ∧ c < 2 ^ 64 ∧ (runnerAt t w).cycles = c ∧
      (rd ≠ 0 → sReg t w rd = BitVec.ofNat 64 c) ∧ (∀ n, n ≠ rd → sReg t w n = sReg s w n) ∧ t.mem = s.mem) ∧
    exec (.rdsr w g rd 3) s = writes s w rd (BitVec.ofNat 64 (dieNs s (dieOfRunner w))) ∧
    exec (.rdsr w g rd 5) s = writes s w rd (BitVec.ofNat 64 (jobOf s)) ∧
    exec (.rdsr w g rd 4) s = writes s w rd (BitVec.ofNat 64 (coreAt s (w / 16)).lap) ∧
    exec (.rdsr w g rd 6) s = writes s w rd (runnerAt s w).arg ∧
    exec (.rdsr w g rd 7) s = writes s w rd (runnerAt s w).launchId ∧
    exec (.rdsr w g rd 8) s = writes s w rd (BitVec.ofNat 64 (runnerAt s w).census) ∧
    exec (.rdsr w g rd 9) s = writes s w rd (BitVec.ofNat 64 (runnerAt s w).censusLap) ∧
    (10 ≤ idx → exec (.rdsr w g rd idx) s = frozen) ∧
    exec (.wrsr w g rs1 8) s = (let v := (sReg s w rs1).toNat
      if v < 4096 ∨ v = 0xFFFF then .next (modRunner w (fun r => { r with census := v }) (moved s w)) else frozen) ∧
    exec (.wrsr w g rs1 9) s = (let v := (sReg s w rs1).toNat
      if v < 2 ^ 32 then .next (modRunner w (fun r => { r with censusLap := v }) (moved s w)) else frozen) ∧
    (idx < 8 ∨ 10 ≤ idx → exec (.wrsr w g rs1 idx) s = frozen) ∧
    exec (.nop w g) s = .next (moved s w)

/-- R83. The PC has 17 bits. A guarded-off branch falls through (`Obligations.ExitBreakAndGuardedOff`), and running past the last bundle freezes as a branch does. -/
def Obligations.Branches : Prop :=
  (∀ (s : State) (w g r : Nat) (off : BitVec 22), r < 64 → Clear s w g [.s r, .s 63] →
    let pc := (runnerAt s w).pc
    let rel : Int := pc + off.toInt
    let reg (n : Nat) : Nat := (sReg s w n).toNat % 2 ^ 17
    let goes (t : Int) (s' : State) : Host.Outcome State Fault Refusal :=
      .next (if 0 ≤ t ∧ t < bundleCount s (dieOfRunner w) then s' else freezeRunner w 0x0109 0 s')
    let at' := issued s w (rel % 2 ^ 17).toNat
    exec (.br w g off) s = goes rel at' ∧
    exec (.call w g off) s = goes rel (setS w 63 (BitVec.ofNat 64 (pc + 1)) at') ∧
    exec (.brx w g r) s = goes (reg r) (issued s w (reg r)) ∧
    exec (.ret w g) s = goes (reg 63) (issued s w (reg 63))) ∧
  (∀ (s : State) (w g r : Nat) (off : BitVec 22), r < 64 → CanIssue s w →
    let after := issued s w (((runnerAt s w).pc + 1) % 2 ^ 17)
    let on : Host.Outcome State Fault Refusal :=
      .next (if (runnerAt s w).pc + 1 < bundleCount s (dieOfRunner w) then after else freezeRunner w 0x0109 0 after)
    exec (.nop w g) s = on ∧
    (guardOn s w g = false → exec (.br w g off) s = on ∧ exec (.call w g off) s = on ∧ exec (.brx w g r) s = on ∧ exec (.ret w g) s = on))

/-- R84 and R71; the V and M slots of the bundle are other instructions. R77: a guarded-off slot has no effect, makes no access and raises no error, apart from decoding; R74 and R79
for what decoding refuses, shown for a load, a store, an atomic and a branch; `issue1` is what every instruction of the tables is. -/
def Obligations.ExitBreakAndGuardedOff : Prop :=
  (∀ (s : State) (w g : Nat), Clear s w g [] →
    (runnerBusy (moved s w) w = false → ∃ t, exec (.exit w g) s = .next t ∧ runnerAt t w = Runner.free ∧ t.mem = s.mem) ∧
    (runnerBusy (moved s w) w = true → ∃ t, exec (.exit w g) s = .next t ∧ (runnerAt t w).ending = true ∧
      (runnerAt t w).state = .ready ∧ canIssue t w = false ∧ t.mem = s.mem) ∧
    (debugOpen s 0 = false → exec (.breakInstr w g) s = .next (moved s w)) ∧
    (debugOpen s 0 = true → ∃ t, exec (.breakInstr w g) s = .next t ∧ (runnerAt t w).state = .halted ∧ (runnerAt t w).cause = 13 ∧
      (∀ v ≠ w, runnerAt t v = runnerAt s v) ∧ t.mem = s.mem)) ∧
  ∀ (s : State) (w g rd base rs : Nat) (inc : Bool) (off : BitVec 17) (at' : BitVec 12) (br : BitVec 22), rd < 64 → base < 16 → rs < 64 →
    CanIssue s w → guardOn s w g = false → (runnerAt s w).pc + 1 < bundleCount s (dieOfRunner w) → (runnerAt s w).pc + 1 < 2 ^ 17 →
    exec (.ld64 w g rd base inc off) s = .next (moved s w) ∧
    exec (.st64 w g rd base inc off) s = .next (moved s w) ∧
    exec (.aadd64 w g rd base rs at') s = .next (moved s w) ∧
    exec (.br w g br) s = .next (moved s w) ∧
    exec (.exit w g) s = .next (moved s w) ∧
    (∃ t, exec (.mova w g 16 rs) s = .next t ∧ (runnerAt t w).state = .frozen ∧ (runnerAt t w).pc = (runnerAt s w).pc ∧
      t.mem = s.mem ∧ t.accesses = s.accesses)

/-- R86 for the address, the base register and the alignment, R45, R52 and R55 for admission. Where one access fails several checks, alignment comes before the windows: the model's choice (assumption 101). What the access does when it is performed is `Obligations.AccessesPerformed`. -/
def Obligations.ScalarLoadsAndStores : Prop :=
  ∀ (s : State) (w g r base : Nat) (inc : Bool) (off : BitVec 17), r < 64 → base < 16 → Clear s w g [.s r, .a base] →
    let a := (if inc then aReg s w base else aReg s w base + off.signExtend 64).toNat
    let after := if inc then setA w base (aReg s w base + off.signExtend 64) (moved s w) else moved s w
    let load (n : Nat) (signed : Bool) (c : Instr) : Prop := holdOwn w (fun _ => [(a, n)]) s = none →
      (mapped s a n = false → exec c s = .next (freezeRunner w 0x0111 a s)) ∧ (mapped s a n = true →
      (a % n ≠ 0 → exec c s = .next (freezeRunner w 0x0114 a s)) ∧
      (a % n = 0 → permits s none .r a n = false → exec c s = .next (freezeRunner w 0x0111 a s)) ∧
      (a % n = 0 → permits s none .r a n = true → exec c s = .next (flying s w (.load r n signed) .r [(a, n)] none after)))
    let keep (n : Nat) (c : Instr) : Prop := holdOwn w (fun _ => [(a, n)]) s = none →
      (mapped s a n = false → exec c s = .next (freezeRunner w 0x0111 a s)) ∧ (mapped s a n = true →
      (a % n ≠ 0 → exec c s = .next (freezeRunner w 0x0114 a s)) ∧
      (a % n = 0 → permits s none .w a n = false → exec c s = .next (freezeRunner w 0x0111 a s)) ∧
      (a % n = 0 → permits s none .w a n = true → lapCode s true a n ≠ 0 → exec c s = .next (freezeRunner w (lapCode s true a n) a s)) ∧
      (a % n = 0 → permits s none .w a n = true → lapCode s true a n = 0 →
        exec c s = .next (flying s w (.store (bytesLE n (sReg s w r).toNat)) .w [(a, n)] none after)))
    load 1 true (.ld8 w g r base inc off) ∧ load 1 false (.ld8u w g r base inc off) ∧ load 2 true (.ld16 w g r base inc off) ∧
    load 2 false (.ld16u w g r base inc off) ∧ load 4 true (.ld32 w g r base inc off) ∧ load 4 false (.ld32u w g r base inc off) ∧
    load 8 true (.ld64 w g r base inc off) ∧ keep 1 (.st8 w g r base inc off) ∧ keep 2 (.st16 w g r base inc off) ∧
    keep 4 (.st32 w g r base inc off) ∧ keep 8 (.st64 w g r base inc off)

/-- R62 and R87. A result returned to s0 is discarded. -/
def Obligations.AtomicsIssue : Prop :=
  ∀ (s : State) (w g rd base rs : Nat) (off : BitVec 12), rd < 64 → base < 16 → rs < 64 → Clear s w g [.s rd, .s rs, .a base] →
    let a := (aReg s w base + off.signExtend 64).toNat
    let at' (op : AtomOp) (n : Nat) (c : Instr) : Prop := holdOwn w (fun _ => [(a, n)]) s = none →
      (mapped s a n = false → exec c s = .next (freezeRunner w 0x0111 a s)) ∧ (mapped s a n = true →
      (a % n ≠ 0 → exec c s = .next (freezeRunner w 0x0112 a s)) ∧
      (a % n = 0 → atomicPlace s a = true →
        (permits s none .a a n = false → exec c s = .next (freezeRunner w 0x0111 a s)) ∧
        (permits s none .a a n = true → lapCode s true a n = 0 →
          exec c s = .next (flying s w (.atomic op n (sReg s w rs) (sReg s w rd) rd) .a [(a, n)] none (moved s w)))) ∧
      (a % n = 0 → atomicPlace s a = false → exec c s = .next (freezeRunner w 0x0113 a s)))
    at' .add 4 (.aadd32 w g rd base rs off) ∧ at' .add 8 (.aadd64 w g rd base rs off) ∧ at' .min 4 (.amin32 w g rd base rs off) ∧
    at' .min 8 (.amin64 w g rd base rs off) ∧ at' .minu 4 (.aminu32 w g rd base rs off) ∧ at' .minu 8 (.aminu64 w g rd base rs off) ∧
    at' .max 4 (.amax32 w g rd base rs off) ∧ at' .max 8 (.amax64 w g rd base rs off) ∧ at' .maxu 4 (.amaxu32 w g rd base rs off) ∧
    at' .maxu 8 (.amaxu64 w g rd base rs off) ∧ at' .swap 4 (.aswap32 w g rd base rs off) ∧ at' .swap 8 (.aswap64 w g rd base rs off) ∧
    at' .cas 4 (.acas32 w g rd base rs off) ∧ at' .cas 8 (.acas64 w g rd base rs off) ∧ at' .fadd 4 (.afadd32 w g rd base rs off)

/-- R57, R61 and Table 2.7; R86 and R87 for the values returned. `Quiet` sets aside what may follow at once: error injection, a poisoned unit, an upset, a runner that ends or
waits, an array operation that was held, and the lap tests of R202. -/
def Obligations.AccessesPerformed : Prop :=
  ∀ (s : State) (a : Access) (x : Nat) (rd n : Nat), Quiet s a → a.chunks = [(x, n)] → rd < 64 → 0 < rd →
    (∀ signed, a.kind = .load rd n signed → ∃ t, exec (.accessPerformed a.id ⟨0, 0⟩) s = .next t ∧ t.mem = s.mem ∧
      t.accesses = s.accesses.filter (·.id != a.id) ∧
      sReg t a.runner rd = (if signed then BitVec.ofInt 64 (sint (8 * n) (natLE (Mem.read s.mem x n))) else BitVec.ofNat 64 (natLE (Mem.read s.mem x n))) ∧
      (∀ m, m ≠ rd → sReg t a.runner m = sReg s a.runner m)) ∧
    (∀ data, a.kind = .store data → data.length = n → a.counted = none → ∃ t, exec (.accessPerformed a.id ⟨0, 0⟩) s = .next t ∧
      (∀ i, i < n → Mem.get t.mem (x + i) = data.getD i 0) ∧ (∀ y, y < x ∨ x + n ≤ y → Mem.get t.mem y = Mem.get s.mem y) ∧
      t.runners = s.runners ∧ t.accesses = s.accesses.filter (·.id != a.id)) ∧
    (∀ op o c, a.kind = .atomic op n o c rd → (n = 4 ∨ n = 8) → ∃ t, exec (.accessPerformed a.id ⟨0, 0⟩) s = .next t ∧
      (let old := natLE (Mem.read s.mem x n)
       let m := 2 ^ (8 * n)
       let o' := o.toNat % m
       natLE (Mem.read t.mem x n) = (match op with
         | .add => (old + o') % m
         | .min => if sint (8 * n) o' < sint (8 * n) old then o' else old
         | .minu => min o' old
         | .max => if sint (8 * n) old < sint (8 * n) o' then o' else old
         | .maxu => max o' old
         | .swap => o'
         | .cas => if old = c.toNat % m then o' else old
         | .fadd => rne32 ((f32 old).add (f32 o'))) % m ∧
       sReg t a.runner rd = (if n = 4 ∧ (op = .add ∨ op = .min ∨ op = .max) then BitVec.ofInt 64 (sint 32 old) else BitVec.ofNat 64 old) ∧
       (∀ y, y < x ∨ x + n ≤ y → Mem.get t.mem y = Mem.get s.mem y) ∧
       (∀ m', m' ≠ rd → sReg t a.runner m' = sReg s a.runner m') ∧ t.accesses = s.accesses.filter (·.id != a.id)))

/-- R92 and R123; a census bit with CENSUS_SLOT at 0xFFFF has no effect (R94). -/
def Obligations.VectorRegisterTransfers : Prop :=
  ∀ (s : State) (w g v a r tile : Nat) (inc : Bool), v < 32 → a < 16 → r < 64 → tile < 2 → Clear s w g [.v v, .a a, .s r, .t tile] →
    (runnerAt s w).census = 0xFFFF →
    let base := (aReg s w a).toNat
    let stride := if sReg s w r = 0 then 128 else sReg s w r
    let rows := (List.range 32).map (fun i => ((aReg s w a + BitVec.ofNat 64 i * stride).toNat, 128))
    let whole := [(base, 65536)]
    let after := if inc then setA w a (aReg s w a + 32 * stride) (moved s w) else moved s w
    let k := coreOf w
    (holdOwn w (fun _ => rows) s = none → rows.all (fun p => mapped s p.1 p.2) = true →
      (base % 128 ≠ 0 ∨ stride.toNat % 128 ≠ 0 → exec (.vld w g v a r inc) s = .next (freezeRunner w 0x0114 base s) ∧
        exec (.vst w g v a r inc false) s = .next (freezeRunner w 0x0114 base s)) ∧
      (base % 128 = 0 → stride.toNat % 128 = 0 →
        (accessFault s .r rows = none → exec (.vld w g v a r inc) s = .next (flying s w (.copyIn (vregAddr k v)) .r rows none after)) ∧
        (accessFault s .w rows = none → s.memp.faults = [] → ∀ census, exec (.vst w g v a r inc census) s =
          .next (flying s w (.store (Mem.read s.mem (vregAddr k v) 4096)) .w rows none after)))) ∧
    (holdOwn w (fun _ => whole) s = none →
      (mapped s base 65536 = false → exec (.tld w g a tile) s = .next (freezeRunner w 0x0111 base s) ∧ exec (.tst w g a tile false) s = .next (freezeRunner w 0x0111 base s)) ∧
      (mapped s base 65536 = true →
      (base % 128 ≠ 0 → exec (.tld w g a tile) s = .next (freezeRunner w 0x0114 base s) ∧ exec (.tst w g a tile false) s = .next (freezeRunner w 0x0114 base s)) ∧
      (base % 128 = 0 →
        (accessFault s .r whole = none → exec (.tld w g a tile) s = .next (flying s w (.copyIn (tileAddr k tile)) .r whole none (moved s w))) ∧
        (accessFault s .w whole = none → s.memp.faults = [] → ∀ census, exec (.tst w g a tile census) s =
          .next (flying s w (.store (Mem.read s.mem (tileAddr k tile) 65536)) .w whole none (moved s w))))))

/-- R88 and R59 for FENCE, R89 for HURDLE. -/
def Obligations.FencesAndHurdles : Prop :=
  ∀ (s : State) (w g scope pairs hid rc : Nat), rc < 64 → hid < 16 → Clear s w g [.s rc] →
    (5 ≤ scope ∨ pairs = 0 → exec (.fence w g scope pairs) s = .next (freezeRunner w 0x0101 0 s)) ∧
    (scope < 5 → 0 < pairs → pairs < 16 →
      (fenceIds s w scope pairs = [] → exec (.fence w g scope pairs) s = .next (moved s w)) ∧
      ((fenceIds s w scope pairs).any (outstanding s) = true → ∃ t, exec (.fence w g scope pairs) s = .next t ∧ (runnerAt t w).state = .waiting ∧
        waitCause (runnerAt t w) = 3 ∧ (runnerAt t w).pc = (runnerAt s w).pc + 1 ∧ t.mem = s.mem ∧ t.accesses = s.accesses)) ∧
    (3 ≤ scope → exec (.hurdle w g scope hid rc) s = .next (freezeRunner w 0x0101 0 s)) ∧
    (scope < 3 → fenceIds s w scope 15 = [] →
      (let n := (sReg s w rc).toNat
       let size := if scope = 0 then 16 else if scope = 1 then 128 else 1024
       let key := hurdleKey w scope hid
       let h := hurdleAt s key
       (n = 0 ∨ size < n → exec (.hurdle w g scope hid rc) s = .next (freezeRunner w 0x0101 0 s)) ∧
       (1 ≤ n → n ≤ size → h.arrived = 0 → 1 < n → ∃ t, exec (.hurdle w g scope hid rc) s = .next t ∧
         hurdleAt t key = ⟨h.gen, 1, n, h.mismatch, h.waiting ++ [w]⟩ ∧ (runnerAt t w).state = .waiting ∧ waitCause (runnerAt t w) = 4 ∧ t.mem = s.mem) ∧
       (1 ≤ n → n ≤ size → h.arrived ≠ 0 → h.need ≠ n → h.mismatch = false → h.arrived + 1 < h.need → unwatched s → ∃ t, exec (.hurdle w g scope hid rc) s = .next t ∧
         hurdleAt t key = ⟨h.gen, h.arrived + 1, h.need, true, h.waiting ++ [w]⟩ ∧ recorded s t 0x0106 ∧ (runnerAt t w).state = .waiting ∧ t.mem = s.mem) ∧
       (1 ≤ n → n ≤ size → h.arrived ≠ 0 → h.need = n → h.arrived + 1 = n → ∃ t, exec (.hurdle w g scope hid rc) s = .next t ∧
         hurdleAt t key = ⟨h.gen + 1, 0, 0, false, []⟩ ∧ (runnerAt t w).state = .ready ∧ t.mem = s.mem)))

/-- R90 and R96. -/
def Obligations.BatonsAndHeatPairs : Prop :=
  ∀ (s : State) (w g rd r : Nat), rd < 64 → r < 64 → Clear s w g [.s rd, .s r] →
    let v := (sReg s w r).toNat
    (batonOf s w v = none → exec (.bwait w g rd r) s = .next (freezeRunner w 0x0101 0 s) ∧ exec (.btest w g rd r) s = .next (freezeRunner w 0x0101 0 s)) ∧
    (∀ b, batonOf s w v = some b → ∀ code, b.status = some code →
      exec (.bwait w g rd r) s = .next (setS w rd (BitVec.ofNat 64 code)
        (modRunner w (fun x => { x with batons := x.batons.filter (·.value != v) }) (moved s w)))) ∧
    (∀ b, batonOf s w v = some b → b.status = none → ∃ t, exec (.bwait w g rd r) s = .next t ∧ (runnerAt t w).state = .waiting ∧
      waitCause (runnerAt t w) = 5 ∧ (runnerAt t w).pc = (runnerAt s w).pc ∧ (runnerAt t w).batons = (runnerAt s w).batons ∧ t.mem = s.mem) ∧
    ((batonOf s w v).isSome = true → exec (.btest w g rd r) s = writes s w rd (if batonDone s w v then 1 else 0)) ∧
    (postable s w (sReg s w r) = false → exec (.hpost w g r) s = .next (freezeRunner w 0x0121 0 s)) ∧
    (postable s w (sReg s w r) = true → postRoom s w (sReg s w r) = true → (freeEntry s).isSome = true → (runnerAt s w).posted = false → ∃ t, exec (.hpost w g r) s = .next t ∧
      (runnerAt t w).pc = (runnerAt s w).pc + 1 ∧ t.heat.entries.length = s.heat.entries.length + 1 ∧ t.mem = s.mem) ∧
    (∀ p, (runnerAt s w).given = some p → exec (.hnext w g rd) s = .next (setS w rd (BitVec.ofNat 64 p)
      (modRunner w (fun x => { x with given := none }) (moved s w)))) ∧
    ((runnerAt s w).given = none → ∃ t, exec (.hnext w g rd) s = .next t ∧ (runnerAt t w).state = .waiting ∧ waitCause (runnerAt t w) = 6 ∧
      w ∈ t.heat.waiters ∧ t.mem = s.mem) ∧
    (assignedTo s w (v % 64) = false → exec (.hdone w g r) s = .next (freezeRunner w 0x0101 0 s)) ∧
    (assignedTo s w (v % 64) = true → ∃ t, exec (.hdone w g r) s = .next t ∧ assignedTo t w (v % 64) = false ∧ (runnerAt t w).pc = (runnerAt s w).pc + 1 ∧
      t.mem = s.mem)

/-- R106 and Table 3.21; R79 for a bundle that is not legal. -/
def Obligations.FreezingARunner : Prop :=
  ∀ (s : State) (w code addr : Nat) (bundle : BitVec 128), w < 16384 → code < 65536 → (runnerAt s w).pc < 2 ^ 17 → unwatched s →
    (let t := freezeRunner w code addr s
     (runnerAt s w).state = .ready ∨ (runnerAt s w).state = .waiting ∨ (runnerAt s w).state = .halted →
      (runnerAt t w).state = .frozen ∧ (runnerAt t w).pc = (runnerAt s w).pc ∧ (runnerAt t w).s = (runnerAt s w).s ∧
      (runnerAt t w).a = (runnerAt s w).a ∧ (runnerAt t w).p = (runnerAt s w).p ∧ waitCause (runnerAt t w) = 0 ∧
      getF t (.cmpCoreFreeze (w / 16)) F.cmpCoreFreeze_runner = w % 16 ∧ getF t (.cmpCoreFreeze (w / 16)) F.cmpCoreFreeze_code = code ∧
      getF t (.cmpCoreFreeze (w / 16)) F.cmpCoreFreeze_pc = (runnerAt s w).pc ∧
      t.mem = s.mem ∧ t.accesses = s.accesses ∧ (∀ v, v ≠ w → runnerAt t v = runnerAt s v) ∧ (0x0100 ≤ code → recorded s t code)) ∧
    (bundleIllegal w bundle = true → CanIssue s w → exec (.coreIllegalInstruction w bundle) s = .next (freezeRunner w 0x0101 0 s)) ∧
    (bundleIllegal w bundle = false → exec (.coreIllegalInstruction w bundle) s = .next s)

/-- R69 to R71, R102, R103. The fields of Table 3.20: halt bits [15:0], resume [31:16], step [47:32], kill [63:48]. Each clause writes the one field it speaks of. -/
def Obligations.HaltResumeStepKill : Prop :=
  ∀ (s : State) (k i m : Nat), k < 1024 → i < 16 → m < 65536 → dieAnswers s (k / 64) → s.halts = [] → unwatched s →
    flag s .hifEmergencyHalt F.hifEmergencyHalt_active = false → (coreAt s k).odrain = none →
    let w := k * 16 + i
    let r := runnerAt s w
    (debugOpen s 0 = true → ∃ t, exec (.coreHalt k (BitVec.ofNat 64 m)) s = .next t ∧
      (m.testBit i = true → (r.state = .ready ∨ r.state = .waiting) → (runnerAt t w).state = .halted ∧ waitCause (runnerAt t w) = 12 ∧ (runnerAt t w).wait = r.wait) ∧
      (m.testBit i = false ∨ (r.state ≠ .ready ∧ r.state ≠ .waiting) → runnerAt t w = r) ∧
      (∀ v, v / 16 ≠ k → runnerAt t v = runnerAt s v) ∧ t.mem = s.mem ∧ t.accesses = s.accesses ∧ t.regs = s.regs) ∧
    (debugOpen s 0 = true → r.pc < bundleCount s (k / 64) → r.state = .halted → r.ending = false →
      (∃ t, exec (.coreResume k (BitVec.ofNat 64 (2 ^ i * 2 ^ 16))) s = .next t ∧
        runnerAt t w = { r with state := if r.wait.any (waitHolds s w) then .waiting else .ready, cause := 0, wait := if r.wait.any (waitHolds s w) then r.wait else none } ∧ (∀ v, v ≠ w → runnerAt t v = runnerAt s v) ∧ t.mem = s.mem) ∧
      (∃ t, exec (.coreStep k (BitVec.ofNat 64 (2 ^ i * 2 ^ 32))) s = .next t ∧
        runnerAt t w = { r with state := if r.wait.any (waitHolds s w) then .waiting else .ready, cause := 0, stepArm := true, wait := if r.wait.any (waitHolds s w) then r.wait else none } ∧ (∀ v, v ≠ w → runnerAt t v = runnerAt s v) ∧ t.mem = s.mem)) ∧
    (debugOpen s 0 = false → 0 < m → ∀ n ∈ [0, 16, 32], ∃ t, exec (.coreHalt k (BitVec.ofNat 64 (m * 2 ^ n))) s = .next t ∧ t.runners = s.runners ∧
      t.mem = s.mem ∧ recorded s t 0x0107) ∧
    (r.state ≠ .free → runnerBusy s w = false → ∃ t, exec (.coreKill k (BitVec.ofNat 64 (2 ^ i * 2 ^ 48))) s = .next t ∧ runnerAt t w = Runner.free ∧ t.mem = s.mem) ∧
    (r.state ≠ .free → runnerBusy s w = true → ∃ t, exec (.coreKill k (BitVec.ofNat 64 (2 ^ i * 2 ^ 48))) s = .next t ∧
      runnerAt t w = { r with ending := true, batons := [] } ∧ t.mem = s.mem) ∧
    (r.ending = true → runnerBusy s w = false → ∃ t, exec (.runnerFreed w) s = .next t ∧ runnerAt t w = Runner.free ∧ t.mem = s.mem) ∧
    (r.stepIssued = true → r.ending = false → r.state = .ready → ∃ t, exec (.stepDone w) s = .next t ∧ (runnerAt t w).state = .halted ∧
      waitCause (runnerAt t w) = 12 ∧ (coreAt t k).stepDone = true ∧ t.mem = s.mem)

/-- R104, and R102 for the lock. Classes are those of Table 3.22: 0 scalar, 1 address, 2 predicate, 3 the PC. -/
def Obligations.DebugAccess : Prop :=
  ∀ (s : State) (k r cls i : Nat) (val : BitVec 64), k < 1024 → r < 16 → dieAnswers s (k / 64) → unwatched s → dbgSel s k = (k * 16 + r, cls, i) →
    let w := k * 16 + r
    let open' := (runnerAt s w).state = .halted ∨ (runnerAt s w).state = .frozen
    (debugOpen s 0 = false → ∃ t, exec (.dbgDataWrite k val) s = .next t ∧ t.runners = s.runners ∧ recorded s t 0x0107) ∧
    (¬open' → dbgRead s k = 0 ∧ (debugOpen s 0 = true → exec (.dbgDataWrite k val) s = .next s)) ∧
    (open' → debugOpen s 0 = true →
      (cls = 0 → i < 64 → exec (.dbgDataWrite k val) s = .next (setS w i val s) ∧ (i ≠ 0 → dbgRead (setS w i val s) k = val)) ∧
      (cls = 1 → i < 16 → exec (.dbgDataWrite k val) s = .next (setA w i val s) ∧ dbgRead (setA w i val s) k = val) ∧
      (cls = 2 → i < 8 → exec (.dbgDataWrite k val) s = .next (setP w i (val.getLsbD 0) s) ∧
        (i ≠ 0 → dbgRead (setP w i (val.getLsbD 0) s) k = (if val.getLsbD 0 then 1 else 0))) ∧
      (cls = 3 → ∃ t, exec (.dbgDataWrite k val) s = .next t ∧ (runnerAt t w).pc = val.toNat % 2 ^ 17 ∧ (runnerAt t w).state = (runnerAt s w).state ∧
        dbgRead t k = BitVec.ofNat 64 (val.toNat % 2 ^ 17)) ∧
      (cls = 4 → i < 8 → exec (.dbgDataWrite k val) s = .next s) ∧ (cls = 4 → i < 10 → dbgRead s k = specialReg s w i) ∧
      (cls = 4 → i = 8 → (val.toNat < 4096 ∨ val.toNat = 0xFFFF) → exec (.dbgDataWrite k val) s = .next (modRunner w (fun r => { r with census := val.toNat }) s)) ∧
      (cls = 4 → i = 9 → val.toNat < 2 ^ 32 → exec (.dbgDataWrite k val) s = .next (modRunner w (fun r => { r with censusLap := val.toNat }) s)) ∧
      (5 ≤ cls → exec (.dbgDataWrite k val) s = .next s))

/-- R100, with R99 for what is launched. A share of a core that has too few Free runners waits. -/
def Obligations.LaunchedRunners : Prop :=
  (∀ (s : State) (h : Hdr) (dies n entry cores : Nat) (notify : Bool) (arg : BitVec 64), Starts s h 0x11 → unwatched s →
    let targets := (bitsOf 16 dies).flatMap (fun d => (bitsOf 64 cores).map (d * 64 + ·))
    let bad := n = 0 ∨ 16 < n ∨ bitsOf 16 dies = [] ∨ bitsOf 64 cores = [] ∨ ∃ d ∈ bitsOf 16 dies,
      flag s (.cmpProgStatus d) F.cmpProgStatus_valid = false ∨ ((s.progs.get? d).elim [] (·.entries)).length ≤ entry
    (bad → ∃ t, exec (.launch h dies n notify entry cores arg) s = .next t ∧ finishes s t h 0x11 1 0x0105 [] ∧ t.shares = s.shares ∧
      t.runners = s.runners ∧ recorded s t 0x0105) ∧
    (¬bad → ∃ t, exec (.launch h dies n notify entry cores arg) s = .next t ∧ t.shares.map (·.core) = s.shares.map (·.core) ++ targets ∧
      (∀ x ∈ t.shares, x ∈ s.shares ∨ (x.n = n ∧ x.entry = entry ∧ x.arg = arg)) ∧ t.runners = s.runners ∧ t.mem = s.mem ∧
      t.host.entries = s.host.entries)) ∧
  (∀ (s : State) (k : Nat) (x : Share), k < 1024 → s.shares.find? (·.core == k) = some x → inReset s (k / 64) = false →
    flag s .hifEmergencyHalt F.hifEmergencyHalt_active = false → s.power.resetCore ≠ some k →
    let free := (List.range 16).filter (fun i => (runnerAt s (k * 16 + i)).state == .free)
    (free.length < x.n → exec (.launchShareStart k) s = .next s) ∧
    (x.n ≤ free.length → ∃ t, exec (.launchShareStart k) s = .next t ∧ t.shares = s.shares.erase x ∧ t.mem = s.mem ∧ t.cores = s.cores ∧
      (∀ w, (∀ j < x.n, w ≠ k * 16 + free.getD j 0) → runnerAt t w = runnerAt s w) ∧
      ∀ j < x.n, (let w := k * 16 + free.getD j 0
        (runnerAt t w).state = .ready ∧ (runnerAt t w).pc = ((s.progs.get? (k / 64)).elim [] (·.entries)).getD x.entry 0 ∧
        sReg t w 1 = x.arg ∧ sReg t w 2 = BitVec.ofNat 64 j ∧ sReg t w 3 = BitVec.ofNat 64 k ∧ (∀ n, 4 ≤ n → sReg t w n = 0) ∧
        (∀ n, aReg t w n = 0) ∧ pReg t w 0 = true ∧ (∀ n, 0 < n → pReg t w n = false) ∧
        (runnerAt t w).census = 0xFFFF ∧ (runnerAt t w).censusLap = 0xFFFFFFFF)))

/-- R97, R98 and R502. -/
def Obligations.ProgramImages : Prop :=
  (∀ (s : State) (h : Hdr) (image dies : Nat), Starts s h 0x10 → unwatched s →
    let e := field (Mem.read s.mem image 0x40) 6 2
    let b := field (Mem.read s.mem image 0x40) 8 4
    let size := 0x40 + (4 * e + 15) / 16 * 16 + 16 * b
    (bitsOf 16 dies = [] → ∃ t, exec (.loadProgram h image dies) s = .next t ∧ finishes s t h 0x10 1 0x0103 [] ∧ t.progs = s.progs) ∧
    ((∃ d ∈ bitsOf 16 dies, dieBusy s d = true) → ∃ t, exec (.loadProgram h image dies) s = .next t ∧ finishes s t h 0x10 1 0x0104 [] ∧
      t.progs = s.progs ∧ t.mem = s.mem) ∧
    (bitsOf 16 dies ≠ [] → (∀ d ∈ bitsOf 16 dies, dieBusy s d = false ∧ cutOff s 16 d = false) →
      Reaches s h.q [(image, 0x40)] [] → Reaches s h.q [(image, size)] [] →
      (imageHeadBad (Mem.read s.mem image 0x40) = true ∨ imageBad (Mem.read s.mem image size) = true →
        ∃ t, exec (.loadProgram h image dies) s = .next t ∧ finishes s t h 0x10 1 0x0103 [] ∧
          ∀ d ∈ bitsOf 16 dies, flag t (.cmpProgStatus d) F.cmpProgStatus_valid = false) ∧
      (imageHeadBad (Mem.read s.mem image 0x40) = false → imageBad (Mem.read s.mem image size) = false →
        ∃ t, exec (.loadProgram h image dies) s = .next t ∧ finishes s t h 0x10 0 0 [] ∧ t.mem = s.mem ∧ t.runners = s.runners ∧
          ∀ d ∈ bitsOf 16 dies, flag t (.cmpProgStatus d) F.cmpProgStatus_valid = true ∧ getF t (.cmpProgStatus d) F.cmpProgStatus_bundles = b ∧
            t.progs.get? d = some ⟨(List.range e).map (fun i => natLE (Mem.read s.mem (image + 0x40 + 4 * i) 4)),
              (List.range b).map (fun i => BitVec.ofNat 128 (natLE (Mem.read s.mem (image + size - 16 * b + 16 * i) 16)))⟩))) ∧
  (∀ (s : State) (h : Hdr) (dies runners action cores : Nat), Starts s h 0x12 → unwatched s → s.halts = [] →
    let named := fun w => dies.testBit (w / 1024) = true ∧ cores.testBit (w / 16 % 64) = true ∧ runners.testBit (w % 16) = true
    (2 < action → ∃ t, exec (.haltRunners h dies runners action cores) s = .next t ∧ finishes s t h 0x12 1 0x0A10 [] ∧ t.runners = s.runners) ∧
    (action = 0 → ∃ t, exec (.haltRunners h dies runners 0 cores) s = .next t ∧ finishes s t h 0x12 0 0 [] ∧ t.mem = s.mem ∧
      ∀ w < 16384, (named w → ((runnerAt s w).state = .ready ∨ (runnerAt s w).state = .waiting) → (runnerAt t w).state = .halted ∧ waitCause (runnerAt t w) = 14) ∧
        (¬named w → runnerAt t w = runnerAt s w)) ∧
    (action = 2 → ∃ t, exec (.haltRunners h dies runners 2 cores) s = .next t ∧ t.mem = s.mem ∧
      ∀ w < 16384, (named w → (runnerAt t w).state = .free ∨ (runnerAt t w).ending = true)))

/-- R408 for the two data descriptors, with no lap open and no injection armed. -/
def Obligations.CopyAndFill : Prop :=
  ∀ (s : State) (h : Hdr) (dst src len : Nat) (pat : BitVec 64), len ≤ 2 ^ 47 → unwatched s → s.lap.state = 0 →
    (∀ d < 16, flag s (.memDieInjectCtl d) F.memDieInjectCtl_arm = false) →
    (Starts s h 0x20 →
      (0 < len → dst < src + len → src < dst + len → ∃ t, exec (.copy h dst src len) s = .next t ∧ finishes s t h 0x20 1 0x0A10 [] ∧ t.mem = s.mem) ∧
      (len = 0 → ∃ t, exec (.copy h dst src 0) s = .next t ∧ finishes s t h 0x20 0 0 [] ∧ t.mem = s.mem) ∧
      (0 < len → src + len ≤ dst ∨ dst + len ≤ src → Reaches s h.q [(src, len)] [(dst, len)] →
        ∃ t, exec (.copy h dst src len) s = .next t ∧ finishes s t h 0x20 0 0 [] ∧
          (∀ i < len, Mem.get t.mem (dst + i) = Mem.get s.mem (src + i)) ∧ (∀ a, a < dst ∨ dst + len ≤ a → Mem.get t.mem a = Mem.get s.mem a))) ∧
    (Starts s h 0x21 →
      (len = 0 → ∃ t, exec (.fill h dst pat 0) s = .next t ∧ finishes s t h 0x21 0 0 [] ∧ t.mem = s.mem) ∧
      (0 < len → Reaches s h.q [] [(dst, len)] → ∃ t, exec (.fill h dst pat len) s = .next t ∧ finishes s t h 0x21 0 0 [] ∧
        (∀ i < len, Mem.get t.mem (dst + i) = BitVec.ofNat 8 (pat.toNat / 2 ^ (8 * (i % 8)))) ∧
        (∀ a, a < dst ∨ dst + len ≤ a → Mem.get t.mem a = Mem.get s.mem a)))

/-- R93. `CENSUS_SLOT` holds 0xFFFF, so nothing is counted (R94). -/
def Obligations.DataMover : Prop :=
  (∀ (s : State) (w g a b len tag : Nat) (census : Bool), a < 16 → b < 16 → len < 64 → tag < 64 → Clear s w g [.a a, .a b, .s len, .s tag] →
    (runnerAt s w).census = 0xFFFF →
    let k := coreOf w
    let dst := (aReg s w a).toNat
    let src := (aReg s w b).toNat
    let n := (sReg s w len).toNat
    let r := runnerAt s w
    let tagged := setS w tag (BitVec.ofNat 64 (r.dmNext % 2 ^ 16)) (modRunner w (fun x => { x with dmNext := r.dmNext + 1 }) (moved s w))
    let queued (t : Transfer) : State := modCore k (fun c => { c with mover := c.mover ++ [t] }) { tagged with nextId := s.nextId + 1 }
    (32 ≤ (coreAt s k).mover.length → ∃ t, exec (.dmcopy w g a b len tag census) s = .next t ∧ (runnerAt t w).state = .waiting ∧
      waitCause (runnerAt t w) = 2 ∧ (runnerAt t w).pc = r.pc ∧ t.mem = s.mem) ∧
    ((coreAt s k).mover.length < 32 → holdOwn w (fun _ => [(src, n), (dst, n)]) s = none → accessFault s .r [(src, n)] = none → accessFault s .w [(dst, n)] = none →
      exec (.dmcopy w g a b len tag census) s = .next (if n = 0 then tagged else
        queued ⟨s.nextId, w, r.pc, r.dmNext, src, dst, 1, n, 0, 0, none, admitting s none .r src n ++ admitting s none .w dst n, lapSeen s, none⟩)) ∧
    ((coreAt s k).mover.length < 32 → holdOwn w (fun _ => [(dst, n)]) s = none → accessFault s .w [(dst, n)] = none →
      exec (.dmfill w g a b len tag) s = .next (if n = 0 then tagged else
        queued ⟨s.nextId, w, r.pc, r.dmNext, 0, dst, 1, n, 0, 0, some (sReg s w b), admitting s none .w dst n, lapSeen s, none⟩)) ∧
    (let rec' := Mem.read s.mem dst 32
     let rows := natLE ((rec'.drop 16).take 4)
     let m := natLE ((rec'.drop 20).take 4)
     let rd := recordRanges s dst
     (coreAt s k).mover.length < 32 → earlierTo s w dst 32 = [] → holdOwn w (fun _ => (dst, 32) :: (rd.1 ++ rd.2)) s = none →
      accessFault s .r [(dst, 32)] = none → targetReset s (dieOfRunner w) dst = false → poisonHit s dst 32 = none →
      accessFault s .r rd.1 = none → accessFault s .w rd.2 = none → s.memp.faults = [] →
      (rows * m = 0 → exec (.dm2d w g a tag census) s = .next tagged) ∧
      (rows * m ≠ 0 → ∃ t, exec (.dm2d w g a tag census) s = .next t ∧ t.mem = s.mem ∧ (runnerAt t w) = runnerAt tagged w ∧
        ((coreAt t k).mover.drop (coreAt s k).mover.length).map (fun x => (x.src, x.dst, x.rows, x.rowBytes, x.sstr, x.dstr, x.pat)) =
          [(natLE (rec'.take 8), natLE ((rec'.drop 8).take 8), rows, m, sint 32 (natLE ((rec'.drop 24).take 4)), sint 32 (natLE ((rec'.drop 28).take 4)), none)])) ∧
    (((coreAt s k).mover.filter (·.runner == w)) = [] → exec (.dmwait w g 0) s = .next (moved s w)) ∧
    (((coreAt s k).mover.filter (·.runner == w)) ≠ [] → ∃ t, exec (.dmwait w g 0) s = .next t ∧ (runnerAt t w).state = .waiting ∧
      waitCause (runnerAt t w) = 7 ∧ (runnerAt t w).pc = r.pc ∧ t.mem = s.mem)) ∧
  (∀ (s : State) (k : Nat) (x : Transfer), transferAt s x.id = some (k, x) → x.counted = none → x.rows = 1 → x.sstr = 0 → x.dstr = 0 →
    x.src + x.rowBytes ≤ 2 ^ 64 → x.dst + x.rowBytes ≤ 2 ^ 64 → x.dst < 2 ^ 64 → x.src < 2 ^ 64 → x.rowBytes ≠ 0 → (coreAt s k).mover.any (fun u => u.runner == x.runner && decide (u.id < x.id) && meet u.ranges x.ranges) = false →
    s.memp.faults = [] → s.memp.dead = [] → memoryRefuses s (k / 64) x.read x.written = none →
    (∀ d < 16, flag s (.memDieInjectCtl d) F.memDieInjectCtl_arm = false) → s.lap.state = 0 → x.seen.writing = none → x.seen.idle = true → (coreAt s k).array = [] →
    ∃ t, exec (.dmTransferPerformed x.id) s = .next t ∧
      (∀ i < x.rowBytes, Mem.get t.mem (x.dst + i) = (match x.pat with
        | some p => BitVec.ofNat 8 (p.toNat / 2 ^ (8 * (i % 8)))
        | none => Mem.get s.mem (x.src + i))) ∧
      (∀ y, y < x.dst ∨ x.dst + x.rowBytes ≤ y → Mem.get t.mem y = Mem.get s.mem y) ∧
      (coreAt t k).mover = (coreAt s k).mover.filter (·.id != x.id))

/-! ### The matrix array -/

/-- R107, R108, R110, R117 to R121, R127 and R132. -/
def Obligations.MatrixInstructions : Prop :=
  ∀ (s : State) (w g a b r q tile i ta tb ty : Nat) (clear : Bool), a < 16 → b < 16 → r < 64 → q < 64 → tile < 2 → i < 4 →
    Clear s w g [.a a, .a b, .s r, .s q] → s.accesses = [] → (coreAt s (coreOf w)).mover = [] → (coreAt s (coreOf w)).odrain = none →
    (runnerAt s w).census = 0xFFFF → s.memp.faults = [] → (∀ d < 16, flag s (.memDieInjectCtl d) F.memDieInjectCtl_arm = false) →
    let k := coreOf w
    let core := coreAt s k
    let x := (aReg s w a).toNat
    let y := (aReg s w b).toNat
    let n := (sReg s w r).toNat
    let frozen (code addr : Nat) := Host.Outcome.next (freezeRunner w code addr s)
    (core.array = [] →
      (∃ t, exec (.msetp w g i) s = .next t ∧ (coreAt t k).interval = i ∧ (coreAt t k).array = [] ∧ (tileCtl t k 0).pending = 0 ∧ (tileCtl t k 1).pending = 0 ∧
        (runnerAt t w).pc = (runnerAt s w).pc + 1 ∧ t.regs = s.regs) ∧
      (∃ t, exec (.mscale w g r q tile) s = .next t ∧ (tileCtl t k tile).sa = BitVec.ofNat 32 n ∧ (tileCtl t k tile).sb = BitVec.ofNat 32 (sReg s w q).toNat ∧
        (tileCtl t k tile).pending = 0 ∧ tileCtl t k (1 - tile) = tileCtl s k (1 - tile) ∧ (coreAt t k).interval = core.interval) ∧
      (∃ t, exec (.mzero w g tile) s = .next t ∧ (tileCtl t k tile).pending = 0 ∧ (∀ j < 65536, Mem.get t.mem (tileAddr k tile + j) = 0) ∧
        (∀ z, z < tileAddr k tile ∨ tileAddr k tile + 65536 ≤ z → Mem.get t.mem z = Mem.get s.mem z) ∧ tileCtl t k (1 - tile) = tileCtl s k (1 - tile)) ∧
      exec (.mwait w g) s = .next (moved s w) ∧
      (pairOk ta tb = false → exec (.mmac w g a b r ta tb tile clear) s = frozen 0x0101 0) ∧
      (pairOk ta tb = true → mapped s x (n * recordSize ta) = false → exec (.mmac w g a b r ta tb tile clear) s = frozen 0x0111 x) ∧
      (pairOk ta tb = true → mapped s x (n * recordSize ta) = true → mapped s y (n * recordSize tb) = true →
        (x % 128 ≠ 0 → exec (.mmac w g a b r ta tb tile clear) s = frozen 0x0114 x) ∧
        (x % 128 = 0 → y % 128 ≠ 0 → exec (.mmac w g a b r ta tb tile clear) s = frozen 0x0114 y) ∧
        (x % 128 = 0 → y % 128 = 0 → n = 0 → exec (.mmac w g a b r ta tb tile clear) s = .next (moved s w)) ∧
        (x % 128 = 0 → y % 128 = 0 → n ≠ 0 →
          (¬(folioAddr k ≤ x ∧ x + n * recordSize ta ≤ folioAddr k + 0x20_0000) → exec (.mmac w g a b r ta tb tile clear) s = frozen 0x0201 x) ∧
          (folioAddr k ≤ x → x + n * recordSize ta ≤ folioAddr k + 0x20_0000 → folioAddr k ≤ y → y + n * recordSize tb ≤ folioAddr k + 0x20_0000 →
            accessFault s .r [(x, n * recordSize ta), (y, n * recordSize tb)] = none →
            ((tileCtl s k tile).pending ≠ 0 → (tileCtl s k tile).integer ≠ (ta == 8) → exec (.mmac w g a b r ta tb tile clear) s = frozen 0x0203 0) ∧
            ((tileCtl s k tile).pending = 0 ∨ (tileCtl s k tile).integer = (ta == 8) → ∃ t, exec (.mmac w g a b r ta tb tile clear) s = .next t ∧ t.mem = s.mem ∧
              (coreAt t k).array.map (fun o => (o.runner, o.kind, o.done)) = [(w, .mmac x y n ta tb tile clear, 0)] ∧ (coreAt t k).tiles = core.tiles ∧
              (runnerAt t w).pc = (runnerAt s w).pc + 1)))) ∧
      ((drainType ty = false → exec (.mdrain w g a q ty 0 tile false) s = frozen 0x0101 0) ∧
       (drainType ty = true → (tileCtl s k tile).integer = false → holdOwn w (fun _ => [(x, drainBytes ty)]) s = none → mapped s x (drainBytes ty) = false →
        exec (.mdrain w g a q ty 0 tile false) s = frozen 0x0111 x) ∧
       (drainType ty = true → (tileCtl s k tile).integer = false → mapped s x (drainBytes ty) = true →
        (x % 64 ≠ 0 → holdOwn w (fun _ => [(x, drainBytes ty)]) s = none → exec (.mdrain w g a q ty 0 tile false) s = frozen 0x0114 x) ∧
        (x % 64 = 0 → drainPlace s x (drainBytes ty) = false → exec (.mdrain w g a q ty 0 tile false) s = frozen 0x0202 x) ∧
        (x % 64 = 0 → drainPlace s x (drainBytes ty) = true → accessFault s .w [(x, drainBytes ty)] = none → ∃ t, exec (.mdrain w g a q ty 0 tile false) s = .next t ∧
          t.mem = s.mem ∧ (coreAt t k).tiles = core.tiles ∧ (runnerAt t w).pc = (runnerAt s w).pc + 1 ∧ (coreAt t k).array.map (fun o => (o.runner, o.kind, o.done)) =
            [(w, .drain x (if q = 0 then none else some (BitVec.ofNat 32 (sReg s w q).toNat)) ty 0 tile [] none, 0)])))) ∧
    (core.array.length = 4 → ∃ t, exec (.mzero w g tile) s = .next t ∧ (runnerAt t w).state = .waiting ∧ waitCause (runnerAt t w) = 2 ∧ t.mem = s.mem ∧ (coreAt t k).array = core.array) ∧
    (core.array.any (·.runner == w) = true → ∃ t, exec (.mwait w g) s = .next t ∧ (runnerAt t w).state = .waiting ∧ waitCause (runnerAt t w) = 8 ∧ t.mem = s.mem)

/-- R111 to R118, R126 to R128 and R133. `recordAt` reads a K-step record (R109) and `blockTerm` forms a block term (R111 to R113). -/
def Obligations.KStepsAndDrains : Prop :=
  (∀ (s : State) (k tile ta tb a b n : Nat) (o : ArrOp), tile < 2 → pairOk ta tb = true → (coreAt s k).array = [o] → o.kind = .mmac a b n ta tb tile false →
    o.done + 1 < n → 0 < o.done → s.accesses = [] → (coreAt s k).mover = [] → s.memp.faults = [] → inReset s (k / 64) = false →
    (∀ d < 16, flag s (.memDieInjectCtl d) F.memDieInjectCtl_arm = false) → (tileCtl s k tile).integer = (ta == 8) →
    let c := tileCtl s k tile
    let ra := recordAt s (a + o.done * recordSize ta) ta
    let rb := recordAt s (b + o.done * recordSize tb) tb
    ∃ t, exec (.kstep k) s = .next t ∧ (coreAt t k).array = [{ o with done := o.done + 1 }] ∧
      (ta ≠ 0 → c.pending + 1 ≠ interval s k → t.mem = s.mem ∧ (tileCtl t k tile).pending = c.pending + 1 ∧
        (ta ≠ 8 → ∀ i < 128, ∀ j < 128, (tileCtl t k tile).fp[128 * i + j]? =
          ((partials c.fp)[128 * i + j]?).map (fun p => fp20Add p (blockTerm ta tb (ra.getD i ([], 0)) (rb.getD j ([], 0))))) ∧
        (ta = 8 → ∀ i < 128, ∀ j < 128, (tileCtl t k tile).ip[128 * i + j]? =
          ((partials c.ip)[128 * i + j]?).map (fun p => p + BitVec.ofInt 32 (intTerm (ra.getD i ([], 0)) (rb.getD j ([], 0)))))) ∧
      (ta ≠ 0 → c.pending + 1 = interval s k → (tileCtl t k tile).pending = 0) ∧
      (ta = 0 → (tileCtl t k tile).pending = c.pending ∧ ∀ i < 128, ∀ j < 128, rdN t (tileAddr k tile + 4 * (128 * i + j)) 4 =
        scaledAdd c (rdN s (tileAddr k tile + 4 * (128 * i + j)) 4) (plusZero (blockTerm 0 0 (ra.getD i ([], 0)) (rb.getD j ([], 0)))))) ∧
  (∀ (s : State) (k tile ty dest : Nat) (c : Option (BitVec 32)) (o : ArrOp), tile < 2 → drainType ty = true → (coreAt s k).array = [o] →
    o.kind = .drain dest c ty 0 tile [] none → (tileCtl s k tile).pending = 0 → o.seen.writing = none → o.seen.idle = true → s.lap.state = 0 → s.accesses = [] → (coreAt s k).mover = [] →
    s.memp.faults = [] → inReset s (k / 64) = false → targetReset s (k / 64) dest = false → copiesAt s dest (drainBytes ty) = [] →
    (∀ d < 16, flag s (.memDieInjectCtl d) F.memDieInjectCtl_arm = false) → drainPlace s dest (drainBytes ty) = true → dest % 64 = 0 →
    (ty ≠ 11 ∨ ∀ e < 16384, (drainElem (tileCtl s k tile).integer c ty 0 (rdN s (tileAddr k tile + 4 * e) 4) 0).clamped = false ∧
      (drainElem (tileCtl s k tile).integer c ty 0 (rdN s (tileAddr k tile + 4 * e) 4) 0).bad = false) →
    ∃ t, exec (.drainExecute k) s = .next t ∧ (coreAt t k).array = [] ∧ (tileCtl t k tile).pending = 0 ∧
      (∀ e < 16384, natLE (Mem.read t.mem (dest + e * typeBits ty / 8) 4) / 2 ^ (e * typeBits ty % 8) % 2 ^ typeBits ty =
        (drainElem (tileCtl s k tile).integer c ty 0 (rdN s (tileAddr k tile + 4 * e) 4) 0).code % 2 ^ typeBits ty) ∧
      (∀ y, y < dest ∨ dest + drainBytes ty ≤ y → Mem.get t.mem y = Mem.get s.mem y)) ∧
  (∀ (s : State) (k : Nat) (val : BitVec 64), k < 1024 → dieAnswers s (k / 64) → unwatched s → F.cmpCoreOdrainCtl_go.of val = 1 →
    let f (x : Fld) := x.of val
    let dest := (regVal s (.cmpCoreOdrainAddr k)).toNat
    let ok := drainType (f F.cmpCoreOdrainCtl_type) = true ∧ f F.cmpCoreOdrainCtl_rounding < 2 ∧ dest % 64 = 0 ∧
      drainPlace s dest (drainBytes (f F.cmpCoreOdrainCtl_type)) = true ∧ (tileCtl s k (f F.cmpCoreOdrainCtl_tile)).integer = false
    (debugOpen s 1 = false → ∃ t, exec (.odrainGo k val) s = .next t ∧ recorded s t 0x0107 ∧ (coreAt t k).odrain = (coreAt s k).odrain ∧ t.mem = s.mem) ∧
    (debugOpen s 1 = true → getF s (.cmpCoreOdrainCtl k) F.cmpCoreOdrainCtl_status ≠ 1 → coreHalted s k = false → ∃ t, exec (.odrainGo k val) s = .next t ∧
      recorded s t 0x0204 ∧ getF t (.cmpCoreOdrainCtl k) F.cmpCoreOdrainCtl_status = 3 ∧ (coreAt t k).odrain = (coreAt s k).odrain ∧ t.mem = s.mem) ∧
    (debugOpen s 1 = true → getF s (.cmpCoreOdrainCtl k) F.cmpCoreOdrainCtl_status ≠ 1 → coreHalted s k = true → ok → ∃ t, exec (.odrainGo k val) s = .next t ∧
      getF t (.cmpCoreOdrainCtl k) F.cmpCoreOdrainCtl_status = 1 ∧ (coreAt t k).odrain.isSome = true ∧ t.mem = s.mem ∧ t.runners = s.runners ∧
      (dest % 128 = 0 → s.memp.faults = [] → s.lap.state = 0 → copiesAt s dest (drainBytes (f F.cmpCoreOdrainCtl_type)) = [] → (coreAt s k).held = [] → s.halts = [] →
        f F.cmpCoreOdrainCtl_type = 0 → ∃ u, exec (.odrainDone k) t = .next u ∧ getF u (.cmpCoreOdrainCtl k) F.cmpCoreOdrainCtl_status = 2 ∧ (coreAt u k).odrain = none ∧
          (tileCtl u k (f F.cmpCoreOdrainCtl_tile)).pending = 0)))

/-- R116 on the values of R115. -/
def Obligations.FpTwentyAdd : Prop :=
  ∀ (p q : BitVec 20) (x : Val),
    let v := fp20Val p
    let r := fp20Add p x
    ((v.isNan ∨ x.isNan) → r = 0x7FC00) ∧
    (∀ a, v = .inf a → (x = .inf (!a) → r = 0x7FC00) ∧ (x.isNan = false → x ≠ .inf (!a) → r = (if a then 0xFF800 else 0x7F800))) ∧
    (∀ a, x = .inf a → v.isFin → r = (if a then 0xFF800 else 0x7F800)) ∧
    (1 ≤ q.toNat / 2 ^ 11 % 256 → q.toNat / 2 ^ 11 % 256 ≤ 254 → v.isFin → x.isFin → (v.add x).lt (fp20Val q) = false → (fp20Val q).lt (v.add x) = false → r = q) ∧
    (v.isFin → x.isFin → (v.add x).isZero → r = 0) ∧
    (r.toNat / 2 ^ 11 % 256 = 0 → r = 0)

/-! ### The vector engine -/

/-- R138 and R139 for what is written, R144 to R148 for the results: `elemOf` is a float, tally or integer result (0 stands for the draw, which no other rounding takes). -/
def Obligations.VectorElementwise : Prop :=
  (∀ (s : State) (w g : Nat) (o : VR),
    let k := coreOf w
    let does (op : Nat) (c : Instr) : Prop := (VReady s w g op o → (o.func ≠ 2 ∨ ¬isFloat3 o.type) → ∃ t, exec c s = .next t ∧
      (∀ i < 1024 * perWord o.type, vElem t k o.vd o.type i = if takes s k o (i / perWord o.type) then
          (elemOf op o.type o.func (vElem s k o.va o.type i) (vbElem s k o o.type i) (vElem s k o.vd o.type i) 0).1 % 2 ^ typeBits o.type
        else vElem s k o.vd o.type i) ∧
      onlyV s t k o.vd ∧ (runnerAt t w).pc = (runnerAt s w).pc + 1 ∧ (runnerAt t w).s = (runnerAt s w).s)
    does 0x01 (.vadd w g o) ∧ does 0x02 (.vsub w g o) ∧ does 0x03 (.vmul w g o) ∧ does 0x04 (.vfma w g o) ∧ does 0x05 (.vmin w g o) ∧
    does 0x06 (.vmax w g o) ∧ does 0x07 (.vabs w g o) ∧ does 0x08 (.vneg w g o) ∧ does 0x09 (.vdiv w g o) ∧ does 0x0A (.vsqrt w g o) ∧
    does 0x0B (.vrcp w g o) ∧ does 0x0C (.vrsqrt w g o) ∧ does 0x10 (.vand w g o) ∧ does 0x11 (.vor w g o) ∧ does 0x12 (.vxor w g o) ∧
    does 0x13 (.vshl w g o) ∧ does 0x14 (.vshr w g o) ∧ does 0x15 (.vsra w g o) ∧ does 0x30 (.vexp w g o) ∧ does 0x31 (.vexp2 w g o) ∧
    does 0x32 (.vlog w g o) ∧ does 0x33 (.vlog2 w g o) ∧ does 0x34 (.vsin w g o) ∧ does 0x35 (.vcos w g o) ∧ does 0x36 (.vtanh w g o) ∧
    does 0x37 (.vsigm w g o) ∧ does 0x38 (.verf w g o)) ∧
  (∀ (ty x y z : Nat), (ty = 8 ∨ ty = 9) →
    let b := typeBits ty
    x < 2 ^ b → y < 2 ^ b →
    let of' (op : Nat) (i : Int) : Prop := (elemOf op ty 0 x y z 0).1 = (i % (2 ^ b : Nat)).toNat
    of' 1 (sint b x + sint b y) ∧ of' 2 (sint b x - sint b y) ∧ of' 3 (sint b x * sint b y) ∧ of' 5 (min (sint b x) (sint b y)) ∧
    of' 6 (max (sint b x) (sint b y)) ∧ of' 7 (sint b x).natAbs ∧ of' 8 (-sint b x) ∧ of' 0x10 (x &&& y : Nat) ∧ of' 0x11 (x ||| y : Nat) ∧
    of' 0x12 (x ^^^ y : Nat) ∧ of' 0x13 (x * 2 ^ (y % b) : Nat) ∧ of' 0x14 (x / 2 ^ (y % b) : Nat) ∧ of' 0x15 (sint b x / 2 ^ (y % b)))

/-- R138 and R149. VSEL's reading of its mask is the model's (log entry 25). -/
def Obligations.VectorMasksAndSelect : Prop :=
  (∀ (s : State) (w g : Nat) (o : VR),
    let k := coreOf w
    let bits (op : Nat) (c : Instr) (f : Nat → Bool) : Prop := (VReady s w g op o → ∃ t, exec c s = .next t ∧ t.mem = s.mem ∧
      (∀ i < 1024, (maskReg t k o.vd).getLsbD i = if takes s k o i then f i else (maskReg s k o.vd).getLsbD i) ∧
      (∀ m, m ≠ o.vd → maskReg t k m = maskReg s k m) ∧ (runnerAt t w).pc = (runnerAt s w).pc + 1)
    let x (i : Nat) := vElem s k o.va o.type i
    let y (i : Nat) := vbElem s k o o.type i
    bits 0x20 (.vcmpeq w g o) (fun i => cmpElem 0x20 o.type (x i) (y i)) ∧ bits 0x21 (.vcmpne w g o) (fun i => cmpElem 0x21 o.type (x i) (y i)) ∧
    bits 0x22 (.vcmplt w g o) (fun i => cmpElem 0x22 o.type (x i) (y i)) ∧ bits 0x23 (.vcmple w g o) (fun i => cmpElem 0x23 o.type (x i) (y i)) ∧
    bits 0x25 (.vclass w g o) (fun i => classElem o.func (x i)) ∧
    bits 0x90 (.mand w g o) (fun i => (maskReg s k o.va).getLsbD i && (maskReg s k o.vb).getLsbD i) ∧
    bits 0x91 (.mor w g o) (fun i => (maskReg s k o.va).getLsbD i || (maskReg s k o.vb).getLsbD i) ∧
    bits 0x92 (.mxor w g o) (fun i => (maskReg s k o.va).getLsbD i ^^ (maskReg s k o.vb).getLsbD i) ∧
    bits 0x93 (.mnot w g o) (fun i => !(maskReg s k o.va).getLsbD i) ∧
    (VReady s w g 0x24 o → ∃ t, exec (.vsel w g o) s = .next t ∧ onlyV s t k o.vd ∧ (runnerAt t w).pc = (runnerAt s w).pc + 1 ∧
      ∀ i < 1024 * perWord o.type, vElem t k o.vd o.type i = if (maskReg s k o.mask).getLsbD (i / perWord o.type) then x i else y i)) ∧
  (∀ (s : State) (w g vd rs ty : Nat), vd < 32 → rs < 64 → ty < 12 → Clear s w g [.v vd, .s rs] → s.memp.faults = [] →
    (∀ d < 16, flag s (.memDieInjectCtl d) F.memDieInjectCtl_arm = false) → ∃ t, exec (.vsplat w g vd rs ty) s = .next t ∧ onlyV s t (coreOf w) vd ∧
      (runnerAt t w).pc = (runnerAt s w).pc + 1 ∧ ∀ i < 1024 * perWord ty, vElem t (coreOf w) vd ty i = (sReg s w rs).toNat % 2 ^ typeBits ty) ∧
  (∀ (x y : Nat), x < 2 ^ 32 → y < 2 ^ 32 →
    let nan := (f32 x).isNan || (f32 y).isNan
    cmpElem 0x20 0 x y = (!nan && !(f32 x).lt (f32 y) && !(f32 y).lt (f32 x)) ∧ cmpElem 0x21 0 x y = !cmpElem 0x20 0 x y ∧
    cmpElem 0x22 0 x y = (!nan && (f32 x).lt (f32 y)) ∧ cmpElem 0x23 0 x y = (!nan && !(f32 y).lt (f32 x)) ∧
    cmpElem 0x22 9 x y = decide (sint 32 x < sint 32 y) ∧ cmpElem 0x23 9 x y = decide (sint 32 x ≤ sint 32 y) ∧ cmpElem 0x20 9 x y = decide (x = y))

/-- R150 to R154. -/
def Obligations.VectorConversions : Prop :=
  ∀ (s : State) (w g : Nat) (o : VR),
    let k := coreOf w
    let n := 32 * perWord o.type
    let x (ty i : Nat) := vElem s k o.va ty i
    let z (i : Nat) := vElem s k o.vd o.type i
    let on (i : Nat) := takes s k o (i / perWord o.type)
    let next' (t : State) : Prop := (runnerAt t w).pc = (runnerAt s w).pc + 1 ∧ (runnerAt t w).s = (runnerAt s w).s
    (VReady s w g 0x40 o → o.func % 4 ≠ 2 → ∃ t, exec (.vcvt w g o) s = .next t ∧ next' t ∧ onlyV s t k o.vd ∧ ∀ i < 1024 * perWord o.type,
      vElem t k o.vd o.type i =
        (let p := o.func / 8
         if widthClass o.type < widthClass o.vb then
           (let m := 1024 * perWord o.vb
            if p * m ≤ i ∧ i < p * m + m ∧ takes s k o ((i - p * m) / perWord o.vb) = true then (cvtElem o.vb o.type o.func (x o.vb (i - p * m)) 0).1 % 2 ^ typeBits o.type else z i)
         else if on i then (cvtElem o.vb o.type o.func (x o.vb (p * (1024 * perWord o.type) + i)) 0).1 % 2 ^ typeBits o.type else z i)) ∧
    (VReady s w g 0x40 o → ∃ t, exec (.vcvt w g o) s = .next t ∧ next' t ∧ onlyV s t k o.vd ∧ ∀ i < 1024 * perWord o.type,
      vElem t k o.vd o.type i = z i ∨ ∃ j u, vElem t k o.vd o.type i = (cvtElem o.vb o.type o.func (x o.vb j) u).1 % 2 ^ typeBits o.type) ∧
    (VReady s w g 0x50 o → ∃ t, exec (.vperm w g o) s = .next t ∧ next' t ∧ onlyV s t k o.vd ∧ ∀ i < 32 * n, vElem t k o.vd o.type i =
      if on i then x o.type (i / n * n + vElem s k o.vb o.type i % n) else z i) ∧
    (VReady s w g 0x51 o → ∃ t, exec (.vshuf w g o) s = .next t ∧ next' t ∧ onlyV s t k o.vd ∧ ∀ i < 32 * n, vElem t k o.vd o.type i =
      if on i then x o.type (vElem s k o.vb o.type i % 32 * n + i % n) else z i) ∧
    (VReady s w g 0x52 o → ∃ t, exec (.vtrans w g o) s = .next t ∧ next' t ∧ onlyV s t k o.vd ∧ ∀ i < 1024, vElem t k o.vd o.type i =
      if on i then x o.type (i % 32 * 32 + i / 32) else z i) ∧
    (VReady s w g 0x60 o → ∃ t, exec (.vpack w g o) s = .next t ∧ next' t ∧ onlyV s t k o.vd ∧
      (∀ i < 4096, natLE (Mem.read t.mem (vregAddr k o.vd + 6 * i / 8) 2) / 2 ^ (6 * i % 8) % 64 = x o.type i) ∧
      ∀ j, 3072 ≤ j → j < 4096 → Mem.get t.mem (vregAddr k o.vd + j) = Mem.get s.mem (vregAddr k o.vd + j)) ∧
    (VReady s w g 0x61 o → ∃ t, exec (.vunpack w g o) s = .next t ∧ next' t ∧ onlyV s t k o.vd ∧
      ∀ i < 4096, Mem.get t.mem (vregAddr k o.vd + i) = BitVec.ofNat 8 (natLE (Mem.read s.mem (vregAddr k o.va + 6 * i / 8) 2) / 2 ^ (6 * i % 8) % 64)) ∧
    (VReady s w g 0x62 o → o.func % 4 ≠ 2 → o.vd ≠ o.vb → ∃ t, exec (.vmxpack w g o) s = .next t ∧ next' t ∧
      (∀ b < 32, (let blk := (List.range 32).map (fun j => x 0 (32 * b + j))
        Mem.get t.mem (vregAddr k o.vb + o.func / 4 * 32 + b) = BitVec.ofNat 8 (mxScale o.type blk) ∧
        ∀ j < 32, vElem t k o.vd o.type (o.func / 4 * 1024 + 32 * b + j) = mxElem o.type (o.func % 4) (mxScale o.type blk) (x 0 (32 * b + j)) 0 % 2 ^ typeBits o.type)) ∧
      (∀ i < 1024 * perWord o.type, i < o.func / 4 * 1024 ∨ o.func / 4 * 1024 + 1024 ≤ i → vElem t k o.vd o.type i = z i) ∧
      ∀ j < 4096, j < o.func / 4 * 32 ∨ o.func / 4 * 32 + 32 ≤ j → Mem.get t.mem (vregAddr k o.vb + j) = Mem.get s.mem (vregAddr k o.vb + j)) ∧
    (VReady s w g 0x62 o → o.vd ≠ o.vb → ∃ t, exec (.vmxpack w g o) s = .next t ∧ next' t ∧
      (∀ b < 32, (let blk := (List.range 32).map (fun j => x 0 (32 * b + j))
        Mem.get t.mem (vregAddr k o.vb + o.func / 4 * 32 + b) = BitVec.ofNat 8 (mxScale o.type blk) ∧
        ∀ j < 32, ∃ u, vElem t k o.vd o.type (o.func / 4 * 1024 + 32 * b + j) = mxElem o.type (o.func % 4) (mxScale o.type blk) (x 0 (32 * b + j)) u % 2 ^ typeBits o.type)) ∧
      ∀ a, (a < vregAddr k o.vd ∨ vregAddr k o.vd + 4096 ≤ a) → (a < vregAddr k o.vb ∨ vregAddr k o.vb + 4096 ≤ a) → Mem.get t.mem a = Mem.get s.mem a) ∧
    (VReady s w g 0x62 o → o.vd = o.vb → ∃ t, exec (.vmxpack w g o) s = .next t ∧ next' t ∧ onlyV s t k o.vd) ∧
    (VReady s w g 0x63 o → ∃ t, exec (.vmxunpack w g o) s = .next t ∧ next' t ∧ onlyV s t k o.vd ∧ ∀ i < 1024, vElem t k o.vd 0 i =
      if takes s k o i then mxExpand o.type (Mem.get s.mem (vregAddr k o.vb + o.func / 4 * 32 + i / 32)).toNat (x o.type (o.func / 4 * 1024 + i)) % 2 ^ 32 else vElem s k o.vd 0 i)

/-- R155 to R158: `reduce` is one reduction over (element, position) pairs, `softmaxRow` one row of Table 5.8. -/
def Obligations.VectorReductions : Prop :=
  ∀ (s : State) (w g : Nat) (o : VR),
    let k := coreOf w
    let n := 32 * perWord o.type
    let part (l : List (Nat × Nat)) : List (Nat × Nat) :=
      (l.filter (fun p => takes s k o (p.1 / perWord o.type))).map (fun p => (vElem s k o.va o.type p.1, p.2))
    let group (j : Nat) : List (Nat × Nat) := part (match o.vb % 4 with
      | 0 => (List.range n).map (fun c => (j * n + c, c))
      | 1 => (List.range 32).map (fun r => (r * n + j, r))
      | _ => (List.range (32 * n)).map (fun i => (i, i)))
    let groups := if o.vb % 4 = 0 then 32 else if o.vb % 4 = 1 then n else 1
    let arg := o.func = 4 ∨ o.func = 5
    (VReady s w g 0x80 o → ∃ t, exec (.vred w g o) s = .next t ∧ onlyV s t k o.vd ∧ (runnerAt t w).pc = (runnerAt s w).pc + 1 ∧
      (∀ j < groups, vElem t k o.vd 0 j = (reduce o.func o.type (group j)).1 % 2 ^ 32 ∧ (arg → vElem t k o.vd 0 (512 + j) = (group j).length)) ∧
      ∀ i < 1024, groups ≤ i → (arg → i < 512 ∨ 512 + groups ≤ i) → vElem t k o.vd 0 i = vElem s k o.vd 0 i) ∧
    (VReady s w g 0x70 o → o.vd ≠ o.vb → ∃ t, exec (.vsoftmax w g o) s = .next t ∧ (runnerAt t w).pc = (runnerAt s w).pc + 1 ∧
      (∀ r < 32, (let row := softmaxRow ((List.range 32).map (fun c => takes s k o (32 * r + c))) ((List.range 32).map (fun c => vElem s k o.va 0 (32 * r + c)))
        vElem t k o.vb 0 r = row.2 % 2 ^ 32 ∧ ∀ c < 32, vElem t k o.vd 0 (32 * r + c) = row.1.getD c 0 % 2 ^ 32)) ∧
      (∀ i < 1024, 32 ≤ i → vElem t k o.vb 0 i = vElem s k o.vb 0 i) ∧
      ∀ a, (a < vregAddr k o.vd ∨ vregAddr k o.vd + 4096 ≤ a) → (a < vregAddr k o.vb ∨ vregAddr k o.vb + 4096 ≤ a) → Mem.get t.mem a = Mem.get s.mem a)

/-- R159 to R162, R91 and R165. -/
def Obligations.LaneGenerators : Prop :=
  (∀ (a b c d : BitVec 32),
    let r := draw (d ++ c ++ b ++ a)
    let c' := c ^^^ a
    let d' := d ^^^ b
    r.1 = ((a + d).rotateLeft 7 + a).toNat ∧ r.2 = d'.rotateLeft 11 ++ (c' ^^^ (b <<< 9)) ++ (b ^^^ c') ++ (a ^^^ d')) ∧
  (∀ (s : State) (w g : Nat) (o : VR),
    let k := coreOf w
    let four (lane : Nat) := drawsOf 4 (genOf s k lane)
    let drawn (i : Nat) : Nat := (four (32 * (i / 32 % 8) + i % 32)).1.getD (i / 32 / 8) 0
    (VReady s w g 0xA2 o → ∃ t, exec (.gendraw w g o) s = .next t ∧ onlyV s t k o.vd ∧ (runnerAt t w).pc = (runnerAt s w).pc + 1 ∧
      (∀ i < 1024, vElem t k o.vd 0 i = if takes s k o i then drawn i else vElem s k o.vd 0 i) ∧ ∀ l < 256, genOf t k l = (four l).2) ∧
    (VReady s w g 0xA3 o → ∃ t, exec (.gendrop w g o) s = .next t ∧ t.mem = s.mem ∧ (runnerAt t w).pc = (runnerAt s w).pc + 1 ∧
      (∀ i < 1024, (maskReg t k o.vd).getLsbD i = if takes s k o i then decide (drawn i < vbElem s k o 0 i) else (maskReg s k o.vd).getLsbD i) ∧
      ∀ l < 256, genOf t k l = (four l).2) ∧
    (VReady s w g 0xA0 o → ∃ t, exec (.gensave w g o) s = .next t ∧ onlyV s t k o.vd ∧ (runnerAt t w).pc = (runnerAt s w).pc + 1 ∧
      ∀ l < 256, genOf t k l = genOf s k l ∧ natLE (Mem.read t.mem (vregAddr k o.vd + 16 * l) 16) = (genOf s k l).toNat) ∧
    (VReady s w g 0xA1 o → ∃ t, exec (.genload w g o) s = .next t ∧ t.mem = s.mem ∧ (runnerAt t w).pc = (runnerAt s w).pc + 1 ∧
      ∀ l < 256, (genOf t k l).toNat = natLE (Mem.read s.mem (vregAddr k o.va + 16 * l) 16))) ∧
  (∀ (s : State) (d : Nat) (val : BitVec 32), d < 16 → dieAnswers s d → ∃ t, exec (.vecReseed d val) s = .next t ∧ t.mem = s.mem ∧ t.runners = s.runners ∧
    (val.getLsbD 0 = false ∨ flag s (.cmpVecGenCtl d) F.cmpVecGenCtl_busy = true → t.cores = s.cores) ∧
    (val.getLsbD 0 = true → flag s (.cmpVecGenCtl d) F.cmpVecGenCtl_busy = false → flag t (.cmpVecGenCtl d) F.cmpVecGenCtl_busy = true ∧
      ∀ k < 1024, k / 64 = d → (coreAt t k).boundary.getLast? = some .reseed))

/-! ### The census, the lap block and the lane snapshots -/

/-- R187, R188 and R192; records that the memory refuses are a malformed install by the model's choice (log entry 123). -/
def Obligations.CensusSlots : Prop :=
  (∀ (s : State) (val : BitVec 64), getF s .lapCensusInstallCtl F.lapCensusInstallCtl_status ≠ 1 → unwatched s → dieAnswers s 16 → s.memp.faults = [] →
    let first := F.lapCensusInstallCtl_first.of val
    let count := F.lapCensusInstallCtl_count.of val
    let go := F.lapCensusInstallCtl_go.of val = 1
    let rec' (i : Nat) := Mem.read s.mem (getF s .lapCensusInstallAddr F.lapCensusInstallAddr_addr * 16 + 16 * i) 16
    let good (i : Nat) : Bool := field (rec' i) 0 1 < 64 && field (rec' i) 2 2 == 0 && field (rec' i) 8 8 == 0 &&
      decide (-40 ≤ sint 8 (field (rec' i) 1 1) ∧ sint 8 (field (rec' i) 1 1) ≤ 23)
    let span := (getF s .lapCensusInstallAddr F.lapCensusInstallAddr_addr * 16, 16 * count)
    let bad := count = 0 ∨ (¬∀ i < count, good i = true) ∨ mapped s span.1 span.2 = false ∨ memoryRefuses s 16 [span] [] ≠ none
    let status (t : State) (v : Nat) : Prop := getF t .lapCensusInstallCtl F.lapCensusInstallCtl_status = v ∧ t.mem = s.mem ∧
      getF t .lapCensusInstallCtl F.lapCensusInstallCtl_first = first ∧ getF t .lapCensusInstallCtl F.lapCensusInstallCtl_count = count
    (¬go → ∃ t, exec (.censusInstallGo val) s = .next t ∧ status t (getF s .lapCensusInstallCtl F.lapCensusInstallCtl_status) ∧ t.census = s.census) ∧
    (go → 4096 < first + count → ∃ t, exec (.censusInstallGo val) s = .next t ∧ status t 3 ∧ t.census = s.census ∧ recorded s t 0x03F1) ∧
    (go → first + count ≤ 4096 → bad → ∃ t, exec (.censusInstallGo val) s = .next t ∧ status t 4 ∧ t.census = s.census ∧ recorded s t 0x0303) ∧
    (go → first + count ≤ 4096 → ¬bad → ∃ t, exec (.censusInstallGo val) s = .next t ∧ status t 1 ∧ t.blotter = s.blotter ∧
      t.census = { s.census with install := some ((List.range count).map (fun i => (first + i,
        if (field (rec' i) 0 1).testBit 3 then some ⟨field (rec' i) 0 1 % 8, (field (rec' i) 0 1).testBit 4, (field (rec' i) 0 1).testBit 5,
          sint 8 (field (rec' i) 1 1), BitVec.ofNat 32 (field (rec' i) 4 4)⟩ else none))) })) ∧
  (∀ (s : State) (l : List (Nat × Option SlotDef)), s.census.install = some l → (l.map (·.1)).Nodup → (∀ p ∈ l, p.1 < 4096) →
    let mine (slot : Nat) : Bool := l.any (fun p => p.1 == slot)
    (countPending s (l.map (·.1)) = true → exec .censusInstallComplete s = .next s) ∧
    (countPending s (l.map (·.1)) = false → ∃ t, exec .censusInstallComplete s = .next t ∧
      getF t .lapCensusInstallCtl F.lapCensusInstallCtl_status = 2 ∧ t.census.install = none ∧ t.census.bankLap = s.census.bankLap ∧
      (∀ p ∈ l, slotDef t p.1 = p.2) ∧ (∀ slot < 4096, mine slot = false → slotDef t slot = slotDef s slot) ∧
      (∀ slot < 4096, ∀ d < 20, ∀ bank < 2, t.census.tops.get? (bankKey d slot bank) = (if mine slot then none else s.census.tops.get? (bankKey d slot bank)) ∧
        ∀ bin < 72, t.census.bins.get (binKey d slot bank bin) 0 = if mine slot then 0 else s.census.bins.get (binKey d slot bank bin) 0) ∧
      (∀ slot, mine slot = true → ∀ a ∈ (scaleDry s).toList ++ (scaleWet s).toList, ∀ i < 32, Mem.get t.mem (a + slot * 32 + i) = 0) ∧
      ∀ b, (∀ slot < 4096, mine slot = true → ∀ a ∈ (scaleDry s).toList ++ (scaleWet s).toList, ¬(a + slot * 32 ≤ b ∧ b < a + slot * 32 + 32)) →
        Mem.get t.mem b = Mem.get s.mem b)) ∧
  (∀ (s : State) (h : Hdr) (first count lap dest : Nat) (clear : Bool), Starts s h 0x70 → unwatched s → first < 4096 → count < 8192 → lap < 2 ^ 32 →
    let bank := lap % 2
    let bad := count = 0 ∨ 4096 < first + count ∨ bankHolds s lap = false
    (bad → ∃ t, exec (.censusRead h first count lap dest clear) s = .next t ∧ finishes s t h 0x70 1 0x0304 [] ∧ t.mem = s.mem ∧
      t.census = s.census ∧ recorded s t 0x0304) ∧
    (¬bad → Reaches s h.q [] [(dest, 640 * count)] → copiesAt s dest (640 * count) = [] →
      ∃ t, exec (.censusRead h first count lap dest clear) s = .next t ∧ finishes s t h 0x70 0 0 [] ∧ t.census.slots = s.census.slots ∧
      (∀ i < count,
        let slot := first + i
        let of' := field (Mem.read t.mem (dest + 640 * i) 640)
        let sat : Bool := (List.range 20).any (fun d => s.census.saturated.contains (bankKey d slot bank))
        of' 0 2 = slot ∧ of' 2 1 = (slotDef s slot).elim 0 (·.kind) % 256 ∧ of' 3 1 = (slotDef s slot).isSome.toNat + 2 * sat.toNat ∧
        of' 4 4 = (slotDef s slot).elim 0 (·.tag.toNat) ∧ of' 8 4 = lap ∧ (∀ j < 51, of' (13 + j) 1 = 0) ∧
        sint 8 (of' 12 1) = (slotDef s slot).elim (-128) (fun d => (localTop s slot d bank).elim (-128) clampTop) ∧
        ∀ bin < 72, of' (64 + 8 * bin) 8 = binSum s slot bank bin % 2 ^ 64) ∧
      (∀ b, b < dest ∨ dest + 640 * count ≤ b → Mem.get t.mem b = Mem.get s.mem b) ∧
      (clear = false → t.census = s.census) ∧
      (clear = true → ∀ slot < 4096, ∀ d < 20, ∀ c < 2, ∀ bin < 72, t.census.bins.get (binKey d slot c bin) 0 =
        if c = bank ∧ first ≤ slot ∧ slot < first + count then 0 else s.census.bins.get (binKey d slot c bin) 0)))

/-- R198, R200, R201, R208, R227, R194 and R166 for the registers, R163 to R165 for the lanes. -/
def Obligations.LapRegisters : Prop :=
  (∀ (s : State) (val : BitVec 32), unwatched s → dieAnswers s 16 → s.memp.faults = [] →
    (s.lap.state ≠ 0 → ∃ t, exec (.lapNextWrite val) s = .next t ∧ recorded s t 0x0607 ∧ getF t .lapNext F.lapNext_next = getF s .lapNext F.lapNext_next ∧ t.mem = s.mem) ∧
    (s.lap.state = 0 → ∃ t, exec (.lapNextWrite val) s = .next t ∧ getF t .lapNext F.lapNext_next = val.toNat ∧ t.blotter = s.blotter ∧ t.lap = s.lap ∧
      (tableBase s = 0 → t.mem = s.mem) ∧
      (∀ b, Apart b 1 (tableBase s) 0x1_0000 → Mem.get t.mem b = Mem.get s.mem b) ∧
      (∀ area ∈ (scaleDry s).toList, tableBase s ≠ 0 → Apart area 0x2_1000 (tableBase s) 0x1_0000 → (∀ p ∈ s.census.slots, p.1 < 4096) →
        holdsTable s t area val.toNat ∧ holdsTable s t area (lapPlus val.toNat 1)))) ∧
  (∀ (s : State) (r : Nat) (val : BitVec 64), r < 64 → unwatched s → dieAnswers s 16 →
    let kind := F.lapRegionCfg_kind.of val
    let n := F.lapRegionCfg_pages.of val * 4096
    let copies (k : Nat) := if k = 7 then 1 else 2
    let ok : Prop := kind ≤ 7 ∧ F.lapRegionCfg_check.of val ≠ 7 ∧ n ≠ 0 ∧
      (∀ c < copies kind, (memoryOf s (regionBase s r c) n).any (fun m => kind == 7 || decide (m < 16)) = true) ∧
      (kind ≠ 7 → Apart (regionBase s r 0) n (regionBase s r 1) n) ∧
      (∀ q < 64, q ≠ r → regionValid s q = true → ∀ c < copies kind, ∀ c' < copies (regionKind s q),
        Apart (regionBase s r c) n (regionBase s q c') (regionLen s q)) ∧
      (kind = 4 ∨ kind = 5 → F.lapRegionCfg_check.of val = 0) ∧
      (kind = 4 → F.lapRegionCfg_carry.of val = 0 ∧ n = 0x4_0000 ∧ regionBase s r 1 = regionBase s r 0 + 0x4_0000 ∧
        (ownerOf s (regionBase s r 0)).any (fun d => snapBase s d == regionBase s r 0) = true) ∧
      (kind = 5 → n = 0x2_1000 ∧ ∀ q < 64, q ≠ r → regionValid s q = true → regionKind s q ≠ 5)
    let valid := F.lapRegionCfg_valid.of val = 1
    (s.lap.state ≠ 0 ∨ (valid ∧ ¬ok) → ∃ t, exec (.lapRegionCfgWrite r val) s = .next t ∧ recorded s t 0x0609 ∧
      (∀ q, regVal t (.lapRegionCfg q) = regVal s (.lapRegionCfg q)) ∧ t.mem = s.mem ∧ t.lap = s.lap) ∧
    (s.lap.state = 0 → (valid → ok) → ∃ t, exec (.lapRegionCfgWrite r val) s = .next t ∧ t.blotter = s.blotter ∧ t.mem = s.mem ∧ t.lap = s.lap ∧
      regionKind t r = kind ∧ regionLen t r = n ∧ (regionValid t r = true ↔ valid) ∧ dryCopy t r = dryCopy s r ∧
      getF t (.lapRegionCfg r) F.lapRegionCfg_check = F.lapRegionCfg_check.of val ∧ getF t (.lapRegionCfg r) F.lapRegionCfg_carry = F.lapRegionCfg_carry.of val ∧
      ∀ q, q ≠ r → regVal t (.lapRegionCfg q) = regVal s (.lapRegionCfg q))) ∧
  (∀ (s : State) (r copy : Nat) (val : BitVec 64), r < 64 → copy < 2 → unwatched s → dieAnswers s 16 →
    (s.lap.state ≠ 0 ∨ regionValid s r = true → ∃ t, exec (.lapRegionBaseWrite r copy val) s = .next t ∧ recorded s t 0x0609 ∧
      regionBase t r copy = regionBase s r copy ∧ t.mem = s.mem) ∧
    (s.lap.state = 0 → regionValid s r = false → ∃ t, exec (.lapRegionBaseWrite r copy val) s = .next t ∧ t.blotter = s.blotter ∧ t.mem = s.mem ∧
      regionBase t r copy = val.toNat / 4096 * 4096 ∧ regionBase t r (1 - copy) = regionBase s r (1 - copy))) ∧
  (∀ (s : State) (val : BitVec 64), unwatched s → dieAnswers s 16 →
    let rec' := val.toNat / 64 * 64
    let clip := val.toNat / 65536 * 65536
    let okRec := s.lap.state = 0 ∧ (rec' = 0 ∨ (memoryOf s rec' 64).isSome = true)
    let okClip := s.lap.state = 0 ∧ (clip = 0 ∨ (memoryOf s clip 0x4_0000).any (fun m => decide (m < 16)) = true)
    (∃ t, exec (.lapBaseWrite 0 val) s = .next t ∧ t.mem = s.mem ∧ t.lap = s.lap ∧ (okRec → getF t .lapRecordBase F.lapRecordBase_base * 64 = rec') ∧
      (¬okRec → regVal t .lapRecordBase = regVal s .lapRecordBase ∧ recorded s t 0x0609)) ∧
    (∃ t, exec (.lapBaseWrite 1 val) s = .next t ∧ t.mem = s.mem ∧ t.lap = s.lap ∧ (okClip → getF t .lapClipBase F.lapClipBase_base * 65536 = clip) ∧
      (¬okClip → regVal t .lapClipBase = regVal s .lapClipBase ∧ recorded s t 0x0609)) ∧
    (∃ t, exec (.unseal (val.setWidth 32)) s = .next t ∧ t.mem = s.mem ∧ t.lap = s.lap ∧ isSealed t = (isSealed s && !val.getLsbD 0)) ∧
    (∃ t, exec (.scaleTableBaseWrite val) s = .next t ∧ t.mem = s.mem ∧
      (clip ≠ 0 ∧ memoryOf s clip 0x1_0000 = none → tableBase t = tableBase s ∧ t.lap = s.lap ∧ recorded s t 0x0306) ∧
      (clip = 0 ∨ memoryOf s clip 0x1_0000 ≠ none → t.blotter = s.blotter ∧
        (lapInFlight s = false → tableBase t = clip ∧ t.lap = s.lap) ∧ (lapInFlight s = true → tableBase t = tableBase s ∧ t.lap.pendTable = some (BitVec.ofNat 64 clip)))) ∧
    ∀ d < 16, dieAnswers s d → ∃ t, exec (.vecSnapWrite d val) s = .next t ∧ t.mem = s.mem ∧
      (memoryOf s clip 0x8_0000 ≠ some d → snapBase t d = snapBase s d ∧ t.lap = s.lap ∧ recorded s t 0x0301) ∧
      (memoryOf s clip 0x8_0000 = some d → t.blotter = s.blotter ∧
        (lapInFlight s = false → snapBase t d = clip ∧ getF t (.cmpVecSnap d) F.cmpVecSnap_enable = F.cmpVecSnap_enable.of val ∧ t.lap = s.lap) ∧
        (lapInFlight s = true → t.regs = s.regs ∧ (t.lap.pendSnap.get? d).any (fun v => F.cmpVecSnap_base.of v * 65536 == clip && F.cmpVecSnap_enable.of v == F.cmpVecSnap_enable.of val) = true))) ∧
  (∀ (s : State) (k n : Nat), k < 1024 → inReset s (k / 64) = false → s.memp.faults = [] → s.memp.poison = [] → (∀ d < 16, flag s (.memDieInjectCtl d) F.memDieInjectCtl_arm = false) →
    let d := k / 64
    let on := flag s (.cmpVecSnap d) F.cmpVecSnap_enable = true
    ((coreAt s k).boundary = [.snapshot n] → ∃ t, exec (.snapshotTake k) s = .next t ∧ (coreAt t k).lap = n ∧ (coreAt t k).boundary = [] ∧
      (∀ l < 256, genOf t k l = genOf s k l) ∧ (¬on → t.mem = s.mem ∧ t.regs = s.regs) ∧
      (on → flag t (snapValid d n).1 (snapValid d n).2 = false ∧ (∀ l < 256, rdN t (snapBase s d + n % 2 * 0x4_0000 + k % 64 * 4096 + 16 * l) 16 = (genOf s k l).toNat) ∧
        ∀ b, Apart b 1 (snapBase s d + n % 2 * 0x4_0000 + k % 64 * 4096) 4096 → Mem.get t.mem b = Mem.get s.mem b)) ∧
    ((coreAt s k).boundary = [.restore n] → unwatched s → ∃ t, exec (.generatorRestore k) s = .next t ∧ (coreAt t k).boundary = [] ∧ t.mem = s.mem ∧
      (on → flag s (snapValid d n).1 (snapValid d n).2 = true → (coreAt t k).loading = true ∧
        ∀ l < 256, (genOf t k l).toNat = rdN s (snapBase s d + n % 2 * 0x4_0000 + k % 64 * 4096 + 16 * l) 16) ∧
      (¬on ∨ flag s (snapValid d n).1 (snapValid d n).2 = false → (∀ l < 256, genOf t k l = seedLane (regVal s (.cmpVecSeed d)).toNat (k * 256 + l)) ∧
        (k % 64 = 0 → recorded s t 0x0302))) ∧
    (∃ t, exec (.generatorLoadComplete k) s = .next t ∧ (coreAt t k).loading = false ∧ t.mem = s.mem) ∧
    ((∀ j < 1024, j / 64 = d → (coreAt s j).boundary = []) →
      ∃ t, exec (.reseedComplete d) s = .next t ∧ flag t (.cmpVecGenCtl d) F.cmpVecGenCtl_busy = false ∧ t.mem = s.mem ∧ t.cores = s.cores) ∧
    ((∀ j < 1024, j / 64 = d → (coreAt s j).snaps.get? (n % 2) = some n) → ∃ t, exec (.snapshotWriteComplete d) s = .next t ∧
      flag t (snapValid d n).1 (snapValid d n).2 = true ∧ t.mem = s.mem ∧ ∀ l < 256, genOf t k l = genOf s k l) ∧
    ((coreAt s k).snaps.get? 0 = none → (coreAt s k).snaps.get? 1 = none → exec (.snapshotWriteComplete d) s = .next s))

/-- R197, R210, R211, R183, R224 for opening; R205 and R204 for Writing; R212, R215, R216, R220 for votes. -/
def Obligations.LapsOpenAndVote : Prop :=
  (∀ (s : State) (h : Hdr) (lap : Nat), Starts s h 0x40 → unwatched s → lap < 2 ^ 32 →
    let lacks : Prop := (∀ r < 64, ¬(regionValid s r = true ∧ regionKind s r = 5)) ∨ getF s .lapRecordBase F.lapRecordBase_base = 0 ∨
      getF s .lapClipBase F.lapClipBase_base = 0 ∨ tableBase s = 0 ∨
      ∃ d < 16, flag s (.cmpVecSnap d) F.cmpVecSnap_enable = true ∧ ∀ r < 64, ¬(regionValid s r = true ∧ regionKind s r = 4 ∧ ownerOf s (regionBase s r 0) = some d)
    (lap ≠ getF s .lapNext F.lapNext_next → ∃ t, exec (.lapOpen h lap) s = .next t ∧ finishes s t h 0x40 1 0x0607 [] ∧ recorded s t 0x0607 ∧ t.lap = s.lap) ∧
    (lap = getF s .lapNext F.lapNext_next → lacks → ∃ t, exec (.lapOpen h lap) s = .next t ∧ finishes s t h 0x40 1 0x0609 [] ∧ recorded s t 0x0609 ∧ t.lap = s.lap) ∧
    (lap = getF s .lapNext F.lapNext_next → ¬lacks → ∃ t, exec (.lapOpen h lap) s = .next t ∧ getF t .lapNext F.lapNext_next = lapPlus lap 1 ∧
      t.host.entries = s.host.entries ∧ t.mem = s.mem ∧ openLaps t = openLaps s ∧ t.lap.opens.dropLast = s.lap.opens ∧
      t.lap.opens.getLast?.any (fun r => r.desc == s.nextId && r.lap == lap && r.wipes == s.lap.wipes) = true)) ∧
  (∀ (s : State) (r : OpenReq) (rest : List OpenReq), s.lap.opens = r :: rest → r.lap < 2 ^ 32 → s.memp.faults = [] →
    let clip (i : Nat) := getF s .lapClipBase F.lapClipBase_base * 65536 + r.lap % 2 * 0x2_0000 + i * 32
    let area := getF s .lapClipBase F.lapClipBase_base * 65536
    let recBase := getF s .lapRecordBase F.lapRecordBase_base * 64
    (s.lap.spec.isSome = true ∨ s.relays.installs ≠ [] → exec .lapOpenProceed s = .next s) ∧
    (s.lap.spec = none → s.relays.installs = [] → r.wipes ≠ s.lap.wipes → ∀ d ∈ (descOf s r.desc).toList,
      ∃ t, exec .lapOpenProceed s = .next t ∧ openLaps t = openLaps s ∧ t.lap.opens = rest ∧ t.host.entries = s.host.entries ++ [⟨d, 1, 0x0607, []⟩] ∧ t.mem = s.mem) ∧
    (s.lap.spec = none → s.relays.installs = [] → r.wipes = s.lap.wipes → ∃ t, exec .lapOpenProceed s = .next t ∧
      t.lap.opens = rest ∧ t.lap.newest = r.lap ∧ t.lap.state = s.lap.state ∧ openLaps t = openLaps s ++ [⟨r.lap, 0, none, 0, layoutNow s, false, tableBase s, none⟩] ∧ showsRecord s t ∧
      (∀ d ∈ (descOf s r.desc).toList, t.host.entries = s.host.entries ++ [⟨d, 0, 0, []⟩]) ∧
      t.census.bankLap.get? (r.lap % 2) = some r.lap ∧ t.census.slots = s.census.slots ∧
      (∀ slot < 4096, ∀ d < 20, ∀ bin < 72, t.census.bins.get (binKey d slot (r.lap % 2) bin) 0 = 0 ∧
        t.census.bins.get (binKey d slot (1 - r.lap % 2) bin) 0 = s.census.bins.get (binKey d slot (1 - r.lap % 2) bin) 0) ∧
      (∀ k < 1024, (coreAt t k).boundary = (coreAt s k).boundary ++ [.snapshot r.lap]) ∧
      (Apart area 0x4_0000 recBase 64 → Apart area 0x4_0000 (tableBase s) 0x1_0000 → ∀ i < 4096, rdN t (clip i) 4 = rdN s (clip i) 4 ∧ rdN t (clip i + 4) 4 = r.lap ∧
        ∀ j < 24, Mem.get t.mem (clip i + 8 + j) = 0) ∧
      (∀ a ∈ (scaleDry s).toList, Apart area 0x4_0000 (tableBase s) 0x1_0000 → Apart recBase 64 (tableBase s) 0x1_0000 → (∀ p ∈ s.census.slots, p.1 < 4096) →
        tableBase s ≠ 0 → rdN s (tableOf s r.lap + 0x4000) 4 ≠ r.lap → holdsTable s t a r.lap))) ∧
  (∀ (s : State) (o : OpenLap), s.lap.older = some o → s.lap.state = 0 → s.memp.faults = [] → sendsState s ((o.lap + 2 ^ 32 - 2) % 2 ^ 32) = false →
    let recBase := getF s .lapRecordBase F.lapRecordBase_base * 64
    let carried (r : Nat) : Bool := regionValid s r && ((swaps (regionKind s r) && flag s (.lapRegionCfg r) F.lapRegionCfg_carry) || regionKind s r == 5)
    let wet (r : Nat) := regionBase s r (1 - dryCopy s r)
    let dry (r : Nat) := regionBase s r (dryCopy s r)
    (o.cast = none → ∃ t, exec .lapBecomesWriting s = .next t ∧ t.lap = { s.lap with state := 1, ready := o.lap } ∧ isSealed t = false ∧ showsRecord s t ∧
      (∀ r < 64, carried r = true → Apart (wet r) (regionLen s r) recBase 64 → Apart (wet r) (regionLen s r) (dry r) (regionLen s r) →
        (∀ q < 64, carried q = true → q ≠ r → Apart (wet q) (regionLen s q) (wet r) (regionLen s r) ∧ Apart (wet q) (regionLen s q) (dry r) (regionLen s r)) →
        Mem.read t.mem (wet r) (regionLen s r) = Mem.read s.mem (dry r) (regionLen s r)) ∧
      ∀ b, Apart b 1 recBase 64 → (∀ r < 64, carried r = true → Apart b 1 (wet r) (regionLen s r)) → Mem.get t.mem b = Mem.get s.mem b) ∧
    (o.cast.isSome = true → CanCommit s → ∃ t, exec .lapBecomesWriting s = .next t ∧ t.lap.state = 2 ∧ t.lap.exchange.any (fun x => !x.vote) = true ∧ isSealed t = false)) ∧
  (∀ (s : State) (h : Hdr) (lap : Nat) (vote : Bool), Starts s h 0x41 → unwatched s → lap < 2 ^ 32 →
    (isOpen s lap = true → ∃ t, exec (.lapVote h lap vote) s = .next t ∧ t.lap = { s.lap with votes := s.lap.votes ++ [⟨s.nextId, lap, vote, false⟩] } ∧
      t.host.entries = s.host.entries ∧ t.mem = s.mem) ∧
    (isOpen s lap = false → ∀ outcome ∈ (s.lap.history.get? lap).toList, ∃ t, exec (.lapVote h lap vote) s = .next t ∧ t.lap = s.lap ∧
      finishes s t h 0x41 0 0 (bytesLE 1 outcome ++ [0, 0, 0] ++ bytesLE 4 lap)) ∧
    (isOpen s lap = false → s.lap.history.get? lap = none → ∃ t, exec (.lapVote h lap vote) s = .next t ∧ t.lap = s.lap ∧ finishes s t h 0x41 1 0x0605 [] ∧ recorded s t 0x0605)) ∧
  (∀ (s : State) (o : OpenLap) (v : VoteReq), s.lap.older = some o → s.lap.votes.find? (fun v => v.lap == o.lap && !v.abort) = some v →
    (s.lap.state ≠ 1 ∨ o.cast.isSome = true ∨ reportsPending s o.lap = true ∨ relaysPending s o.lap = true → exec .voteCast s = .next s) ∧
    (s.lap.state = 1 → o.cast = none → reportsPending s o.lap = false → relaysPending s o.lap = false → CanCommit s → s.lap.spec.all (fun p => p.lap != o.lap) = true →
      (v.vote = true → ∃ t, exec .voteCast s = .next t ∧ voted s t o.lap (o.flags == 0) o.flags) ∧
      (v.vote = false → ∃ t, exec .voteCast s = .next t ∧ voted s t o.lap false (o.flags ||| 32)))) ∧
  (∀ (s : State) (h : Hdr) (lap : Nat) (o : OpenLap), Starts s h 0x42 → unwatched s → lap < 2 ^ 32 →
    ((openLaps s).find? (·.lap == lap) = none → ∃ t, exec (.lapAbort h lap) s = .next t ∧ finishes s t h 0x42 1 0x0605 [] ∧ recorded s t 0x0605 ∧ t.lap = s.lap) ∧
    ((openLaps s).find? (·.lap == lap) = some o → o.cast.isSome = true → ∃ t, exec (.lapAbort h lap) s = .next t ∧ finishes s t h 0x42 1 0x0606 [] ∧
      recorded s t 0x0606 ∧ t.lap = s.lap) ∧
    (s.lap.older = some o → o.lap = lap → o.cast = none → s.lap.state = 1 → CanCommit s → s.lap.spec.all (fun p => p.lap != lap) = true → ∃ t, exec (.lapAbort h lap) s = .next t ∧
      voted s t lap false (o.flags ||| 32) ∧ t.host.entries = s.host.entries ∧ t.lap.votes = s.lap.votes ++ [⟨s.nextId, lap, false, true⟩]) ∧
    (s.lap.spec = some o → o.lap = lap → o.cast = none → s.lap.older.all (fun p => p.lap != lap) = true → ∃ t, exec (.lapAbort h lap) s = .next t ∧ t.lap.state = s.lap.state ∧
      t.lap.older = s.lap.older ∧ t.lap.spec.any (fun p => p.cast == some false && p.flags == o.flags ||| 32 && p.lap == lap) = true ∧ t.host.entries = s.host.entries))

/-- R181, R182, R217 to R219; `exchangeOfWords` is what the commit relay's result says. -/
def Obligations.LapsSettle : Prop :=
  ∀ (s : State) (o : OpenLap) (r : RelayRun), runAt s 0 63 = some r → r.post.ext.commits = true → r.own.isSome = true → r.error = 0 → allLanded s r = true →
    r.outs.all (fun p => r.sent.contains p.1 && r.done.contains p.2.peer) = true → s.lap.older = some o → o.lap = r.post.ext.lap → o.lap < 2 ^ 32 → o.flags < 256 → unwatched s → s.memp.faults = [] →
    s.lap.spec.all (fun p => p.lap != o.lap) = true → s.lap.pendTable = none → (∀ p ∈ s.census.slots, p.1 < 4096) →
    let n := o.lap
    let x := exchangeOfWords s r.result
    let clear (a : Nat) : Prop := Apart a 0x2_1000 (tableBase s) 0x1_0000 ∧ Apart a 0x2_1000 (getF s .lapRecordBase F.lapRecordBase_base * 64) 64 ∧
      Apart (tableBase s) 0x1_0000 (getF s .lapRecordBase F.lapRecordBase_base * 64) 64
    let b (u : State) (a k : Nat) := rdN u (a + 0x2_0000 + k * 32) 1
    let clean (u : State) (a k : Nat) := rdN u (a + 0x2_0000 + k * 32 + 4) 4
    (x.vote = true → ∃ t, exec (.relayComplete 0 63) s = .next t ∧ settles s t n 1 ∧ t.lap.older = s.lap.spec ∧
      (∀ q < 64, dryCopy t q = if regionValid s q && swaps (regionKind s q) then 1 - dryCopy s q else dryCopy s q) ∧
      getF t .lapCount F.lapCount_dried = (getF s .lapCount F.lapCount_dried + 1) % 2 ^ F.lapCount_dried.width ∧
      getF t .lapNext F.lapNext_next = getF s .lapNext F.lapNext_next ∧ t.cores = s.cores ∧
      (∀ a ∈ (scaleWet s).toList, clear a →
        (∀ p ∈ x.tops, (slotDef s p.1).isSome = true → (history t a p.1).head? = some p.2) ∧
        (∀ slot < 4096, (∀ p ∈ x.tops, p.1 ≠ slot) → history t a slot = history s a slot) ∧
        (∀ k < 8, (let lim := if 1 ≤ k ∧ k ≤ 3 then getF s (.lapScalePolicy k) F.lapScalePolicy_clean_laps else 0
          let m := (clean s a k + 1) % 2 ^ 32
          if lim ≠ 0 ∧ lim ≤ m then clean t a k = 0 ∧ b t a k = min (b s a k) (max (getF s (.lapScalePolicy k) F.lapScalePolicy_b_min)
            (b s a k - getF s (.lapScalePolicy k) F.lapScalePolicy_up_log2)) else clean t a k = m ∧ b t a k = b s a k)) ∧
        scaleDry t = some a ∧ (tableBase s ≠ 0 → holdsTable t t a (lapPlus n 2)))) ∧
    (x.vote = false → ∃ t, exec (.relayComplete 0 63) s = .next t ∧ settles s t n 2 ∧ t.lap.older = none ∧ isSealed t = true ∧ t.lap.wipes = s.lap.wipes + 1 ∧
      (∀ q < 64, dryCopy t q = dryCopy s q) ∧ getF t .lapNext F.lapNext_next = lapPlus n 1 ∧ recorded s t 0x060A ∧
      getF t .lapCount F.lapCount_skipped = (getF s .lapCount F.lapCount_skipped + 1) % 2 ^ F.lapCount_skipped.width ∧
      getF t .lapLastWipe F.lapLastWipe_lap = n ∧ getF t .lapLastWipe F.lapLastWipe_job_mask = x.mask ∧ getF t .lapLastWipe F.lapLastWipe_flags = o.flags ∧
      (s.lap.spec.isSome = true → recorded s t 0x060B) ∧ (s.lap.spec = none → getF t .lapCountDiscard F.lapCountDiscard_discarded = getF s .lapCountDiscard F.lapCountDiscard_discarded) ∧
      (∀ k < 1024, (coreAt t k).boundary = (coreAt s k).boundary ++ [.restore n]) ∧
      (∀ a ∈ (scaleDry s).toList, clear a →
        (∀ k < 8, clean t a k = 0 ∧ b t a k = if 1 ≤ k ∧ k ≤ 3 ∧ x.mask.testBit k = true then min 31 (b s a k + getF s (.lapScalePolicy k) F.lapScalePolicy_down_log2) else b s a k) ∧
        (∀ slot < 4096, history t a slot = history s a slot) ∧
        (tableBase s ≠ 0 → holdsTable t t a (lapPlus n 1) ∧ holdsTable t t a (lapPlus n 2))))

/-! ### Relays -/

/-- R95, R90, R230, R231, R235 and R408 for posts, R229, R234, R253 for starts, R254 for layouts. -/
def Obligations.RelaysPosted : Prop :=
  (∀ (s : State) (w g a ed rd : Nat), a < 16 → ed < 4 → rd < 64 → Clear s w g [.a a, .s rd] →
    let p := (aReg s w a).toNat
    let x := readExt (Mem.read s.mem p 64)
    earlierTo s w p 64 = [] → waitingPosts s ed < 1024 → holdOwn w (fun _ => [(p, 64)]) s = none → permits s none .r p 64 = true → memoryRefuses s (dieOfRunner w) [(p, 64)] [] = none →
    s.memp.faults = [] → postPermitted s none x = true →
    ∃ t, exec (.rpost w g a ed rd) s = .next t ∧ (runnerAt t w).pc = (runnerAt s w).pc + 1 ∧ t.mem = s.mem ∧
      (engineAt t ed).posts.dropLast = (engineAt s ed).posts ∧ (engineAt t ed).slots = (engineAt s ed).slots ∧
      (engineAt t ed).posts.getLast?.any (fun q => q.ext == x && q.poster == .runner w (runnerAt s w).pc && q.id == s.nextId && q.bound == boundLayout s x) = true ∧
      (∀ e, e ≠ ed → engineAt t e = engineAt s e) ∧ (runnerAt t w).batons.dropLast = (runnerAt s w).batons ∧
      (runnerAt t w).batons.getLast?.any (fun b => b.relay == s.nextId && b.status == none && b.value != 0 && !(runnerAt s w).batons.any (fun c => c.value == b.value) &&
        (rd == 0 || (sReg t w rd).toNat == b.value)) = true) ∧
  (∀ (s : State) (h : Hdr) (ext ed : Nat), ed < 4 →
    let x := readExt (Mem.read s.mem ext 64)
    let posts (op : Nat) (c : Instr) (allowed : Prop) : Prop := (Starts s h op →
      (1024 ≤ waitingPosts s ed → exec c s = .next s) ∧
      (waitingPosts s ed < 1024 → permits s (some h.q) .r ext 64 = false → ∃ t, exec c s = .next t ∧ (queueAt t h.q).state = .frozen ∧
        (queueAt t h.q).freezeCode = 0x0A11 ∧ finishes s t h op 4 0x0A11 (bytesLE 8 (statusWord 2 0x0A11 0)) ∧ t.relays = s.relays) ∧
      (waitingPosts s ed < 1024 → permits s (some h.q) .r ext 64 = true → memoryRefuses s 16 [(ext, 64)] [] = none → s.memp.faults = [] →
        (¬allowed → unwatched s → ∃ t, exec c s = .next t ∧ finishes s t h op 1 0x0502 (bytesLE 8 (statusWord 2 0x0502 x.lap)) ∧ recorded s t 0x0502 ∧ t.relays = s.relays) ∧
        (allowed → postPermitted s (some h.q) x = false → ∃ t, exec c s = .next t ∧ (queueAt t h.q).state = .frozen ∧
          finishes s t h op 4 0x0A11 (bytesLE 8 (statusWord 2 0x0A11 x.lap)) ∧ t.relays = s.relays) ∧
        (allowed → postPermitted s (some h.q) x = true → ∃ t, exec c s = .next t ∧ t.host.entries = s.host.entries ∧ t.mem = s.mem ∧
          (engineAt t ed).posts.dropLast = (engineAt s ed).posts ∧ (∀ e, e ≠ ed → engineAt t e = engineAt s e) ∧
          (engineAt t ed).posts.getLast?.any (fun q => q.ext == x && q.poster == .queue s.nextId && q.bound == boundLayout s x) = true)))
    posts 0x30 (.relay h ext ed) (x.kind < 6) ∧ posts 0x50 (.mirror h ext ed) (x.kind = 6 ∧ x.op < 3) ∧ posts 0x51 (.restore h ext ed) (x.kind = 6 ∧ x.op = 3)) ∧
  (∀ (s : State) (e slot : Nat) (p : Post) (rest : List Post) (d : Desc), e < 4 → inReset s (16 + e) = false → (engineAt s e).posts = p :: rest →
    slot < (if e = 0 then 63 else 64) → runAt s e slot = none → (∀ n < slot, (runAt s e n).isSome = true) → p.poster = .queue d.id → descOf s d.id = some d →
    memoryRefuses s (16 + e) [(p.ext.group, 8 * p.ext.pmod)] [] = none → s.memp.faults = [] → (∀ q ∈ s.runners, q.2.state ≠ .waiting) →
    let g := readGroup (Mem.read s.mem p.ext.group (p.ext.pmod * 8)) p.ext.pmod
    let bad := extBad s p.ext g false = true
    let twice := (allRuns s).any (fun q => q.2.2.post.ext.tag == p.ext.tag && q.2.2.post.ext.lap == p.ext.lap) = true
    let late := p.ext.layout ≠ p.bound
    let busy' := p.ext.kind = 6 ∧ p.ext.op = 3 ∧ s.lap.state ≠ 0
    let fails (code : Nat) : Prop := (∃ t, exec (.relayStart e) s = .next t ∧ (engineAt t e).posts = rest ∧ (engineAt t e).slots = (engineAt s e).slots ∧
      t.host.entries = s.host.entries ++ [⟨d, 1, code, bytesLE 8 (statusWord 2 code p.ext.lap)⟩] ∧ recorded s t code ∧ t.mem = s.mem)
    (bad → unwatched s → fails 0x0502) ∧ (¬bad → twice → unwatched s → fails 0x050D) ∧ (¬bad → ¬twice → late → unwatched s → fails 0x0505) ∧
    (¬bad → ¬twice → ¬late → busy' → unwatched s → fails 0x050C) ∧
    (¬bad → ¬twice → ¬late → ¬busy' → p.ext.init = false → (engineAt s e).held = [] → (∀ m ∈ g, m.coord ≠ coordOf s → (reachOf s e m.coord).isSome = true) →
      ∃ t, exec (.relayStart e) s = .next t ∧ (engineAt t e).posts = rest ∧ t.host.entries = s.host.entries ∧ t.mem = s.mem ∧
        (runAt t e slot).any (fun r => r.post == p && r.group == g && r.me == ownIndex s g && r.s == scaleOf s p.ext && r.started == nowNs s && r.error == 0 &&
          r.timeout == (if p.ext.timeout = 0 then getF s (.colTimeout e) F.colTimeout_ms else p.ext.timeout) * 10 ^ 6) = true ∧
        ∀ n, n ≠ slot → runAt t e n = runAt s e n)) ∧
  (∀ (s : State) (h : Hdr) (id : Nat), Starts s h 0x31 → id < 65536 →
    (id = layoutNow s → s.relays.installs = [] → ∃ t, exec (.layoutInstall h id) s = .next t ∧ finishes s t h 0x31 0 0 [] ∧ t.relays = s.relays ∧ layoutNow t = id) ∧
    (id ≠ layoutNow s ∨ s.relays.installs ≠ [] → ∃ t, exec (.layoutInstall h id) s = .next t ∧ t.relays.installs = s.relays.installs ++ [(s.nextId, id)] ∧
      t.host.entries = s.host.entries ∧ layoutNow t = layoutNow s ∧ (s.relays.installs = [] → getF t .colLayout F.colLayout_pending = id ∧ flag t .colLayout F.colLayout_busy = true))) ∧
  (∀ (s : State) (d : Desc) (id : Nat) (rest : List (Nat × Nat)), s.relays.installs = (d.id, id) :: rest → descOf s d.id = some d → id < 65536 → id ≠ layoutNow s →
    let bound := (openLaps s).any (·.layout == layoutNow s) || (allRuns s).any (·.2.2.post.bound == layoutNow s) ||
      (List.range 4).any (fun e => (engineAt s e).posts.any (·.bound == layoutNow s))
    (bound = true → exec .layoutInstallComplete s = .next s) ∧
    (bound = false → ∃ t, exec .layoutInstallComplete s = .next t ∧ layoutNow t = id ∧ t.relays.installs = rest ∧ t.relays.engines = s.relays.engines ∧
      t.host.entries = s.host.entries ++ [⟨d, 0, 0, []⟩] ∧ (rest = [] → flag t .colLayout F.colLayout_busy = false)))

/-- R237 for sending, R240, R244, R245, R248 and R249 for landing, R235 and R236 for the end, R250 and R251. -/
def Obligations.RelaysRun : Prop :=
  (∀ (s : State) (e slot part i : Nat) (r : RelayRun) (x : Xfer), runAt s e slot = some r → r.own.isSome = true → nextOut s r part = some (i, x) →
    (reachOf s e (r.coordAt part)).isSome = true → ∃ t, exec (.relaySend e slot part) s = .next t ∧ runAt t e slot = some { r with sent := i :: r.sent } ∧
      t.mem = s.mem ∧ t.lap = s.lap ∧ t.host = s.host ∧
      ∀ q ∈ (reachOf s e (r.coordAt part)).toList, (chanAt t e q.chan).queue.map (·.cargo) =
        (chanAt s e q.chan).queue.map (·.cargo) ++ (packetsFor s e r x).map Cargo.relay) ∧
  (∀ (s : State) (e slot i : Nat) (r : RelayRun) (p : RelayPkt), runAt s e slot = some r →
    let x := r.post.ext
    let ws := p.words.map (·.toNat)
    let n := x.words
    let a (j : Nat) := x.dst + 4 * j
    x.topo = 0 → (x.kind = 2 ∧ x.op < 4) ∨ (x.kind = 5 ∧ x.op = 0) → x.lapless = true → x.thin = false → r.own.isSome = true → p.type = 0 → r.arrived = [p] →
    r.xfers.filter (fun q => q.2.peer == p.sender && !q.2.out) = [(i, ⟨false, p.sender, 0, 0, n⟩)] → r.got.get i 0 = 0 → p.first = 0 →
    p.words.length = (n + 59) / 60 * 60 → (ws.drop n).all (· == 0) = true → 0 < n →
    (let zone := (x.dst, 4 * n) :: (if x.sums then [(x.resid, 2 * ((n + 59) / 60))] else [])
     memoryRefuses s (16 + e) zone zone = none ∧ ∀ q ∈ zone, copiesAt s q.1 q.2 = []) →
    s.memp.faults = [] → (∀ d < 16, flag s (.memDieInjectCtl d) F.memDieInjectCtl_arm = false) →
    (x.sums = true → p.scale = r.s → p.crc = r.crc → Apart x.dst (4 * n) x.resid (2 * ((n + 59) / 60)) → ∃ t, exec (.contributionLanded e slot) s = .next t ∧
      (∀ j < n, rdN t (a j) 4 = wrap 32 (max (-(2 ^ 31 - 1)) (min (2 ^ 31 - 1) (tallyOf (rdN s (a j) 4) + tallyOf (ws.getD j 0))))) ∧
      (∀ b < (n + 59) / 60, rdN t (x.resid + 2 * b) 2 = residueOf ((List.range (min 60 (n - 60 * b))).map (fun k => rdN t (a (60 * b + k)) 4))) ∧
      ∀ c, Apart c 1 x.dst (4 * n) → Apart c 1 x.resid (2 * ((n + 59) / 60)) → Mem.get t.mem c = Mem.get s.mem c) ∧
    (x.sums = true → p.scale ≠ r.s ∨ p.crc ≠ r.crc → ∃ t, exec (.contributionLanded e slot) s = .next t ∧ t.mem = s.mem ∧
      (runAt t e slot).any (fun q => q.error == if r.error ≠ 0 then r.error else if p.scale ≠ r.s then 0x0508 else 0x050E) = true) ∧
    (x.sums = false → ∃ t, exec (.contributionLanded e slot) s = .next t ∧
      (∀ j < n, rdN t (a j) 4 = if r.landed.contains (j / 60) then
          (let u := rdN s (a j) 4
           let v := ws.getD j 0
           if x.kind = 5 then u &&& v else if x.op = 1 then (if sint 32 u < sint 32 v then v else u) else if x.op = 2 then (if sint 32 v < sint 32 u then v else u) else u ||| v)
        else ws.getD j 0) ∧
      ∀ c, Apart c 1 x.dst (4 * n) → Mem.get t.mem c = Mem.get s.mem c)) ∧
  (∀ (s : State) (e slot w pc : Nat) (r : RelayRun) (d : Desc), runAt s e slot = some r → r.post.ext.inEngine = false → descOf s d.id = some d →
    let whole : Prop := allLanded s r = true ∧ (r.error ≠ 0 ∨ ∀ p ∈ r.outs, r.sent.contains p.1 = true ∧ r.done.contains p.2.peer = true)
    let outcome := if r.saturated then 1 else 0
    (¬whole → exec (.relayComplete e slot) s = .next s) ∧
    (whole → r.error ≠ 0 → r.post.poster = .queue d.id → ∃ t, exec (.relayComplete e slot) s = .next t ∧ runAt t e slot = none ∧
      t.host.entries = s.host.entries ++ [⟨d, 1, r.error, bytesLE 8 (statusWord 2 r.error r.statusLap)⟩] ∧ t.mem = s.mem) ∧
    let clean : Prop := memoryRefuses s (16 + e) (completionRanges s r).1 (completionRanges s r).2 = none ∧ s.memp.faults = []
    (whole → r.error = 0 → clean → r.post.poster = .queue d.id → ∃ t, exec (.relayComplete e slot) s = .next t ∧ runAt t e slot = none ∧
      t.host.entries = s.host.entries ++ [⟨d, 0, 0, bytesLE 8 (statusWord outcome 0 r.statusLap)⟩]) ∧
    (whole → r.error = 0 → clean → r.post.poster = .runner w pc → (∀ q ∈ s.runners, q.2.state ≠ .waiting) → ∃ t, exec (.relayComplete e slot) s = .next t ∧
      runAt t e slot = none ∧ (runnerAt t w).batons = (runnerAt s w).batons.map (fun b =>
        if b.relay = r.post.id then { b with status := some (statusWord outcome 0 r.statusLap) } else b))) ∧
  (∀ (s : State) (e slot : Nat) (r : RelayRun), e < 4 → runAt s e slot = some r → unwatched s →
    (r.timedOut = true ∨ r.timeout = 0 ∨ nowNs s < r.started + r.timeout → exec (.relayTimeout e slot) s = .next s) ∧
    (r.timedOut = false → r.timeout ≠ 0 → r.started + r.timeout ≤ nowNs s → r.post.ext.tag < 2 ^ 32 → ∃ t, exec (.relayTimeout e slot) s = .next t ∧ recorded s t 0x0503 ∧
      runAt t e slot = some { r with timedOut := true } ∧ t.mem = s.mem ∧ t.host = s.host ∧ getF t (.colMissing e) F.colMissing_tag = r.post.ext.tag ∧
      getF t (.colMissing e) F.colMissing_count = (awaited s r).length % 2 ^ 13 ∧
      getF t (.errCount (countIndex 0x0504)) F.errCount_count =
        min (getF s (.errCount (countIndex 0x0504)) F.errCount_count + min 64 (awaited s r).length) (2 ^ F.errCount_count.width - 1) ∧
      exec (.relayTimeout e slot) t = .next t)) ∧
  (∀ (s : State) (e slot : Nat) (val : BitVec 32) (r : RelayRun) (d : Desc), e < 4 → dieAnswers s (16 + e) →
    let named (y : Ext) : Bool := y.tag == getF s (.colCancelTag e) F.colCancelTag_tag && y.lap == getF s (.colCancelTag e) F.colCancelTag_lap
    (val.getLsbD 0 = false → exec (.relayCancel e val) s = .next s) ∧
    (val.getLsbD 0 = true → (∀ q ∈ (engineAt s e).slots, named q.2.post.ext = false) → (∀ q ∈ (engineAt s e).posts, named q.ext = false) →
      ∃ t, exec (.relayCancel e val) s = .next t ∧ getF t (.colCancelCtl e) F.colCancelCtl_status = 2 ∧ t.relays = s.relays ∧ t.mem = s.mem) ∧
    (val.getLsbD 0 = true → unwatched s → (engineAt s e).slots.find? (fun q => named q.2.post.ext) = some (slot, r) → runAt s e slot = some r → r.post.ext.commits = false →
      r.post.poster = .queue d.id → descOf s d.id = some d → ∃ t, exec (.relayCancel e val) s = .next t ∧ getF t (.colCancelCtl e) F.colCancelCtl_status = 1 ∧
        runAt t e slot = none ∧ recorded s t 0x0509 ∧ t.mem = s.mem ∧ t.host.entries = s.host.entries ++ [⟨d, 5, 0x0509, bytesLE 8 (statusWord 3 0x0509 r.statusLap)⟩]))

/-! ### The heat scheduler and memory protection -/

/-- R269 to R273 and R277 for entries, R285 for the registers, R278 for far queues. -/
def Obligations.HeatScheduler : Prop :=
  (∀ (s : State) (d n w : Nat) (e : HeatEntry), inReset s d = false → s.memp.faults = [] →
    (∀ p ∈ s.heat.entries, outQueue s d p.2.stage p.2.back = 0 ∨ badHeader s (outQueue s d p.2.stage p.2.back) = false) → longestWaiter s d = some w →
    ((∀ p ∈ s.heat.entries, entryReady s d p.2 = false) → exec (.heatAssign d) s = .next s) ∧
    ((n, e) ∈ s.heat.entries → entryReady s d e = true → (∀ p ∈ s.heat.entries, p ≠ (n, e) → entryReady s d p.2 = true →
        (p.2.back = e.back ∧ e.order < p.2.order) ∨ (e.back = true ∧ p.2.back = false)) →
      ∃ t, exec (.heatAssign d) s = .next t ∧ (runnerAt t w).given = some (n + e.stage * 2 ^ 8 + e.back.toNat * 2 ^ 16 + e.heat * 2 ^ 32 + e.seg * 2 ^ 48) ∧
        t.heat.entries.get? n = some { e with assigned := (d, w) :: e.assigned, slot := e.slot || outQueue s d e.stage e.back != 0 } ∧
        t.heat.waiters = s.heat.waiters.filter (· != w) ∧ t.mem = s.mem ∧ t.regs = s.regs ∧ (runnerAt t w).pc = (runnerAt s w).pc ∧
        ((runnerAt s w).state = .waiting → (runnerAt s w).wait = some .heatNext → (runnerAt t w).state = .ready))) ∧
  (∀ (s : State) (sd d : Nat), sd < 16 → postingDie s (sd / 2) = some d → (∀ q ∈ s.runners, q.2.state ≠ .waiting) → unwatched s →
    inReset s d = false → autoPosts s d (sd / 2) (sd % 2 == 1) = true →
    let b := inQueue s d (sd / 2) (sd % 2 == 1)
    let n := max (s.heat.next.get sd 0) (rdN s (b + 8) 8)
    let a := b + rdN s (b + 0x18) 8 + n % rdN s (b + 0x14) 4 * rdN s (b + 0x10) 4
    s.heat.bad.contains b = false → queueLost s b = false → s.memp.faults = [] →
    let posted := badHeader s b = false ∧ n < rdN s b 8 ∧ rdN s (a + 8) 4 ≤ rdN s (b + 0x10) 4 - 64
    let bad := badHeader s b = true ∨ (n < rdN s b 8 ∧ rdN s (b + 0x10) 4 - 64 < rdN s (a + 8) 4)
    (bad → ∃ t, exec (.heatAutoPost sd) s = .next t ∧ t.heat.bad = b :: s.heat.bad ∧ t.heat.entries = s.heat.entries ∧ t.heat.posts = s.heat.posts ∧ recorded s t 0x0122) ∧
    (¬bad → ¬posted → exec (.heatAutoPost sd) s = .next s) ∧
    (posted → ∃ t, exec (.heatAutoPost sd) s = .next t ∧ t.heat.next.get sd 0 = n + 1 ∧ t.mem = s.mem ∧ t.heat.bad = s.heat.bad ∧
      (∀ pool ∈ (poolFor s d sd).toList, ∀ k ∈ (freeEntry s).toList, t.heat.posts = s.heat.posts.filter (·.order != s.nextId) ∧
        t.heat.entries.get? k = some ⟨sd / 2, sd % 2 == 1, rdN s a 2, rdN s (a + 2) 2, some n, stageDies s d (sd / 2), [], [], pool, false, s.nextId⟩) ∧
      (poolFor s d sd = none → t.heat.entries = s.heat.entries ∧ t.heat.posts.dropLast = s.heat.posts ∧
        t.heat.posts.getLast?.any (fun p => p.order == s.nextId && p.stage == sd / 2 && p.back == (sd % 2 == 1) && p.heat == rdN s a 2 && p.seg == rdN s (a + 2) 2 &&
          p.index == some n && p.runner == none) = true))) ∧
  (∀ (s : State) (d stage reg : Nat) (val : BitVec 64), d < 16 → stage < 8 → reg < 5 → unwatched s → dieAnswers s d → dieAnswers s d →
    let q (j : Nat) := getF s (.cmpStageQueue d stage j) F.cmpStageQueue_base * 4096
    let f (x : Fld) := x.of val
    let good : Prop := f F.cmpStageCfg_dies ≠ 0 ∧ (∀ j < 4, q j ≠ 0 → 0x1000_0000_0000 ≤ q j ∧ q j < 0x1000_8000_0000) ∧
      (q 0 ≠ 0 → f F.cmpStageCfg_f_auto = 1 ∧ f F.cmpStageCfg_f_reserve ≠ 0) ∧ (q 2 ≠ 0 → f F.cmpStageCfg_b_auto = 1 ∧ f F.cmpStageCfg_b_reserve ≠ 0) ∧
      sumOf (((List.range 16).filter (fun sd => sd / 2 != stage)).map (reserveOf s d)) + f F.cmpStageCfg_f_reserve + f F.cmpStageCfg_b_reserve ≤ 64
    let taken : Prop := s.heat.entries = [] ∧ s.heat.posts = [] ∧ (reg = 0 → f F.cmpStageCfg_valid = 1 → good)
    (¬taken → ∃ t, exec (.stageCfgWrite d stage reg val) s = .next t ∧ recorded s t 0x0120 ∧ t.heat = s.heat ∧ t.mem = s.mem ∧
      (∀ st < 8, regVal t (.cmpStageCfg d st) = regVal s (.cmpStageCfg d st) ∧ ∀ j < 4, regVal t (.cmpStageQueue d st j) = regVal s (.cmpStageQueue d st j))) ∧
    (taken → ∃ t, exec (.stageCfgWrite d stage reg val) s = .next t ∧ t.blotter = s.blotter ∧ t.mem = s.mem ∧ t.heat.entries = [] ∧
      t.heat.next.get (stage * 2) 0 = 0 ∧ t.heat.next.get (stage * 2 + 1) 0 = 0 ∧
      (reg = 0 → ∀ x ∈ Reg.fields (.cmpStageCfg d stage), x.acc = .rw → getF t (.cmpStageCfg d stage) x = x.of val) ∧
      (reg ≠ 0 → getF t (.cmpStageQueue d stage (reg - 1)) F.cmpStageQueue_base = F.cmpStageQueue_base.of val))) ∧
  (∀ (s : State) (base : Nat), badHeader s base = false → queueLost s base = false → s.memp.faults = [] →
    let n := max (s.heat.carried.get base 0) (rdN s (base + 8) 8)
    let e := rdN s (base + 0x20) 1 / 2 % 4
    let peer := rdN s (base + 0x28) 8
    let size := rdN s (base + 0x10) 4
    let off := rdN s (base + 0x18) 8 + n % rdN s (base + 0x14) 4 * size
    let ps := farPackets s base n
    let sent (t : State) (l : List WritePkt) : Prop := ∀ r ∈ (reachOf s e (rdN s (base + 0x22) 2)).toList,
      (chanAt t e r.chan).queue = (chanAt s e r.chan).queue ++ l.map (fun p => ⟨2, r.label, jobOf s % 256, some (rdN s (base + 0x22) 2), .write p⟩)
    let reached : Prop := (reachOf s e (rdN s (base + 0x22) 2)).isSome = true
    let waits (t : State) : Prop := t.heat.carrying = s.heat.carrying ∧ t.heat.carried = s.heat.carried ∧ t.mem = s.mem ∧ t.fabric = s.fabric ∧
      t.heat.unreached.contains base = true ∧ (s.heat.unreached.contains base = false → unwatched s → recorded s t 0x0706)
    (ps.flatMap (·.data) = Mem.read s.mem (base + off) size ∧ (∀ i < ps.length, ps[i]?.any (fun p => p.dest == peer + off + farLimit s base * i && p.data.length ≤ farLimit s base &&
      p.post == (i + 1 == ps.length) && (!p.post || (p.postAddr == peer && p.postVal == 1))) = true)) ∧
    (farHalf s base 1 = true → s.heat.carrying.contains base = false → n < rdN s base 8 → ∃ t, exec (.farQueueSegmentCarry base) s = .next t ∧ (¬reached → waits t) ∧
      (reached → sent t ps.dropLast ∧ t.heat.carrying = base :: s.heat.carrying ∧ t.heat.carried = s.heat.carried ∧ t.mem = s.mem)) ∧
    (s.heat.carrying.contains base = true → ∃ t, exec (.farQueueHeadAdvance base) s = .next t ∧ (¬reached → waits t) ∧
      (reached → sent t ps.getLast?.toList ∧ t.heat.carrying.contains base = false ∧ t.heat.carried.get base 0 = n + 1 ∧ t.mem = s.mem)) ∧
    (farHalf s base 0 = true → ∃ t, exec (.farQueueTailCopy base) s = .next t ∧ (¬reached → waits t) ∧
      (reached → sent t [⟨peer + 8, Mem.read s.mem (base + 8) 8, false, 0, 0⟩] ∧ t.heat = s.heat ∧ t.mem = s.mem)))

/-- R290 for refresh and pins; R293 and R298 to R302 for the scrub, with no error in stored data before it. -/
def Obligations.MemoryProtection : Prop :=
  (∀ (s : State) (d ch bank : Nat), exec (.refresh d ch bank) s = .next s) ∧
  (∀ (s : State) (d ch pin : Nat), d < 16 → ch < 32 → pin < 24 → inReset s d = false → getF s .pwrState F.pwrState_state < 2 → unwatched s →
    (∃ t, exec (.pinCheck d ch pin true) s = .next t ∧ t = { s with memp := { s.memp with badPins := s.memp.badPins.filter (· != (d * 32 + ch) * 24 + pin) } }) ∧
    (s.memp.badPins.contains ((d * 32 + ch) * 24 + pin) = false → ∃ t, exec (.pinCheck d ch pin false) s = .next t ∧ t.mem = s.mem ∧ t.regs = s.regs ∧ t.power = s.power ∧
      t.memp.badPins = ((d * 32 + ch) * 24 + pin) :: s.memp.badPins) ∧
    (s.memp.badPins.contains ((d * 32 + ch) * 24 + pin) = true → ∃ t, exec (.pinCheck d ch pin false) s = .next t ∧ inReset t d = true ∧ recorded s t 0x040C)) ∧
  (∀ (s : State) (d u size : Nat) (mask : Nat) (passEnd : Bool), d < 16 → hiddenOf u = none → inReset s d = false → getF s .pwrState F.pwrState_state < 2 → unwatched s → s.memp.faults = [] →
    s.memp.dead = [] → s.newMaps = [] → unitOf s u = some (u, size) → dieOfUnit s u = d → mask < 2 ^ codeBits size →
    let dram := size = 32
    let f := if size = 32 then F.memDieScrub_dram_passes else F.memDieScrub_sram_passes
    let on := if size = 32 then getF s .memScrubCfg F.memScrubCfg_dram_hours ≠ 0 else getF s .memScrubCfg F.memScrubCfg_sram_minutes ≠ 0
    let listed := (s.memp.poison.get d []).contains u = true
    let passed (t : State) : Prop := getF t (.memDieScrub d) f = if passEnd then (getF s (.memDieScrub d) f + 1) % 2 ^ 32 else getF s (.memDieScrub d) f
    let at' := Upset.mk u mask
    let ce := if size = 32 then F.memDieCe_dram else F.memDieCe_sram
    (¬on → exec (.patrolScrubRead d at' passEnd) s = .next s) ∧
    (on → mask = 0 ∨ (dram ∧ listed) → ∃ t, exec (.patrolScrubRead d at' passEnd) s = .next t ∧ passed t ∧ t.mem = s.mem ∧ t.memp = s.memp ∧ t.blotter = s.blotter) ∧
    (on → ¬(dram ∧ listed) → (∃ fix, fix ≠ 0 ∧ decodeUnit s size mask = .taken fix 0) → ∃ t, exec (.patrolScrubRead d at' passEnd) s = .next t ∧ passed t ∧ t.mem = s.mem ∧ t.memp.faults = [] ∧
      t.power = s.power ∧ getF t (.memDieCe d) ce = min (getF s (.memDieCe d) ce + 1) (2 ^ 32 - 1)) ∧
    (on → ¬listed → dram → decodeUnit s size mask = .uncorrectable → (s.memp.poison.get d []).length < 256 → ∃ t, exec (.patrolScrubRead d at' passEnd) s = .next t ∧
      inReset t d = true ∧ recorded s t 0x0403 ∧ (t.memp.poison.get d []).contains u = true ∧ getF t (.memDieLastUe d) F.memDieLastUe_addr = u))

/-! ### The optical fabric -/

/-- R332 for states, R333 for negotiation, R334 to R336 for identity, R340 for messages. That the false start of a swap's first fibre waits for the second's observation, and is taken back where it was recorded, is the model's reading (log entry 24); that a C3 buffer is free is given (118). -/
def Obligations.LinkBringUp : Prop :=
  (∀ (s : State) (l nib : Nat), linkLive s l = true → (linkAt s l).owed = false → unwatched s →
    let k := linkAt s l
    let dark (c : Instr) (fails : Nat) : Prop := (∃ t, exec c s = .next t ∧ (linkAt t l).state = .dark ∧ (linkAt t l).fails = fails ∧ (linkAt t l).txActive = 0 ∧
      (linkAt t l).rxActive = 0 ∧ (linkAt t l).delin = 0 ∧ (linkAt t l).round = 0 ∧ (linkAt t l).nego = none ∧ (linkAt t l).peer = k.peer ∧ (∀ m, m ≠ l → linkAt t m = linkAt s m) ∧
      t.mem = s.mem ∧ t.light = s.light ∧ (k.state = .up → recorded s t 0x0701) ∧ (k.state ≠ .up → t.blotter = s.blotter ∧ t.regs = s.regs))
    let rising := k.state = .lock ∨ k.state = .align ∨ k.state = .negotiate
    (k.state = .dark → k.light = false ∨ k.fails = 0 → fibreLit s (fibreOf l) = true → exec (.lightDetected l) s = .next (modLink l (fun k => { k with state := .lock, light := true }) s)) ∧
    (k.state ≠ .dark → exec (.lightDetected l) s = .next (modLink l (fun k => { k with light := true }) s)) ∧
    (s.fabric.peerHeld.contains (fibreOf l) = true → exec (.linkLightLost l) s = .next s) ∧
    (s.fabric.peerHeld.contains (fibreOf l) = false → k.state ≠ .dark → dark (.linkLightLost l) (if rising then k.fails + 1 else k.fails)) ∧
    (rising → dark (.bringupTimeout l) (k.fails + 1)) ∧ (¬rising → exec (.bringupTimeout l) s = .next s) ∧
    (k.state = .dark → k.light = true → fibreLit s (fibreOf l) = true → s.fabric.held.contains (fibreOf l) = false →
      exec (.bringupRetryTimer l) s = .next (modLink l (fun k => { k with state := .lock }) s)) ∧
    (k.state ≠ .dark → (∃ p ∈ rxNibs s l, p.1 = nib) → ∃ t, exec (.nibLock l nib) s = .next t ∧
      linkAt t l = { k with state := if k.state = .lock then .align else k.state } ∧ (t.light.txLocked.get (fibreOf l) 0).testBit nib = true ∧
      (t.light.rxLocked.get (fibreOf l) 0).testBit nib = true ∧ (∀ i, i ≠ nib → (t.light.txLocked.get (fibreOf l) 0).testBit i = (s.light.txLocked.get (fibreOf l) 0).testBit i) ∧
      t.mem = s.mem ∧ t.regs = s.regs) ∧
    (k.state ≠ .dark → k.state ≠ .lock → (∃ p ∈ rxNibs s l, p.1 = nib) → ∀ stream, ((flitBoundary stream).isSome = true → ∃ t, exec (.flitDelineation l ⟨nib, stream⟩) s = .next t ∧ t.regs = s.regs ∧ t.mem = s.mem ∧
      (linkAt t l).rxActive = k.rxActive ||| 2 ^ nib ∧ (linkAt t l).delin = k.delin ||| 2 ^ nib ∧
      (linkAt t l).state = if k.state = .align then .negotiate else if k.state = .negotiate ∧ k.shortFec = true then .identify else k.state) ∧
      (flitBoundary stream = none → exec (.flitDelineation l ⟨nib, stream⟩) s = .next s)) ∧
    (k.state = .negotiate → k.round < 3 → s.fabric.held.contains (fibreOf l) = false → (k.round = 2 → k.nego.all (fun n => decide (n.round < 3)) = true) →
      ∃ t, exec (.negotiationRound l) s = .next t ∧ linkAt t l = { k with round := k.round + 1 } ∧ t.regs = s.regs ∧ t.mem = s.mem ∧
        t.out = .negotiation l ⟨if k.minor < 1 then 1 else 1 + 2 * getF s .opxConfig F.opxConfig_short_fec + 4 * getF s .opxConfig F.opxConfig_short_prefer,
          if k.minor < 2 then 6 else 7, BitVec.ofNat 72 (maskOf (((rxNibs s l).filter (fun n => k.delin.testBit n.1)).map (·.2))), 16, k.round + 1⟩ :: s.out) ∧
    (k.state = .negotiate → k.txActive ≠ 0 → k.nego.any (agreeShort s l) = true →
      exec (.fecChange l) s = .next (modLink l (fun k => { k with shortFec := true, delin := 0, rxActive := 0 }) s)) ∧
    ((k.state = .identify ∧ k.peer = none) ∨ k.state = .quarantine → s.fabric.held.contains (fibreOf l) = false →
      exec (.identitySendTimer l) s = .next (emit (.identity l ⟨s.sec.part.serial, portOf l, edOf l,
        if flag s .opxConfig F.opxConfig_coord_valid then getF s .opxConfig F.opxConfig_coord else 0xFFFF, if s.power.slotId < 18 then s.power.slotId else 31,
        getF s .opxConfig F.opxConfig_level, if flag s .opxPlanStatus F.opxPlanStatus_lane_valid then getF s .opxConfig F.opxConfig_job else 0xFFFF,
        flag s .opxConfig F.opxConfig_mode, s.fabric.cablingCrc⟩) s)) ∧
    ∀ data, k.state = .up ∨ k.state = .quarantine → exec (.managementMessage ⟨l, true⟩ data) s = .next (emit (.firmware data) s) ∧
      ∃ t, exec (.managementMessage ⟨l, false⟩ data) s = .next t ∧ t.out = s.out ∧ t.fabric = s.fabric ∧
        getF t (.opxFibreErrcnt (fibreOf l)) F.opxFibreErrcnt_c3_drop = min (getF s (.opxFibreErrcnt (fibreOf l)) F.opxFibreErrcnt_c3_drop + 1) 0xFFFF) ∧
  (∀ (s : State) (l : Nat) (n : Nego), linkLive s l = true → (linkAt s l).owed = false → (linkAt s l).state = .negotiate → (linkAt s l).round = 3 → n.round = 3 →
    let k := linkAt s l
    let heard : Prop := (∃ p ∈ txNibs s l, n.rx.getLsbD p.2 = true) ∧ k.rxActive ≠ 0
    let short := 1 ≤ k.minor ∧ n.fec.testBit 1 = true ∧ n.fec.testBit 2 = true ∧ flag s .opxConfig F.opxConfig_short_fec = true ∧ flag s .opxConfig F.opxConfig_short_prefer = true
    (heard → ∃ t, exec (.negotiation l n) s = .next t ∧ (linkAt t l).state = (if short then .negotiate else .identify) ∧ (linkAt t l).credit = min 16 n.credit ∧
      (linkAt t l).features = (if k.minor < 2 then 6 else 7) &&& n.features ∧ (linkAt t l).nego = some n ∧ (linkAt t l).rxActive = k.rxActive ∧ t.regs = s.regs ∧ t.mem = s.mem ∧
      (∀ i < 16, (linkAt t l).txActive.testBit i = true ↔ ∃ p ∈ txNibs s l, p.1 = i ∧ n.rx.getLsbD p.2 = true)) ∧
    (¬heard → ∃ t, exec (.negotiation l n) s = .next t ∧ (linkAt t l).state = .dark ∧ (linkAt t l).fails = k.fails + 1 ∧ t.regs = s.regs ∧ t.mem = s.mem)) ∧
  (∀ (s : State) (l : Nat) (i : IdBlock), linkLive s l = true → (linkAt s l).state = .identify → (∀ m, (linkAt s m).owed = false) → unwatched s →
    let k := linkAt s l
    let f := fibreOf l
    let major : Prop := i.level / 16 = getF s .opxConfig F.opxConfig_level / 16
    let known := flag s .opxConfig F.opxConfig_coord_valid = true ∧ i.coord ≠ 0xFFFF
    let shape : Prop := if f % 6 < 4 then i.port = [1, 0, 3, 2].getD (f % 6) 9 ∧ i.coord = torusPeer (getF s .opxConfig F.opxConfig_coord) (f % 6) else structural s l i = true
    let cabled : Prop := 4 ≤ f % 6 ∨ flag s .opxConfig F.opxConfig_mode = true ∨
      (∃ e, s.fabric.cabling[f / 6 * 4 + f % 6]? = some e ∧ e.cabled = true ∧ e.coord = i.coord ∧ e.port = i.port ∧ e.fibre = i.fibre)
    let ends (state : LState) (reason code : Nat) (starts : Int) : Prop := (∃ t, exec (.identityBlock l i) s = .next t ∧ (linkAt t l).state = state ∧ (linkAt t l).reason = reason ∧
      (linkAt t l).peer = some i ∧ t.mem = s.mem ∧ t.fabric.plan = s.fabric.plan ∧ t.fabric.cabling = s.fabric.cabling ∧ (code ≠ 0 → recorded s t code) ∧
      (code = 0 → t.regs = s.regs) ∧ (t.fabric.falseStarts.get f 0 : Int) = min (s.fabric.falseStarts.get f 0 + starts) 0xFFFF)
    s.fabric.falseStarts.get f 0 ≤ 0xFFFF →
    let plans := f % 6 < 4 ∧ flag s .opxConfig F.opxConfig_mode = false
    let fails (reason : Nat) : Prop := (plans → ∀ b, swapPartner s f i = some b → ends .quarantine 3 0x0708 0 ∧
        ∃ t, exec (.identityBlock l i) s = .next t ∧ (linkAt t l).swap = b ∧ (linkAt t (b * 32)).state = .quarantine ∧ (linkAt t (b * 32)).reason = 3 ∧ (linkAt t (b * 32)).swap = f) ∧
      (plans → swapPartner s f i = none → maySwap s f i = true → ends .quarantine reason 0 0 ∧ ∃ t, exec (.identityBlock l i) s = .next t ∧ (linkAt t l).owed = true) ∧
      (¬plans ∨ (swapPartner s f i = none ∧ maySwap s f i = false) → ends .quarantine reason 0x0707 1)
    (¬major → ends .quarantine 1 0x0709 0) ∧ (major → ¬known → ends .identify k.reason 0 0) ∧ (major → known → ¬shape → fails 4) ∧
    (major → known → shape → ¬cabled → fails 2) ∧
    (major → known → shape → cabled → ends .up k.reason 0 0 ∧ ∃ t, exec (.identityBlock l i) s = .next t ∧ (linkAt t l).fails = 0 ∧
      (linkAt t l).minor = min (getF s .opxConfig F.opxConfig_level % 16) (i.level % 16) ∧
      (linkAt t l).features = k.features &&& (if min (getF s .opxConfig F.opxConfig_level % 16) (i.level % 16) < 2 then 6 else 7) ∧
      (linkAt t l).shortFec = (k.shortFec && decide (1 ≤ min (getF s .opxConfig F.opxConfig_level % 16) (i.level % 16))))) ∧
  (∀ (s : State) (l : Nat) (i : IdBlock), (∀ m, (linkAt s m).owed = false) → (linkAt s l).state = .quarantine → (linkAt s l).peer = some i → exec (.identityBlock l i) s = .next s)

/-- R316 to R318 and R342 for the control field, Table 11.18 for the register, R327 and R328 for lane plans, R338 for cabling plans, R344 for coordinates. -/
def Obligations.LinkControlAndPlans : Prop :=
  (∀ (s : State) (l reason classes nib : Nat) (frozen : Bool), carriesFlits s l = true → (linkAt s l).owed = false → unwatched s →
    let k := linkAt s l
    let nib0 := ((List.range 16).find? (fun n => k.txActive.testBit n)).getD 0
    let goes (g : Link → Link) : Host.Outcome State Fault Refusal := .next (modLink l g s)
    (reason < 3 → k.frozenOut = false → ∃ t, exec (.freeze l reason) s = .next t ∧ linkAt t l = { k with frozenOut := true } ∧ recorded s t 0x0714 ∧ t.mem = s.mem) ∧
    (reason < 3 → k.frozenOut = true → exec (.freeze l reason) s = goes (fun k => { k with frozenOut := true })) ∧
    exec (.thaw l) s = goes (fun k => { k with frozenOut := false }) ∧
    (∃ t, exec (.pause l classes) s = .next t ∧ t.regs = s.regs ∧ t.mem = s.mem ∧ linkAt t l = { k with paused := (linkAt t l).paused } ∧
      ∀ j, (linkAt t l).paused.testBit j = (k.paused.testBit j || (decide (1 ≤ j ∧ j < 4) && classes.testBit j))) ∧
    (∃ t, exec (.resume l classes) s = .next t ∧ t.regs = s.regs ∧ t.mem = s.mem ∧ linkAt t l = { k with paused := (linkAt t l).paused } ∧
      ∀ j < 4, (linkAt t l).paused.testBit j = (k.paused.testBit j && !(decide (1 ≤ j) && classes.testBit j))) ∧
    (∃ t, exec (.keepalive l frozen classes) s = .next t ∧ linkAt t l = { k with frozenOut := frozen, paused := (linkAt t l).paused } ∧ t.mem = s.mem ∧
      (∀ j, (linkAt t l).paused.testBit j = (decide (1 ≤ j ∧ j < 4) && classes.testBit j)) ∧ (frozen = true → k.frozenOut = false → recorded s t 0x0714)) ∧
    ((∃ p ∈ rxNibs s l, p.1 = nib) → exec (.nibJoin l nib) s = goes (fun k => { k with rxActive := k.rxActive ||| 2 ^ nib })) ∧
    (nib < 16 → k.state = .up → k.txActive ≠ 0 → k.rxActive < 2 ^ 16 → ∃ t, exec (.nibLeave l nib) s = .next t ∧ t.mem = s.mem ∧
      (∀ j, (linkAt t l).rxActive.testBit j = (k.rxActive.testBit j && j != nib)) ∧
      ((∃ j < 16, j ≠ nib ∧ k.rxActive.testBit j = true) → linkAt t l = { k with rxActive := (linkAt t l).rxActive } ∧ t.regs = s.regs) ∧
      ((∀ j < 16, j ≠ nib → k.rxActive.testBit j = false) → (linkAt t l).state = .dark ∧ recorded s t 0x0701)) ∧
    (k.txActive ≠ 0 → s.fabric.held.contains (fibreOf l) = false → exec (.keepaliveTimer l) s =
      .next (emit (.control l nib0 10 (k.frozenIn.toNat + 2 * getF s (.opxFibreCtl (fibreOf l)) F.opxFibreCtl_pause)) s))) ∧
  (∀ (s : State) (f : Nat), f < 24 → inReset s (16 + f / 6) = false →
    (s.fabric.peerHeld.contains f = false → exec (.fibreHold f) s = .next { s with fabric := { s.fabric with peerHeld := f :: s.fabric.peerHeld } }) ∧
    exec (.fibreResume f) s = .next { s with fabric := { s.fabric with peerHeld := s.fabric.peerHeld.filter (· != f) } }) ∧
  (∀ (s : State) (f : Nat) (val : BitVec 64) (c : Instr), f < 24 → dieAnswers s (16 + f / 6) →
    c = .fibreThaw f val ∨ c = .fibreAdopt f val ∨ c = .fibreRetrain f val ∨ c = .fibreFreeze f val ∨ c = .fibrePause f val →
    let l := if f % 6 < 4 then f * 32 else f * 32 + F.opxFibreCtl_peer_slot.of val
    let k := linkAt s l
    let nib0 := ((List.range 16).find? (fun n => k.txActive.testBit n)).getD 0
    let bit (i : Nat) : Prop := val.getLsbD i = true
    let on := F.opxFibreCtl_pause.of val
    let was := getF s (.opxFibreCtl f) F.opxFibreCtl_pause
    let sends := k.txActive ≠ 0 ∧ s.fabric.held.contains f = false
    ∃ t, exec c s = .next t ∧ t.mem = s.mem ∧ getF t (.opxFibreCtl f) F.opxFibreCtl_pause = on ∧ getF t (.opxFibreCtl f) F.opxFibreCtl_peer_slot = F.opxFibreCtl_peer_slot.of val ∧
      (¬bit 0 → ¬bit 1 → ¬bit 2 → ¬bit 3 → t.fabric = s.fabric ∧ t.blotter = s.blotter ∧ (sends →
        t.out = (if was &&& (7 - on) = 0 then [] else [.control l nib0 4 (2 * (was &&& (7 - on)))]) ++ (if on &&& (7 - was) = 0 then [] else [.control l nib0 3 (2 * (on &&& (7 - was)))]) ++ s.out)) ∧
      (bit 0 → ¬bit 1 → ¬bit 2 → linkLive s l = true → flag s .hifEmergencyHalt F.hifEmergencyHalt_active = false →
        linkAt t l = { k with frozenIn := false, freezeReason := 0 } ∧ (sends → t.out.head? = some (.control l nib0 2 0))) ∧
      (bit 3 → ¬bit 0 → ¬bit 1 → ¬bit 2 → linkLive s l = true → linkAt t l = { k with frozenIn := true, freezeReason := 2 } ∧ (sends → t.out.head? = some (.control l nib0 1 2))) ∧
      (bit 2 → ¬bit 0 → ¬bit 1 → ¬bit 3 → linkLive s l = true → k.owed = false → unwatched s → (linkAt t l).state = .dark ∧ (k.state = .up → recorded s t 0x0701)) ∧
      (bit 1 → ¬bit 0 → ¬bit 2 → ¬bit 3 → f % 6 < 4 → ∀ i ∈ k.peer.toList, t.fabric.cabling[f / 6 * 4 + f % 6]? =
          (if s.fabric.cabling = [] ∨ f / 6 * 4 + f % 6 < s.fabric.cabling.length then some ⟨i.coord, i.port, i.fibre, true⟩ else none) ∧
        (k.state = .quarantine → (linkAt t l).state = .identify ∧ (linkAt t l).peer = none ∧ (linkAt t l).reason = 0) ∧ (k.state ≠ .quarantine → linkAt t l = k))) ∧
  (∀ (s : State) (h : Hdr) (addr : Nat), Starts s h 0x60 → unwatched s →
    let n := max 64 (rdN s (addr + 12) 4)
    let bs := Mem.read s.mem addr n
    n ≤ 0x40_0000 → Reaches s h.q [(addr, 64)] [] → Reaches s h.q [(addr, n)] [] →
    (planVerdict s bs ≠ 0 → ∃ t, exec (.lanePlanInstall h addr) s = .next t ∧ finishes s t h 0x60 (if planVerdict s bs = 0x07F1 then 2 else 1) (planVerdict s bs) [] ∧
      recorded s t (planVerdict s bs) ∧ t.fabric = s.fabric ∧ t.mem = s.mem) ∧
    (planVerdict s bs = 0 → ∃ t, exec (.lanePlanInstall h addr) s = .next t ∧ t.host.entries = s.host.entries ∧ t.fabric.plan = s.fabric.plan ∧
      t.fabric.installing = s.fabric.installing ++ [(s.nextId, readPlan bs)] ∧ t.mem = s.mem ∧
      (s.fabric.installing = [] → flag t .opxPlanStatus F.opxPlanStatus_busy = true ∧ ∀ x ∈ changedChans s (readPlan bs), (chanAt t x.1 x.2).stopped = true))) ∧
  (∀ (s : State) (d : Desc) (p : LanePlan), s.fabric.installing = [(d.id, p)] → descOf s d.id = some d → s.light.change.busy = false → unwatched s →
    let anew (x : Nat × Nat) : Prop := x ∈ changedChans s p ∨ (x.1 < 4 ∧ x.2 < 64 ∧ (chanAt s x.1 x.2).state = .refused)
    s.fabric.stranded = [] → (∀ x, anew x → (chanAt s x.1 x.2).queue = []) →
    (∃ t, exec (.lanePlanApply true) s = .next t ∧ t.host.entries = s.host.entries ++ [⟨d, 0, 0, []⟩] ∧ t.fabric.plan = some p ∧ t.fabric.installing = [] ∧ t.mem = s.mem ∧
      getF t .opxConfig F.opxConfig_job = p.job % 2 ^ 16 ∧ flag t .opxPlanStatus F.opxPlanStatus_lane_valid = true ∧ flag t .opxPlanStatus F.opxPlanStatus_busy = false ∧
      getF t .opxPlanStatus F.opxPlanStatus_lane_crc = p.crc % 2 ^ 32 ∧
      ∀ x, anew x → (chanAt t x.1 x.2).state = .closed ∧ (chanAt t x.1 x.2).nextSeq = 0 ∧ (chanAt t x.1 x.2).expect = 0 ∧ (chanAt t x.1 x.2).replay = []) ∧
    (∃ t, exec (.lanePlanApply false) s = .next t ∧ t.host.entries = s.host.entries ++ [⟨d, 1, 0x0705, []⟩] ∧ t.fabric.plan = s.fabric.plan ∧ t.fabric.installing = [] ∧
      t.mem = s.mem ∧ flag t .opxPlanStatus F.opxPlanStatus_busy = false ∧ recorded s t 0x0705)) ∧
  (∀ (s : State) (h : Hdr) (addr : Nat), Starts s h 0x62 → (∀ m, (linkAt s m).owed = false) → unwatched s → Reaches s h.q [(addr, 144)] [] →
    let bs := Mem.read s.mem addr 144
    let b (i : Nat) := (bs.getD i 0).toNat
    let good : Prop := bs.take 4 = [0x5A, 0x4B, 0x50, 0x43] ∧ (bs.drop 4).take 4 = [1, 0, 0, 0] ∧ field bs 8 4 = crc32c (bs.drop 16) ∧ field bs 12 4 = 0 ∧
      ∀ i < 16, b (16 + 8 * i + 1) < 18 ∧ b (16 + 8 * i + 2) < 6 ∧ b (16 + 8 * i + 3) < 4 ∧ b (16 + 8 * i + 4) < 2 ∧ b (16 + 8 * i + 5) = 0 ∧ b (16 + 8 * i + 6) = 0 ∧ b (16 + 8 * i + 7) = 0
    (¬good → ∃ t, exec (.cablingPlanInstall h addr) s = .next t ∧ finishes s t h 0x62 1 0x070E [] ∧ recorded s t 0x070E ∧ t.fabric = s.fabric ∧ t.mem = s.mem) ∧
    (good → ∃ t, exec (.cablingPlanInstall h addr) s = .next t ∧ finishes s t h 0x62 0 0 [] ∧ flag t .opxPlanStatus F.opxPlanStatus_cabling_valid = true ∧
      t.fabric.cablingCrc = field bs 8 4 ∧ t.mem = s.mem ∧ t.fabric.cabling.length = 16 ∧
      (∀ i < 16, t.fabric.cabling[i]? = some ⟨field bs (16 + 8 * i) 2, b (16 + 8 * i + 2), b (16 + 8 * i + 3), b (16 + 8 * i + 4) == 1⟩) ∧
      ∀ l, (linkAt t l).state = if linkLive s l = true ∧ (linkAt s l).state = .quarantine then .identify else (linkAt s l).state)) ∧
  (∀ (s : State) (h : Hdr) (x y slot : Nat), Starts s h 0x61 → (∀ m, (linkAt s m).owed = false) → unwatched s → x < 16 → y < 16 → s.fabric.chans.all (fun c => c.2.state != .open) = true →
    (slot ≤ 15 → flag s .opxConfig F.opxConfig_mode = false → ∃ t, exec (.coordAdopt h x y slot) s = .next t ∧ finishes s t h 0x61 0 0 [] ∧ t.mem = s.mem ∧
      getF t .opxConfig F.opxConfig_coord = x + 16 * y + 256 * slot ∧ flag t .opxConfig F.opxConfig_coord_valid = true ∧
      ∀ l, (linkAt t l).state = if linkLive s l = true ∧ ((linkAt s l).state = .up ∨ (linkAt s l).state = .quarantine) then .identify else (linkAt s l).state) ∧
    (15 < slot ∨ flag s .opxConfig F.opxConfig_mode = true → ∃ t, exec (.coordAdopt h x y slot) s = .next t ∧ finishes s t h 0x61 1 0x070D [] ∧ t.fabric = s.fabric ∧
      t.mem = s.mem ∧ recorded s t 0x070D ∧ regVal t .opxConfig = regVal s .opxConfig))

/-- R329 for opening, R319 to R321 for sending, R322 and R323 for acks and resends, R324, R330, R341 and R342 for arrival, R256 for relay packets. -/
def Obligations.ChannelsAndPackets : Prop :=
  (∀ (s : State) (e c l cls job coord phys : Nat), l ∈ upLinks s e c → chanOf s l = some c → edOf l = e → e < 4 → c < 64 → cls < 3 → unwatched s →
    s.fabric.held.contains (fibreOf l) = false → (chanAt s e c).c3 = [] →
    let ch := chanAt s e c
    let en := chanEntry s e c
    let match' : Prop := job = getF s .opxConfig F.opxConfig_job ∧ en.any (·.coord == coord) = true
    let may (p : Packet) : Prop := ch.state = .open ∧ ch.stopped = false ∧ (∀ m ∈ chanLinks s e c, (linkAt s m).frozenOut = false) ∧
      (∃ m ∈ upLinks s e c, (linkAt s m).txActive ≠ 0 ∧ s.fabric.held.contains (fibreOf m) = false ∧ (linkAt s m).paused.testBit cls = false) ∧ 0 < ch.credits.getD cls 0 ∧ flitsOf p ≤ packetLimit s e c ∧
      en.any (fun n => decide (unacked ch + flitsOf p ≤ n.replay * 256)) = true ∧ turnOf s e c cls = true
    let goes (t : State) (p : Packet) : Prop := t.out = .packet e c ch.nextSeq p 0 (sendNibs s e c) false :: s.out ∧ (chanAt t e c).nextSeq = (ch.nextSeq + flitsOf p) % 2 ^ 16 ∧
      (chanAt t e c).replay = ch.replay ++ [⟨ch.nextSeq, flitsOf p, 0, p⟩] ∧ (chanAt t e c).state = ch.state ∧
      (∀ j < 4, j ≠ cls → (chanAt t e c).credits.getD j 0 = ch.credits.getD j 0) ∧ (p.cls = cls → (chanAt t e c).credits.getD cls 0 = ch.credits.getD cls 0 - 1) ∧ t.mem = s.mem
    en.isSome = true →
    let opens (m : Nat) : C3Flit := .opening m (getF s .opxConfig F.opxConfig_job) (getF s .opxConfig F.opxConfig_coord) (if s.power.slotId < 18 then s.power.slotId else 31)
    let fresh (q : Channel) : Prop := q.nextSeq = 0 ∧ q.expect = 0 ∧ q.replay = [] ∧ q.early = [] ∧ q.credits = [0, 0, 0, 0]
    (∃ t, exec (.channelOpenTimer e c) s = .next t ∧ t.mem = s.mem ∧ (chanAt t e c).sentOpen = true ∧ (chanAt t e c).queue = ch.queue ∧
      (chanAt t e c).state = (if ch.state = .refused then .refused else if ch.state = .open ∨ ch.gotOpen = true then .open else .opening) ∧
      (ch.state ≠ .refused → ch.state ≠ .open → ch.gotOpen = true → fresh (chanAt t e c)) ∧
      ((∀ k < 3, waitingFor s e c k = []) → t.out = ((freeLinks s e c).map (fun m => (opens m).out)).reverse ++ s.out ∧ (chanAt t e c).c3 = []) ∧
      (c3Waits s e c = true → t.out = s.out ∧ (chanAt t e c).c3 = (freeLinks s e c).map opens)) ∧
    (match' → ∀ anew, ∃ t, exec (.channelOpen ⟨l, true⟩ job coord ⟨phys, anew⟩) s = .next t ∧ (chanAt t e c).gotOpen = true ∧ t.regs = s.regs ∧
      (chanAt t e c).state = (if ch.sentOpen then .open else .opening) ∧
      (ch.sentOpen = true → ch.state ≠ .open ∨ anew = true → fresh (chanAt t e c)) ∧ (ch.state = .open → anew = true → (chanAt t e c).queue = []) ∧
      (ch.state = .open → anew = false → chanAt t e c = { ch with gotOpen := true, state := (chanAt t e c).state })) ∧
    (¬match' → ∀ anew, ∃ t, exec (.channelOpen ⟨l, true⟩ job coord ⟨phys, anew⟩) s = .next t ∧ chanAt t e c = { ch with gotOpen := false, state := .refused } ∧
      (ch.state ≠ .refused → recorded s t 0x070C) ∧ (ch.state = .refused → t.regs = s.regs)) ∧
    (∀ p ∈ (ch.queue.find? (·.cls == cls)).toList, (¬may p → exec (.packetSend e c cls) s = .next s) ∧
      (may p → ∃ t, exec (.packetSend e c cls) s = .next t ∧ goes t p ∧ (chanAt t e c).queue = ch.queue.erase p)) ∧
    (∀ q ∈ (s.fabric.chans.find? (fun q => q.2.transit.any (fun t => t.1 == chanKey e c && t.2.cls == cls))).toList,
      ∀ p ∈ (q.2.transit.find? (fun t => t.1 == chanKey e c && t.2.cls == cls)).toList, may p.2 → 4 ≤ q.2.freed.length → q.2 = chanAt s (q.1 / 64) (q.1 % 64) →
        let freed (t : State) : Prop := (chanAt t (q.1 / 64) (q.1 % 64)).transit = q.2.transit.erase p ∧ (chanAt t (q.1 / 64) (q.1 % 64)).freed.getD cls 0 = q.2.freed.getD cls 0 + 1
        (q.1 / 64 = e → ∃ t, exec (.packetForward e c cls) s = .next t ∧ goes t p.2 ∧ freed t) ∧
        (q.1 / 64 < 4 → q.1 / 64 ≠ e → cutOff s (16 + q.1 / 64) (16 + e) = false → ∃ t, exec (.packetForward e c cls) s = .next t ∧ freed t ∧ t.mem = s.mem ∧
          ∃ m, m.src = 16 + q.1 / 64 ∧ m.dst = 16 + e ∧ m.data = (payloads p.2.cargo).flatMap (fun b => padTo b.1 b.2) ∧ m.len = m.data.length ∧ bits m.packet.toNat 0 5 = headType p.2.cargo ∧
            (p.2.cls < 4 → bits m.packet.toNat 6 2 = p.2.cls) ∧ bits m.packet.toNat 8 8 = p.2.job % 256 ∧
            ∀ x, nextArb s (16 + q.1 / 64) 0 m = some (.swl x) → (endAt s x).cap = [] ∨ featureOn (endAt s x) 2 = true →
              (arbAt t (.swl x)).requests = (arbAt s (.swl x)).requests ++ [(0, 0x21, m)])) ∧
    (∃ t, exec (.linkAckTimer e c) s = .next t ∧ chanAt t e c = { ch with freed := [0, 0, 0, 0], sinceAck := 0 } ∧
      t.out = .linkAck ((freeLinks s e c).headD 0) ((ch.expect + 65535) % 65536) false (ch.freed.getD 0 0) (ch.freed.getD 1 0) (ch.freed.getD 2 0) :: s.out) ∧
    (ch.gap = true → (∃ m ∈ chanLinks s e c, s.fabric.peerHeld.contains (fibreOf m) = false) → ∃ t, exec (.nakGapTimeout e c) s = .next t ∧ t.mem = s.mem ∧
      t.out = .linkAck ((freeLinks s e c).headD 0) ((ch.expect + 65535) % 65536) true (ch.freed.getD 0 0) (ch.freed.getD 1 0) (ch.freed.getD 2 0) :: s.out) ∧
    (ch.gap = false → exec (.nakGapTimeout e c) s = .next s) ∧
    (∀ h : HeardFlit, h.link = l → ∃ t, exec (.flitCrcFail h) s = .next t ∧ t.mem = s.mem ∧ t.blotter = s.blotter ∧
      let n (f : Fld) (u : State) := getF u (.opxFibreErrcnt (fibreOf l)) f
      let bad := readFlit h.image = none
      let lost := bad ∨ h.touched = true
      n F.opxFibreErrcnt_fec_ue t = min (n F.opxFibreErrcnt_fec_ue s + h.words) 0xFFFF ∧
      (lost → chanAt t e c = { ch with failed := some (ch.failed.getD []) }) ∧ (¬lost → t.fabric = s.fabric) ∧
      n F.opxFibreErrcnt_crc_fail t = min (n F.opxFibreErrcnt_crc_fail s +
        (if bad ∨ (h.touched = false ∧ (readFlit h.image).any (fun g => decide (11 ≤ g.control / 2 ^ 12)) = true) then 1 else 0)) 0xFFFF)) ∧
  (∀ (s : State) (e c l seq c0 c1 c2 : Nat), l ∈ upLinks s e c → chanOf s l = some c → edOf l = e → e < 4 → c < 64 → unwatched s →
    s.fabric.held.contains (fibreOf l) = false → (∀ m, (linkAt s m).owed = false) →
    let ch := chanAt s e c
    let first := (ch.replay.head?).elim 0 (·.seq)
    let n := (seq + 1 + 65536 - first) % 65536
    let at' (q : SentPacket) := (q.seq + 65536 - first) % 65536
    let left := if n ≤ sumOf (ch.replay.map (·.flits)) then
      (ch.replay.filter (fun q => decide (n < at' q + q.flits))).map (fun q => { q with acked := max q.acked (n - at' q) }) else ch.replay
    let open' (ps : List SentPacket) := sumOf (ps.map (fun q => q.flits - q.acked))
    let tries := if open' left < open' ch.replay then 0 else ch.resends
    let resent (t : State) (m : Nat) (ps : List SentPacket) (was : Nat) : Prop := if ps = [] then (chanAt t e c).resends = was ∧ t.out = s.out
      else if was < 8 then (chanAt t e c).resends = was + 1 ∧ t.out = (ps.map (fun p => Out.packet e c p.seq p.packet p.acked (sendNibs s e c) true)).reverse ++ s.out ∧
        getF t (.opxFibreErrcnt (fibreOf m)) F.opxFibreErrcnt_replays = min (getF s (.opxFibreErrcnt (fibreOf m)) F.opxFibreErrcnt_replays + open' ps) 0xFFFF
      else (linkAt t m).state = .dark ∧ recorded s t 0x070B ∧ recorded s t 0x0701 ∧ (chanAt t e c).resends = 0
    seq < 65536 →
    (∃ t, exec (.linkAck l seq false c0 c1 c2) s = .next t ∧ t.out = s.out ∧ t.regs = s.regs ∧ t.mem = s.mem ∧ chanAt t e c = { ch with
      credits := [ch.credits.getD 0 0 + c0, ch.credits.getD 1 0 + c1, ch.credits.getD 2 0 + c2, ch.credits.getD 3 0], replay := left,
      resends := tries }) ∧
    (∃ t, exec (.linkAck l seq true c0 c1 c2) s = .next t ∧ t.mem = s.mem ∧ (chanAt t e c).replay = left ∧
      resent t l left tries) ∧
    (∀ m ∈ ((freeLinks s e c).head?).toList, ∃ t, exec (.resendTimeout e c) s = .next t ∧ t.mem = s.mem ∧
      (chanAt t e c).replay = ch.replay ∧ resent t m ch.replay ch.resends)) ∧
  (∀ (s : State) (e c l label : Nat) (a : Arrival) (cargo : Cargo), l ∈ upLinks s e c → chanOf s l = some c → edOf l = e → e < 4 → c < 64 → unwatched s →
    let ch := chanAt s e c
    let cmd : Instr := match cargo with
      | .relay p => .relayPacketReceive l label a p
      | .write p => .writePacket l label a p
    let cls := match cargo with
      | .relay p => if p.kind = 5 then 0 else 1
      | .write _ => 2
    let flits := flitsOf ⟨cls, label, a.job, none, cargo⟩
    let fits := match cargo with
      | .relay _ => true
      | .write p => decide (1 ≤ p.data.length ∧ p.data.length ≤ 3808)
    let route := (sectionOf s e).bind (fun t => (t.routes[label]?).filter (·.valid))
    let acked (t : State) : Prop := (chanAt t e c).expect = (ch.expect + flits) % 65536 ∧ (chanAt t e c).gap = false
    let frozen (t : State) (code : Nat) : Prop := (linkAt t l).frozenIn = true ∧ (linkAt t l).freezeReason = 0 ∧ recorded s t code
    let stops (code : Nat) : Prop := (∃ t, exec cmd s = .next t ∧ acked t ∧ frozen t code ∧ t.mem = s.mem ∧ t.relays = s.relays ∧
      ((linkAt s l).txActive ≠ 0 → s.fabric.held.contains (fibreOf l) = false → t.out.head? = some (.control l (((List.range 16).find? (fun n => (linkAt s l).txActive.testBit n)).getD 0) 1 0)))
    let ahead' := (a.seq + 65536 - ch.expect) % 65536
    let room := (chanEntry s e c).elim 0 (fun en => 256 * en.replay)
    fits = true →
    (room < ahead' + flits → ahead' ≠ 0 → exec cmd s = .next s) ∧
    (ahead' + flits ≤ room → ahead' ≠ 0 → ∃ t, exec cmd s = .next t ∧ t.mem = s.mem ∧ t.relays = s.relays ∧ t.regs = s.regs ∧ (chanAt t e c).expect = ch.expect ∧
      (chanAt t e c).gap = true ∧
      (chanAt t e c).early = (if ch.early.any (·.seq == a.seq) then ch.early else ch.early ++ [⟨a.seq, l, ⟨cls, label, a.job, none, cargo⟩⟩]) ∧
      ∀ q ∈ ch.failed.toList, (∀ n ∈ recvNibs s e c, n ∈ q ∨ (n.1 = l ∧ a.nibs.testBit n.2 = true)) → s.fabric.held.contains (fibreOf l) = false →
        (chanAt t e c).failed = none ∧ t.out.head? = some (.linkAck ((freeLinks s e c).headD 0) ((ch.expect + 65535) % 65536) true (ch.freed.getD 0 0) (ch.freed.getD 1 0) (ch.freed.getD 2 0))) ∧
    (ahead' = 0 → ch.early = [] →
    ((linkAt s l).frozenIn = true → ∃ t, exec cmd s = .next t ∧ acked t ∧ t.mem = s.mem ∧ t.relays = s.relays ∧ t.regs = s.regs) ∧
    ((linkAt s l).frozenIn = false → ch.state ≠ .open → stops 0x0711) ∧
    ((linkAt s l).frozenIn = false → ch.state = .open → a.job % 256 ≠ getF s .opxConfig F.opxConfig_job % 256 → stops 0x0710) ∧
    ((linkAt s l).frozenIn = false → ch.state = .open → a.job % 256 = getF s .opxConfig F.opxConfig_job % 256 →
      (route = none → stops 0x0712) ∧
      (∀ r ∈ route.toList, r.deliver = false → ∃ t, exec cmd s = .next t ∧ acked t ∧ t.mem = s.mem ∧ t.relays = s.relays ∧ t.blotter = s.blotter ∧
        (chanAt t e c).transit = ch.transit ++ [(chanKey r.ed r.chan, ⟨cls, r.label, a.job, none, cargo⟩)])))) ∧
  (∀ (s : State) (e c l label : Nat) (a : Arrival) (r : RouteEntry) (p : WritePkt), l ∈ upLinks s e c → chanOf s l = some c → edOf l = e → e < 4 → c < 64 → unwatched s →
    a.seq = (chanAt s e c).expect → (chanAt s e c).expect < 65536 → (chanAt s e c).early = [] → (linkAt s l).frozenIn = false → (chanAt s e c).state = .open → a.job % 256 = getF s .opxConfig F.opxConfig_job % 256 →
    (sectionOf s e).bind (fun t => t.routes[label]?) = some r → r.valid = true → r.deliver = true → (∀ d < 16, inReset s d = false) → 1 ≤ p.data.length → p.data.length ≤ 3808 →
    let n := p.data.length
    let acked (t : State) : Prop := (chanAt t e c).expect = ((chanAt s e c).expect + flitsOf ⟨2, label, a.job, none, .write p⟩) % 65536
    let win := (chanEntry s e c).elim 0xFFFF (·.window)
    let lands : Prop := landingGrants s win .w p.dest n = true ∧ (p.post = true → p.postAddr % 8 = 0 ∧ landingGrants s win .a p.postAddr 8 = true)
    (¬lands → ∃ t, exec (.writePacket l label a p) s = .next t ∧ acked t ∧ (linkAt t l).frozenIn = true ∧ (linkAt t l).freezeReason = 0 ∧ recorded s t 0x0713 ∧ t.mem = s.mem) ∧
    (lands → s.memp.faults = [] → s.memp.poison = [] → (∀ d < 16, flag s (.memDieInjectCtl d) F.memDieInjectCtl_arm = false) → lapCode s false p.dest n = 0 →
      (p.post = true → lapCode s false p.postAddr 8 = 0 ∧ Apart p.dest n p.postAddr 8) → ∃ t, exec (.writePacket l label a p) s = .next t ∧ acked t ∧
        Mem.read t.mem p.dest n = p.data ∧ (p.post = true → rdN t p.postAddr 8 = (rdN s p.postAddr 8 + p.postVal.toNat) % 2 ^ 64) ∧
        ∀ b, Apart b 1 p.dest n → (p.post = true → Apart b 1 p.postAddr 8) → Mem.get t.mem b = Mem.get s.mem b)) ∧
  (∀ (s : State) (e c l label : Nat) (a : Arrival) (r : RouteEntry) (p : RelayPkt), l ∈ upLinks s e c → chanOf s l = some c → edOf l = e → e < 4 → c < 64 → unwatched s →
    a.seq = (chanAt s e c).expect → (chanAt s e c).expect < 65536 → (chanAt s e c).early = [] → (linkAt s l).frozenIn = false → (chanAt s e c).state = .open → a.job % 256 = getF s .opxConfig F.opxConfig_job % 256 →
    (sectionOf s e).bind (fun t => t.routes[label]?) = some r → r.valid = true → r.deliver = true → (∀ d < 16, inReset s d = false) →
    let acked (t : State) : Prop := (chanAt t e c).expect = ((chanAt s e c).expect + flitsOf ⟨if p.kind = 5 then 0 else 1, label, a.job, none, .relay p⟩) % 65536
    let stray (code : Nat) : Prop := (∃ t, exec (.relayPacketReceive l label a p) s = .next t ∧ acked t ∧ (linkAt t l).frozenIn = true ∧ (linkAt t l).freezeReason = 0 ∧
      recorded s t code ∧ t.mem = s.mem ∧ t.relays = s.relays)
    (∀ slot ∈ (matching s e p).toList, ∀ q ∈ (runAt s e slot).toList, (p.layout ≠ q.post.ext.layout → stray 0x0506) ∧
      (p.layout = q.post.ext.layout → p.type < 3 → ∃ t, exec (.relayPacketReceive l label a p) s = .next t ∧ acked t ∧ t.mem = s.mem ∧ t.regs = s.regs ∧
        runAt t e slot = some (if p.type = 0 then { q with arrived := q.arrived ++ [p] } else if p.type = 1 then { q with ready := p.sender :: q.ready }
          else { q with done := p.sender :: q.done }))) ∧
    (engineOf s e p = e → matching s e p = none →
      started s e p = true ∨ p.type = 0 →
      stray (if p.layout ≠ getF s .colLayout F.colLayout_current then 0x0506 else 0x0507)) ∧
    (engineOf s e p = e → started s e p = false → 1 ≤ p.type → p.type ≤ 3 → (engineAt s e).held.length < 16384 →
      ∃ t, exec (.relayPacketReceive l label a p) s = .next t ∧ acked t ∧ t.mem = s.mem ∧ t.regs = s.regs ∧ (engineAt t e).held = (engineAt s e).held ++ [(l, p)] ∧
        (engineAt t e).slots = (engineAt s e).slots))

/-! ### Light -/

/-- R350 and R358 for signals, R351 to R354 for lines, R352, R356 and R358 for the control register, R360 for thresholds, R356 and R357 for changeovers, R359 for the start, R355 for
rings. Means round halves up (log entry 53); which source carries most fibres when both carry 12 is the model's choice (log entry 51). -/
def Obligations.LightSources : Prop :=
  (∀ (s : State) (src : Nat) (high : Bool), src < 2 → unwatched s → (getF s .lgtCombStatus F.lgtCombStatus_active) < 2 →
    let a := getF s .lgtCombStatus F.lgtCombStatus_active
    let x := sourceAt s src
    let spare := sourceAt s (1 - a)
    let ready : Prop := spare.fitted = true ∧ spare.en = true ∧ spare.faultN = true ∧ spare.rdy = true ∧ someBelow s (1 - a) = false ∧ spare.p0 = true ∧ spare.faded = false
    let only (t : State) (y : Source) : Prop := sourceAt t src = y ∧ sourceAt t (1 - src) = sourceAt s (1 - src) ∧ t.mem = s.mem
    let lost (c : Instr) : Prop := ((ready → ∃ t, exec c s = .next t ∧ getF t .lgtCombStatus F.lgtCombStatus_active = 1 - a ∧ t.light.change.busy = false ∧ t.fabric.held = [] ∧
        ∀ f < 24, inReset s (16 + f / 6) = false → getF t (.lgtFibreStatus f) F.lgtFibreStatus_source = 1 - a) ∧
      (¬ready → ∃ t, exec c s = .next t ∧ recorded s t 0x0804 ∧ getF t .lgtCombStatus F.lgtCombStatus_active = a ∧
        ∀ l ∈ liveLinks s, getF s (.lgtFibreStatus (fibreOf l)) F.lgtFibreStatus_source = a → (linkAt t l).state = .dark))
    (s.light.change.due = false → exec (.combReadyChange src high) s = .next (modSource src (fun x => { x with rdy := high }) s)) ∧
    (high = true → s.light.change.due = false → exec (.combFaultChange src high) s = .next (modSource src (fun x => { x with faultN := true }) s)) ∧
    (high = false → src ≠ a → exec (.combFaultChange src high) s = .next (modSource src (fun x => { x with faultN := false }) s)) ∧
    (high = false → src = a → x.faultN = true → x.fitted = true → x.en = true → x.rdy = true → lost (.combFaultChange src high)) ∧
    (high = true → x.fitted = false → exec (.combPresentChange src high) s = .next s) ∧
    (high = true → x.fitted = true → src ≠ a → ∃ t, exec (.combPresentChange src high) s = .next t ∧ only t { x with fitted := false, rdy := false, en := false } ∧
      t.out = (if x.en then [.pin (.csmEn src) false] else []) ++ s.out ∧ t.regs = s.regs) ∧
    (high = true → x.fitted = true → src = a → lost (.combPresentChange src high)) ∧
    (high = false → x.fitted = false → ∃ t, exec (.combPresentChange src high) s = .next t ∧ t.regs = s.regs ∧
      only t { x with fitted := true, en := x.en || ((src == a || !(sourceAt s a).fitted) && getF s .pwrState F.pwrState_state != 3) })) ∧
  (∀ (s : State) (e src w : Nat) (power : Int), e < 4 → src < 2 → w < 72 → inReset s (16 + e) = false → unwatched s →
    let x := sourceAt s src
    let l := lineAt s e src w
    let th (f : Fld) : Int := getF s .lgtThresh f * 10
    let mean : Int := (2 * l.samples.foldl (· + ·) 0 + (l.samples.length : Int)) / (2 * (l.samples.length : Int))
    let level (p : Int) : Nat := if mean < p - th F.lgtThresh_floor then 4 else if mean < p - th F.lgtThresh_red then 3 else if mean < p - th F.lgtThresh_amber then 1
      else if getF s .lgtThresh F.lgtThresh_slope_hours ≠ 0 ∧ (l.slope.any (fun k => decide (k.1 < 0 ∧
        mean * k.2 + 60 * k.1 * getF s .lgtThresh F.lgtThresh_slope_hours ≤ (p - th F.lgtThresh_red) * k.2))) = true then 2 else 0
    (x.fitted = true → x.en = true → exec (.linePowerSample e src w power) s = .next (modLine e src w (fun l => { l with samples := l.samples ++ [power] }) s)) ∧
    (x.fitted = false ∨ x.en = false → exec (.linePowerSample e src w power) s = .next s ∧ exec (.lineMeanUpdate e src w) s = .next s) ∧
    (x.fitted = true → x.en = true → l.samples ≠ [] → x.p0 = false → s.light.change.due = false →
      exec (.lineMeanUpdate e src w) s = .next (modLine e src w (fun l => { l with mean := some mean, samples := [], minute := l.minute ++ [mean] }) s)) ∧
    (∀ p ∈ l.p0.toList, x.fitted = true → x.en = true → l.samples ≠ [] → x.p0 = true → l.level ≤ 4 → s.light.change.due = false →
      let up := gravity l.level < gravity (level p)
      let first (n : Nat) : Prop := up ∧ gravity l.level < gravity n ∧ gravity n ≤ gravity (level p) ∧ lineInUse s e w = true
      let active := src = getF s .lgtCombStatus F.lgtCombStatus_active
      ∃ t, exec (.lineMeanUpdate e src w) s = .next t ∧ t.mem = s.mem ∧ (lineAt t e src w).mean = some mean ∧ (lineAt t e src w).samples = [] ∧
        (up → (lineAt t e src w).level = level p) ∧ (¬up → t.blotter = s.blotter ∧ ((lineAt t e src w).level = l.level ∨ (lineAt t e src w).level = level p)) ∧
        (first 3 → recorded s t 0x0802 ∧ (sourceAt t src).faded = true ∧ (active → flag s .lgtCombCtl F.lgtCombCtl_auto = true → s.light.change.busy = false →
          s.fabric.installing = [] → eligible s (1 - src) = true → t.light.change.busy = true ∧ t.light.change.target = 1 - src)) ∧
        (first 4 → recorded s t 0x0803) ∧
        (first 1 → level p ≠ 2 → active → src < 2 → (sourceAt s (1 - src)).fitted = true → (sourceAt t (1 - src)).en = true)) ∧
    (let now := nowNs s / (60 * 10 ^ 9)
     let ms := l.minutes.filter (fun p => decide (now < p.1 + 1440)) ++ (meanOf l.minute).toList.map (fun v => (now, v))
     exec (.slopeUpdate e src w) s = .next (modLine e src w (fun l => { l with minute := [], minutes := ms, slope := if 360 ≤ ms.length then some (fitSlope ms) else none }) s))) ∧
  (∀ (s : State) (val : BitVec 32) (c : Instr), c = .commission val ∨ c = .spareStart val ∨ c = .spareStop val ∨ c = .switch val → dieAnswers s 16 → unwatched s →
    s.light.change.due = false →
    let spare := 1 - getF s .lgtCombStatus F.lgtCombStatus_active
    let src := F.lgtCombCtl_commission_src.of (val.setWidth 64)
    let bright : Prop := ∀ e < 4, ∀ w < 72, ∃ v ∈ (lineAt s e src w).mean.toList, 300 ≤ v
    let x := sourceAt s src
    let good : Prop := x.fitted = true ∧ x.en = true ∧ x.rdy = true ∧ x.faultN = true ∧ bright
    let bit (i : Nat) := val.getLsbD i = true
    ∃ t, exec c s = .next t ∧ t.mem = s.mem ∧ getF t .lgtCombCtl F.lgtCombCtl_auto = (val.getLsbD 0).toNat ∧ getF t .lgtCombCtl F.lgtCombCtl_commission_src = src ∧
      (bit 4 → ¬bit 1 → ¬bit 2 → ¬bit 3 → (good → getF t .lgtCombCtl F.lgtCombCtl_commission_status = 2 ∧ sourceAt t src = { x with p0 := true, faded := false } ∧
          t.blotter = s.blotter ∧ ∀ e < 4, ∀ w < 72, (lineAt t e src w).p0 = (lineAt s e src w).mean ∧ (lineAt t e src w).minutes = [] ∧ (lineAt t e src w).slope = none) ∧
        (¬good → getF t .lgtCombCtl F.lgtCombCtl_commission_status = 3 ∧ recorded s t 0x0809 ∧ t.light = s.light)) ∧
      (bit 1 → ¬bit 2 → ¬bit 3 → ¬bit 4 → sourceAt t spare = { sourceAt s spare with en := (sourceAt s spare).en || (sourceAt s spare).fitted } ∧ t.blotter = s.blotter) ∧
      (bit 2 → ¬bit 1 → ¬bit 3 → ¬bit 4 → sourceAt t spare = { sourceAt s spare with en := (sourceAt s spare).en && s.light.change.busy } ∧ t.blotter = s.blotter) ∧
      (bit 3 → ¬bit 1 → ¬bit 2 → ¬bit 4 → (s.light.change.busy = true ∨ eligible s spare = false → t.light = s.light) ∧
        (s.light.change.busy = false → eligible s spare = true → s.fabric.installing = [] → t.light.change = ⟨true, false, spare, none, 0⟩ ∧
          getF t .lgtCombStatus F.lgtCombStatus_fibres_done = 0)) ∧
      (¬bit 1 → ¬bit 2 → ¬bit 3 → ¬bit 4 → t.light = s.light ∧ t.blotter = s.blotter)) ∧
  (∀ (s : State) (val : BitVec 64), dieAnswers s 16 → unwatched s →
    let rising := F.lgtThresh_amber.of val < F.lgtThresh_red.of val ∧ F.lgtThresh_red.of val < F.lgtThresh_floor.of val
    (rising → exec (.lgtThreshWrite val) s = .next (setReg s .lgtThresh (val &&& 0xFF_FFFF_FFFF))) ∧
    (¬rising → ∃ t, exec (.lgtThreshWrite val) s = .next t ∧ recorded s t 0x080A ∧ regVal t .lgtThresh = regVal s .lgtThresh ∧ t.light = s.light ∧ t.mem = s.mem)) ∧
  (∀ (s : State) (f : Nat), unwatched s → s.light.change.busy = true → s.light.change.target < 2 → f < 24 → inReset s (16 + f / 6) = false →
    let c := s.light.change
    let done := getF s .lgtCombStatus F.lgtCombStatus_fibres_done
    (c.fibre = none → c.next ≤ f → (∀ g < f, c.next ≤ g → inReset s (16 + g / 6) = true) → ∃ t, exec .changeoverFibreBegin s = .next t ∧ t.light.change = { c with fibre := some (f, .hold), next := f + 1 } ∧
      t.fabric.held = f :: s.fabric.held ∧ t.fabric.links = s.fabric.links ∧ t.regs = s.regs ∧ t.mem = s.mem) ∧
    (c.fibre = none → 24 ≤ c.next → ∃ t, exec .changeoverFibreBegin s = .next t ∧ t.light.change = { c with busy := false } ∧ recorded s t 0x0805 ∧
      getF t .lgtCombStatus F.lgtCombStatus_active = c.target) ∧
    (c.fibre = some (f, .hold) → ∃ t, exec .changeoverAcksDone s = .next t ∧ t.light.change = { c with fibre := some (f, .switched) } ∧ t.fabric = s.fabric ∧ t.mem = s.mem ∧
      getF t (.lgtFibreStatus f) F.lgtFibreStatus_source = c.target) ∧
    (c.fibre = some (f, .switched) → (∃ g < 24, c.next ≤ g ∧ inReset s (16 + g / 6) = false) → ∃ t, exec (.changeoverRingsLocked true) s = .next t ∧
      t.light.change = { c with fibre := none } ∧ t.fabric.held = s.fabric.held.filter (· != f) ∧ getF t .lgtCombStatus F.lgtCombStatus_fibres_done = min (done + 1) 31 ∧ t.blotter = s.blotter) ∧
    (c.fibre = some (f, .switched) → 24 ≤ c.next → ∃ t, exec (.changeoverRingsLocked true) s = .next t ∧ t.light.change = { c with fibre := none, busy := false } ∧
      t.fabric.held = s.fabric.held.filter (· != f) ∧ getF t .lgtCombStatus F.lgtCombStatus_active = c.target ∧ recorded s t 0x0805) ∧
    (c.fibre = some (f, .switched) → ∃ t, exec (.changeoverRingsLocked false) s = .next t ∧ t.light.change = { c with fibre := none, busy := false } ∧
      t.fabric.held = s.fabric.held.filter (· != f) ∧ getF t (.lgtFibreStatus f) F.lgtFibreStatus_source = 1 - c.target ∧ recorded s t 0x0807 ∧
      let n := ((List.range 24).filter (fun g => getF t (.lgtFibreStatus g) F.lgtFibreStatus_source == 1)).length
      getF t .lgtCombStatus F.lgtCombStatus_active = if n = 12 then getF s .lgtCombStatus F.lgtCombStatus_active else if 12 < n then 1 else 0)) ∧
  (∀ (s : State), unwatched s → getF s .lgtCombStatus F.lgtCombStatus_active < 2 →
    let a := getF s .lgtCombStatus F.lgtCombStatus_active
    let x := sourceAt s a
    let y := sourceAt s (1 - a)
    let better : Prop := y.fitted = true ∧ ((y.p0 = true ∧ y.faded = false) ∨ ¬(x.p0 = true ∧ x.faded = false))
    x.fitted = true → x.en = true → x.rdy = false ∨ x.faultN = false ∨ someBelow s a = true →
    (¬better → exec .sourceStartTimeout s = .next s) ∧
    (better → ∃ t, exec .sourceStartTimeout s = .next t ∧ recorded s t 0x0804 ∧ getF t .lgtCombStatus F.lgtCombStatus_active = 1 - a ∧ (sourceAt t a).en = false ∧
      (sourceAt t (1 - a)).en = true ∧ ∀ f < 24, getF t (.lgtFibreStatus f) F.lgtFibreStatus_source = 1 - a)) ∧
  (∀ (s : State) (f nib : Nat) (tx : Bool), f < 24 → nib < 16 → inReset s (16 + f / 6) = false → unwatched s →
    let lock (t : State) := ((if tx then t.light.txLocked else t.light.rxLocked).get f 0)
    let n (t : State) := getF t (.lgtFibreStatus f) F.lgtFibreStatus_unlocks
    ((lock s).testBit nib = true → (if tx then s.fabric.held else s.fabric.peerHeld).contains f = false → ∃ t, exec (.ringUnlock f nib tx) s = .next t ∧ recorded s t 0x0806 ∧
      n t = min (n s + 1) 0xFFFF ∧ t.mem = s.mem ∧ (∀ i < 16, (lock t).testBit i = ((lock s).testBit i && i != nib)) ∧
      ∀ l ∈ liveLinks s, fibreOf l = f → (if tx then (linkAt t l).txActive else (linkAt t l).rxActive).testBit nib = false) ∧
    ((lock s).testBit nib = false → exec (.ringUnlock f nib tx) s = .next s) ∧
    (∃ t, exec (.ringRelock f nib tx) s = .next t ∧ t.mem = s.mem ∧ t.regs = s.regs ∧ (∀ i < 16, (lock t).testBit i = ((lock s).testBit i || i == nib)) ∧
      ∀ l ∈ liveLinks s, fibreOf l = f → (if tx then ((linkAt s l).txActive ≠ 0 ∧ ∃ n ∈ txNibs s l, n.1 = nib ∧ (linkAt s l).nego.any (·.rx.getLsbD n.2) = true ∧
          (lineAt s (f / 6) (getF s (.lgtFibreStatus f) F.lgtFibreStatus_source) n.2).level ≠ 4)
        else (linkAt s l).delin.testBit nib = true) → (if tx then (linkAt t l).txActive else (linkAt t l).rxActive).testBit nib = true))

/-! ### The die mesh and the Sweyr links -/

/-- R370 to R373 for arrival, R388 and R390 for dies in reset, R57, R240 and R371 at the node, R372 to R374 for credits and naks, R385 to R387 for arbiters. -/
def Obligations.SweyrMessages : Prop :=
  (∀ (s : State) (x op r p : Nat) (a : SwlIn) (c : Instr), (c = .read x a ∧ op = 0x01) ∨ (c = .write x a ∧ op = 0x02) ∨ (c = .atomic x a ∧ op = 0x03) ∨ (c = .tallyAdd x a ∧ op = 0x04) ∨
      (c = .readResp x a ∧ op = 0x11) ∨ (c = .writeAck x a ∧ op = 0x12) ∨ (c = .atomicResp x a ∧ op = 0x13) ∨ (c = .tallyAck x a ∧ op = 0x14) ∨
      (c = .packet x a ∧ op = 0x21) ∨ (c = .notice x a ∧ op = 0x31) → endLive s x = true → (endAt s x).state = .active → unwatched s → s.sweyr.merges = [] → a.msg.poison = [] →
    let k := endAt s x
    let m := a.msg
    let n := if m.data.length ≤ 64 then 1 else 1 + (m.data.length + 119) / 120
    let d := swlEndDie x
    let bad : Prop := (op = 0x01 ∧ (m.data ≠ [] ∨ 3840 < m.len)) ∨ (op = 0x02 ∧ (m.data.length ≠ m.len ∨ m.len = 0 ∨ 3840 < m.len)) ∨ (op = 0x04 ∧ (m.data.length ≠ m.len ∨ m.len ≠ 240)) ∨
      (op = 0x11 ∧ (m.data.length ≠ m.len ∨ 3840 < m.len ∨ (m.status ≠ 0 ∧ m.len ≠ 0))) ∨ (op = 0x21 ∧ (m.data.length ≠ m.len ∨ m.len = 0 ∨ 3840 < m.len)) ∨
      (op = 0x31 ∧ (m.data.length ≠ m.len ∨ 64 < m.len)) ∨ ((op = 0x03 ∨ op = 0x12 ∨ op = 0x13 ∨ op = 0x14) ∧ (m.data ≠ [] ∨ m.len ≠ 0))
    let held := k.parts.find? (·.vc == op / 16)
    let left := held.elim k.parts k.parts.erase
    let fresh : Prop := a.first = 0 ∧ n ≤ a.count
    let ends : Prop := 0 < a.first ∧ held = some ⟨op / 16, op, m, a.first⟩ ∧ a.first + a.count = n
    let freed (t : State) (i : Nat) : Prop := op / 16 < k.freed.length → (endAt t x).freed.getD (op / 16) 0 = k.freed.getD (op / 16) 0 + i
    let arrived (t : State) : Prop := (endAt t x).expect = (k.expect + (n - a.first)) % 256 ∧ (endAt t x).naking = false ∧ (endAt t x).nextSeq = k.nextSeq ∧ (endAt t x).parts = left ∧
      freed t (n + if a.first = 0 then held.elim 0 (·.count) else 0) ∧ (a.ack = none → (endAt t x).replay = k.replay) ∧
      ∀ q ∈ a.ack.toList, ∀ i ∈ (k.replay.findIdx? (fun f => f.seq == q)).toList, (endAt t x).replay = k.replay.drop (i + 1)
    let asks (t : State) (a : Arb) (i o : Nat) (y : SwlMsg) : Prop := (arbAt t a).requests = (arbAt s a).requests ++ [(i, o, y)]
    let whole : Prop := a.seq = k.expect ∧ (fresh ∨ ends)
    (a.seq = k.expect → fresh → bad → ∃ t, exec c s = .next t ∧ arrived t ∧ recorded s t 0x0909 ∧ t.mem = s.mem ∧ t.host = s.host ∧ t.runners = s.runners) ∧
    (whole → ¬bad → d < 16 → cutOff s d (nodeDie m.dst) = false → nextArb s d (endRouter x) m = some (.mesh d r p) → ∃ t, exec c s = .next t ∧ arrived t ∧ t.mem = s.mem ∧
      t.blotter = s.blotter ∧ asks t (.mesh d r p) (endSide x + 1) op m) ∧
    (whole → ¬bad → d < 16 → op < 16 → cutOff s d (nodeDie m.dst) = true → cutOff s d (nodeDie m.src) = false → nextArb s d (endRouter x) (responseTo m 1 0 []) = some (.mesh d r p) →
      ∃ t, exec c s = .next t ∧ arrived t ∧ t.mem = s.mem ∧ t.blotter = s.blotter ∧ asks t (.mesh d r p) 0 (op + 0x10) { m with
        statusOnly := true, src := m.dst, dst := m.src, len := 0, atomic := 0, status := 1, residue := 0, overflow := false, operand := 0, compare := 0, packet := 0, data := [], poison := [] }) ∧
    (whole → ¬bad → 16 ≤ op → cutOff s d (nodeDie m.dst) = true → nodeDie m.dst ≠ d → ∃ t, exec c s = .next t ∧ arrived t ∧ t.mem = s.mem ∧ t.blotter = s.blotter ∧ t.host = s.host ∧ t.runners = s.runners) ∧
    (whole → ¬bad → 16 ≤ d → nodeDie m.dst = d → op / 16 = 1 →
      (m.status = 0 → ∃ t, exec c s = .next t ∧ arrived t ∧ t.mem = s.mem ∧ t.blotter = s.blotter ∧ t.host = s.host ∧ t.runners = s.runners ∧
        (op = 0x11 → m.data ≠ [] → s.accesses = [] → s.sweyr.replies = [] → t.out.head? = some (.readBack m.master m.tag m.addr m.data))) ∧
      (m.status = 1 ∨ m.status = 3 → m.master % 256 = 1 → freezable (runnerAt s (m.master / 65536 % 65536)) = true → ∃ t, exec c s = .next t ∧ arrived t ∧ t.mem = s.mem ∧
        (runnerAt t (m.master / 65536 % 65536)).state = .frozen ∧ recorded s t (if m.status = 1 then 0x0908 else 0x0603))) ∧
    (whole → ¬bad → 16 ≤ d → nodeDie m.dst = d → op = 0x31 → ∃ t, exec c s = .next t ∧ arrived t ∧ t.mem = s.mem ∧ t.blotter = s.blotter ∧ t.out.head? = some (.firmware m.data)) ∧
    (whole → ¬bad → 16 ≤ d → nodeDie m.dst = d → op = 0x21 → ∀ q ∈ (routeOf s (if 16 ≤ nodeDie m.src then nodeDie m.src - 16 else d - 16) (bits m.packet.toNat 16 8)).toList, q.deliver = false → bits m.packet.toNat 0 5 = 4 →
      ∃ t, exec c s = .next t ∧ arrived t ∧ t.mem = s.mem ∧ t.blotter = s.blotter ∧
        (chanAt t q.ed q.chan).queue = (chanAt s q.ed q.chan).queue ++ [⟨bits m.packet.toNat 6 2, q.label, bits m.packet.toNat 8 8, none,
          .write (readWrite (m.data.take (240 * (bits m.packet.toNat 24 8 - 1) + bits m.packet.toNat 32 8)))⟩]) ∧
    (a.seq = k.expect → a.first = 0 → a.count < n → ¬bad → ∃ t, exec c s = .next t ∧ (endAt t x).parts = ⟨op / 16, op, m, a.count⟩ :: left ∧ freed t (held.elim 0 (·.count)) ∧
      (endAt t x).expect = (k.expect + a.count) % 256 ∧ (endAt t x).naking = false ∧ t.mem = s.mem ∧ t.blotter = s.blotter ∧ t.host = s.host ∧ t.runners = s.runners) ∧
    (a.seq = k.expect → 0 < a.first → held ≠ some ⟨op / 16, op, m, a.first⟩ → ∃ t, exec c s = .next t ∧ (endAt t x).parts = k.parts ∧ freed t (min a.count (n - a.first)) ∧
      (endAt t x).expect = (k.expect + min a.count (n - a.first)) % 256 ∧ t.mem = s.mem ∧ t.blotter = s.blotter ∧ t.host = s.host ∧ t.runners = s.runners) ∧
    (a.seq ≠ k.expect → ∃ t, exec c s = .next t ∧ (endAt t x).parts = k.parts ∧ (endAt t x).expect = k.expect ∧ (endAt t x).naking = true ∧ (endAt t x).freed = k.freed ∧
      t.mem = s.mem ∧ t.blotter = s.blotter ∧ t.host = s.host ∧ t.runners = s.runners ∧
      getF t (.swlErrcnt x) F.swlErrcnt_naks = min (getF s (.swlErrcnt x) F.swlErrcnt_naks + if k.naking then 0 else 1) 0xFFFF ∧
      t.out = (if k.naking then [] else [.sweyrNak x ((k.expect + 255) % 256) (ackOf k)]) ++ s.out)) ∧
  (∀ (s : State) (d : Nat) (m : SwlMsg), d < 16 → inReset s d = false → s.memp.faults = [] → s.memp.poison = [] →
    (∀ e < 16, flag s (.memDieInjectCtl e) F.memDieInjectCtl_arm = false) →
    let inside (n : Nat) : Prop := 0 < n ∧ ownerOf s m.addr = some d ∧ ownerOf s (m.addr + n - 1) = some d ∧ homeRouter s m.addr = some (nodeRouter m.dst)
    let kept (t : State) (n : Nat) : Prop := ∀ b, Apart b 1 m.addr n → Mem.get t.mem b = Mem.get s.mem b
    (m.poison ≠ [] → ∀ op, performAt d op m s = (responseTo m 2 0 [], s)) ∧ (m.poison = [] →
    (inside m.len → m.statusOnly = false → performAt d 0x01 m s = (responseTo m 0 0 (Mem.read s.mem m.addr m.len), s)) ∧
    (¬inside m.len → 0 < m.len → performAt d 0x01 m s = (responseTo m 3 0 [], s)) ∧
    (inside m.data.length → m.len = m.data.length → lapCode s true m.addr m.len = 0 → let q := performAt d 0x02 m s
      q.1 = responseTo m 0 0 [] ∧ Mem.read q.2.mem m.addr m.len = m.data ∧ kept q.2 m.len) ∧
    (inside m.len → lapCode s true m.addr m.len ≠ 0 → performAt d 0x02 m s = (responseTo m 3 0 [], s)) ∧
    (∀ f ∈ (atomicCode m.atomic).toList, inside f.2 → m.addr % f.2 = 0 → lapCode s true m.addr f.2 = 0 → let q := performAt d 0x03 m s
      q.1 = responseTo m 0 (atomicOld f.1 f.2 (rdN s m.addr f.2)) [] ∧ kept q.2 f.2 ∧
      rdN q.2 m.addr f.2 = atomicVal f.1 f.2 (rdN s m.addr f.2) m.operand.toNat m.compare.toNat % 2 ^ (8 * f.2)) ∧
    (inside 240 → lapCode s true m.addr 240 = 0 → m.data.length = 240 → let q := performAt d 0x04 m s
      let old (i : Nat) := tallyOf (rdN s (m.addr + 4 * i) 4)
      let add (i : Nat) := tallyOf (field m.data (4 * i) 4)
      let beyond : Prop := ∃ i < 60, old i + add i < -(2 ^ 31 - 1) ∨ 2 ^ 31 - 1 < old i + add i
      (∀ i < 60, rdN q.2 (m.addr + 4 * i) 4 = wrap 32 (max (-(2 ^ 31 - 1)) (min (2 ^ 31 - 1) (old i + add i)))) ∧ kept q.2 240 ∧
      (q.1.overflow = true ↔ m.overflow = true ∨ beyond) ∧
      q.1.status = if m.overflow = false ∧ ¬beyond ∧ residueOf ((List.range 60).map (fun i => rdN q.2 (m.addr + 4 * i) 4)) ≠
        (residueOf ((List.range 60).map (fun i => rdN s (m.addr + 4 * i) 4)) + m.residue) % 65521 then 4 else 0))) ∧
  (∀ (s : State) (x c0 c1 c2 c3 seq : Nat) (ack : Option Nat), endLive s x = true → (endAt s x).state = .active → unwatched s →
    let k := endAt s x
    let after (q : Nat) := (k.replay.findIdx? (fun f => f.seq == q)).elim k.replay (fun i => k.replay.drop (i + 1))
    let run := if k.nakRun ≠ 0 ∧ k.nakSeq = seq then k.nakRun + 1 else 1
    let times := k.nakTimes.filter (fun t => decide (nowNs s < t + 10 ^ 6)) ++ [nowNs s]
    (∃ t, exec (.credit x c0 c1 c2 c3 ack) s = .next t ∧ t.mem = s.mem ∧ t.blotter = s.blotter ∧ (endAt t x).replay = ack.elim k.replay after ∧
      (endAt t x).credits = [k.credits.getD 0 0 + c0, k.credits.getD 1 0 + c1, k.credits.getD 2 0 + c2, k.credits.getD 3 0 + c3]) ∧
    (run < 8 → times.length < 64 → ∃ t, exec (.nak x seq) s = .next t ∧ t.mem = s.mem ∧ t.regs = s.regs ∧ (endAt t x).replay = after seq ∧ (endAt t x).state = .active ∧
      (endAt t x).nakRun = run ∧ (endAt t x).nakSeq = seq ∧ (endAt t x).nakTimes = times ∧
      t.out = ((runHeads (after seq)).map (fun f => Out.sweyr x f.op f.seq f.idx f.msg (ackOf k) true)).reverse ++ s.out) ∧
    (8 ≤ run ∨ 64 ≤ times.length → ∃ t, exec (.nak x seq) s = .next t ∧ recorded s t 0x0901 ∧ (endAt t x).state = .retrain ∧ (endAt t x).replay = after seq ∧
      (endAt t x).nextSeq = k.nextSeq ∧ (endAt t x).expect = k.expect ∧ t.out = .sideband x 3 (bytesLE 1 k.rate) :: .sideband x 8 [] :: s.out)) ∧
  (∀ (s : State) (d r p : Nat) (val : BitVec 64), d < 16 → r < 16 → p < 5 → dieAnswers s d → unwatched s →
    let a := Arb.mesh d r p
    let l := (arbAt s a).requests
    let prio (i : Nat) := bits val.toNat (4 * i) 4
    let best (w : Nat × Nat × SwlMsg) : Prop := w ∈ l ∧ ∀ q ∈ l, prio q.1 ≤ prio w.1 ∧ (prio q.1 = prio w.1 → q.1 ≠ w.1 → lastGrant (arbAt s a).recent q.1 ≤ lastGrant (arbAt s a).recent w.1)
    (∀ q ∈ l, q.1 < 5 ∧ q.2.1 / 16 < 4) →
    (∃ t, exec (.arbPriorityWrite a val) s = .next t ∧ getF t (arbReg a) F.swlArb_prio = F.swlArb_prio.of val ∧ (arbAt t a).requests = l ∧ t.mem = s.mem ∧
      (l = [] → (arbAt t a).holder = (arbAt s a).holder) ∧
      ((arbAt s a).holder = none → l ≠ [] → ∃ w ∈ (arbAt t a).holder.toList, best w) ∧
      (∀ h ∈ (arbAt s a).holder.toList, ((∃ q ∈ l, prio h.1 < prio q.1) → ∃ w ∈ (arbAt t a).holder.toList, best w) ∧
        ((∀ q ∈ l, prio q.1 ≤ prio h.1) → (arbAt t a).holder = some h))) ∧
    ((arbAt s a).holder = none → exec (.arbiterWatchdog a) s = .next s) ∧
    (∀ h ∈ (arbAt s a).holder.toList, ∃ t, exec (.arbiterWatchdog a) s = .next t ∧ t.mem = s.mem ∧ (arbAt t a).requests = l.erase h ∧ recorded s t 0x0907 ∧
      (l.erase h = [] → (arbAt t a).holder = none) ∧
      (h.2.2.master % 256 = 1 → freezable (runnerAt s (h.2.2.master / 65536 % 65536)) = true → (runnerAt t (h.2.2.master / 65536 % 65536)).state = .frozen) ∧
      (h.2.2.master % 256 = 2 → (queueAt s (h.2.2.master / 65536 % 65536)).state = .running → (queueAt t (h.2.2.master / 65536 % 65536)).state = .frozen) ∧
      (h.2.2.master % 256 = 4 → ∀ y ∈ fibreLinks s (h.2.2.master / 65536 % 65536), (linkAt t y).frozenIn = true))) ∧
  (∀ (s : State) (x y i op : Nat) (m : SwlMsg), (arbAt s (.swl x)).requests = [(i, op, m)] → swlEndDie x < 16 → op ≠ 0x12 → cutOff s (swlEndDie x) (nodeDie m.dst) = false →
    let t := reroute x s
    (op ≠ 0x02 → op ≠ 0x11 → op ≠ 0x21 → x ≠ y → nextArb s (swlEndDie x) (endRouter x) m = some (.swl y) → t.mem = s.mem ∧ t.blotter = s.blotter ∧ (arbAt t (.swl x)).requests = [] ∧
      (arbAt t (.swl y)).requests = (arbAt s (.swl y)).requests ++ [(i, op, m)]) ∧
    (16 ≤ op → nextArb s (swlEndDie x) (endRouter x) m = none → t = modArb (.swl x) (fun b => { b with holder := none, requests := [] }) s)) ∧
  (∀ (s : State) (d y : Nat), d < 20 → y < 20 → y ≠ d →
    (d ∈ s.sweyr.awaiting → cutOff s d y = true ∧ cutOff s y d = true) ∧ d ∈ (swlDieReset d s).sweyr.awaiting ∧
    ((∃ x ∈ endsOf d, (endAt s x).state ≠ .active ∧ linkOut s (x / 2) = false) → rejoin d s = s) ∧
    ((∀ x ∈ endsOf d, (endAt s x).state = .active ∨ linkOut s (x / 2) = true) → d ∉ (rejoin d s).sweyr.awaiting ∧ (y ∈ s.sweyr.awaiting → y ∈ (rejoin d s).sweyr.awaiting)))

/-- R376 to R380 for training, R382 and R384 for the width check, R383 for a peer's reset, Table 13.17 and R393 for the register, R369, R372 and R373 for the timers. -/
def Obligations.SweyrTraining : Prop :=
  (∀ (s : State) (x : Nat) (blk : List Byte), endLive s x = true → endDisabled s x = false → unwatched s →
    let k := endAt s x
    let of' (o n : Nat) := field blk o n
    let good : Prop := capBad blk = false
    let version := min (if swlEndDie x < 16 then 0x12 else 0x11) (of' 4 1)
    let down (c : Instr) (code : Nat) : Prop := (∃ t, exec c s = .next t ∧ (endAt t x).state = .down ∧ recorded s t code ∧ t.mem = s.mem ∧
      (linkOut s (x / 2) = false → (arbAt t (.swl x)).requests = []))
    (k.state = .capability → ¬good → k.badCaps < 2 → exec (.cap x blk) s = .next (modEnd x (fun k => { k with badCaps := k.badCaps + 1 }) s)) ∧
    (k.state = .capability → ¬good → 2 ≤ k.badCaps → down (.cap x blk) 0x0905) ∧
    (k.state = .capability → good → k.capAcked = false → ∃ t, exec (.cap x blk) s = .next t ∧ endAt t x = { k with cap := blk, gotCap := true, badCaps := 0 } ∧
      t.out = .sideband x 2 [] :: s.out ∧ t.regs = s.regs ∧ t.mem = s.mem) ∧
    (k.state = .capability → good → k.capAcked = true → (version < of' 5 1 → down (.cap x blk) 0x0904) ∧
      (of' 5 1 ≤ version → ∃ t, exec (.cap x blk) s = .next t ∧ (endAt t x).state = .laneTest ∧ (endAt t x).version = version ∧ (endAt t x).nextSeq = 0 ∧ (endAt t x).expect = 0 ∧
        (endAt t x).replay = [] ∧ (endAt t x).credits = [of' 10 2, of' 12 2, of' 14 2, of' 16 2] ∧
        (endAt t x).rate = min (min (of' 6 1) (if version ≤ 0x10 then 2 else 3)) (getF s (.swlCtl x) F.swlCtl_rate_cap) ∧
        t.out = .sideband x 3 (bytesLE 1 (endAt t x).rate) :: .sideband x 2 [] :: s.out)) ∧
    (k.state = .reset → good → ∃ t, exec (.cap x blk) s = .next t ∧ (endAt t x).state = .capability ∧ (endAt t x).gotCap = true ∧ (endAt t x).cap = blk ∧
      t.out = .sideband x 2 [] :: .sideband x 1 (ownCap s x) :: s.out) ∧
    (k.state ≠ .capability → k.state ≠ .reset → exec (.cap x blk) s = .next s) ∧
    (k.state = .capability → k.gotCap = false → exec (.capAck x) s = .next (modEnd x (fun k => { k with capAcked := true }) s)) ∧
    (k.state = .capability → k.gotCap = true →
      let peer (o n : Nat) := field k.cap o n
      let version := min (if swlEndDie x < 16 then 0x12 else 0x11) (peer 4 1)
      (0x10 ≤ peer 4 1 → peer 5 1 ≤ version → ∃ t, exec (.capAck x) s = .next t ∧ (endAt t x).state = .laneTest ∧ (endAt t x).version = version ∧
        (endAt t x).rate = min (min (peer 6 1) (if version ≤ 0x10 then 2 else 3)) (getF s (.swlCtl x) F.swlCtl_rate_cap) ∧ t.mem = s.mem ∧
        t.out = .sideband x 3 (bytesLE 1 (endAt t x).rate) :: s.out) ∧
      (peer 4 1 < 0x10 ∨ version < peer 5 1 → down (.capAck x) 0x0904)) ∧
    (k.state ≠ .capability → exec (.capAck x) s = .next s ∧ exec (.capResendTimer x) s = .next s) ∧
    (k.state = .capability → exec (.capResendTimer x) s = .next (emit (.sideband x 1 (ownCap s x)) s))) ∧
  (∀ (s : State) (x : Nat) (c : Instr), endLive s x = false → (∃ blk, c = .cap x blk) ∨ c = .capAck x ∨ c = .capResendTimer x ∨ (∃ pass, c = .laneTestDone x pass) ∨
    (∃ pass, c = .laneResult x pass) ∨ (∃ rate, c = .trainReq x rate) ∨ c = .retrainReq x ∨ c = .resetNotice x ∨ c = .forwardedClockLoss x ∨ c = .sweyrAckTimer x ∨
    c = .sweyrCreditTimer x ∨ c = .sweyrResendTimeout x → exec c s = .next s) ∧
  (∀ (s : State) (x rate : Nat) (pass : BitVec 64), endLive s x = true → unwatched s →
    let k := endAt s x
    let left := pass &&& ~~~ k.excl
    let all (m : BitVec 64) (lo n : Nat) : Prop := ∀ i < n, m.getLsbD (lo + i) = true
    let has (i : Nat) : Prop := (field k.cap 7 1).testBit i = true
    let width (m : BitVec 64) (w : Nat) : Prop := if k.fallback = true then w = 2 ∧ all m 0 16 else if has 0 ∧ all m 0 64 then w = 0 else if has 1 ∧ all m 0 32 then w = 1
      else if has 1 ∧ all m 32 32 then w = 5
      else has 2 ∧ ((w = 2 ∧ all m 0 16) ∨ (w = 6 ∧ ¬all m 0 16 ∧ all m 16 16) ∨ (w = 10 ∧ ¬all m 0 16 ∧ ¬all m 16 16 ∧ all m 32 16) ∨
        (w = 14 ∧ ¬all m 0 16 ∧ ¬all m 16 16 ∧ ¬all m 32 16 ∧ all m 48 16))
    let none' (m : BitVec 64) : Prop := ∀ w < 16, ¬width m w
    (testing k = true → k.pass = none → (∀ w < 16, width left w → ∃ t, exec (.laneTestDone x pass) s = .next t ∧ (endAt t x).pass = some left ∧ (endAt t x).rx = w ∧ t.mem = s.mem ∧
        (endAt t x).excl = k.excl ||| ~~~ pass ∧ (endAt t x).rate = k.rate ∧ (~~~ pass &&& ~~~ k.excl ≠ 0 → recorded s t 0x0902) ∧ (~~~ pass &&& ~~~ k.excl = 0 → t.blotter = s.blotter) ∧
        (k.peerPass = none → t.out = .sideband x 4 (bytesLE 8 left.toNat) :: s.out) ∧ (k.peerPass ≠ none → k.full = true → (endAt t x).state = .widthCheck)) ∧
      (none' left → k.fallback = false → 0 < k.rate → ∃ t, exec (.laneTestDone x pass) s = .next t ∧ endAt t x = { k with rate := k.rate - 1 } ∧
        t.out = .sideband x 3 (bytesLE 1 (k.rate - 1)) :: s.out ∧ t.regs = s.regs) ∧
      (none' left → k.fallback = true ∨ k.rate = 0 → ∃ t, exec (.laneTestDone x pass) s = .next t ∧ (endAt t x).state = .down ∧ recorded s t 0x0906)) ∧
    (testing k = true → k.peerPass = none → (∀ w < 16, width pass w → ∃ t, exec (.laneResult x pass) s = .next t ∧ (endAt t x).peerPass = some pass ∧ (endAt t x).tx = w ∧
        t.regs = s.regs ∧ t.mem = s.mem ∧ (k.pass = none → t.out = s.out)) ∧
      (none' pass → k.fallback = true → ∃ t, exec (.laneResult x pass) s = .next t ∧ (endAt t x).state = .down ∧ recorded s t 0x0906) ∧
      (none' pass → k.fallback = false → exec (.laneResult x pass) s = .next s)) ∧
    (testing k = false ∨ k.pass ≠ none → exec (.laneTestDone x pass) s = .next s) ∧ (testing k = false ∨ k.peerPass ≠ none → exec (.laneResult x pass) s = .next s) ∧
    (testing k = false ∨ k.rate < rate → exec (.trainReq x rate) s = .next s) ∧
    (k.state ≠ .active → k.state ≠ .widthCheck → exec (.retrainReq x) s = .next s) ∧
    (testing k = true → rate ≤ k.rate → exec (.trainReq x rate) s = .next (emit (.trainPattern x rate) (modEnd x (fun k => { k with rate := rate }) s))) ∧
    (k.state = .active ∨ k.state = .widthCheck → ∃ t, exec (.retrainReq x) s = .next t ∧ (endAt t x).state = .retrain ∧ (endAt t x).version = k.version ∧ (endAt t x).rate = k.rate ∧
      (endAt t x).replay = k.replay ∧ (endAt t x).nextSeq = k.nextSeq ∧ (endAt t x).expect = k.expect ∧ (endAt t x).pass = none ∧ t.out = .sideband x 3 (bytesLE 1 k.rate) :: s.out ∧
      getF t (.swlErrcnt x) F.swlErrcnt_retrains = min (getF s (.swlErrcnt x) F.swlErrcnt_retrains + 1) 0xFFFF)) ∧
  (∀ (s : State) (x : Nat) (word : BitVec 64) (own peer : BitVec 64), endLive s x = true → unwatched s → (endAt s x).pass = some own → (endAt s x).peerPass = some peer →
    (endAt s x).state = .widthCheck ∨ (endAt s x).state = .retrain → (arbAt s (.swl x)).requests = [] →
    let k := endAt s x
    let first := x % 2 = 0
    let map := if first then bytesLE 8 own.toNat ++ bytesLE 8 peer.toNat else bytesLE 8 peer.toNat ++ bytesLE 8 own.toNat
    let mine := bytesLE 1 k.version ++ bytesLE 1 (if first then k.tx else k.rx) ++ bytesLE 1 (if first then k.rx else k.tx) ++ bytesLE 1 k.fallback.toNat ++ bytesLE 4 (crc32c map)
    let same : Prop := k.fallback = true ∨ bytesLE 8 word.toNat = mine
    let active (t : State) : Prop := (endAt t x).state = .active ∧ getF t (.swlStatus x) F.swlStatus_trainings = min (getF s (.swlStatus x) F.swlStatus_trainings + 1) 0xFFFF
    k.version < 256 → k.tx < 256 → k.rx < 256 →
    (k.checked = true → exec (.widthCheck x word) s = .next s ∧ ∃ t, exec (.active x) s = .next t ∧ active t ∧ t.mem = s.mem) ∧
    (k.checked = false → ∃ t, exec (.active x) s = .next t ∧ endAt t x = { k with gotActive := true } ∧ t.regs = s.regs ∧ t.mem = s.mem) ∧
    (k.checked = false → same → ∃ t, exec (.widthCheck x word) s = .next t ∧ t.out = .sideband x 6 [] :: s.out ∧ t.mem = s.mem ∧ t.blotter = s.blotter ∧
      (k.gotActive = true → active t) ∧ (k.gotActive = false → endAt t x = { k with checked := true } ∧ t.regs = s.regs)) ∧
    (k.checked = false → ¬same → ∃ t, exec (.widthCheck x word) s = .next t ∧ t.mem = s.mem ∧
      getF t (.swlErrcnt x) F.swlErrcnt_disagree = min (getF s (.swlErrcnt x) F.swlErrcnt_disagree + 1) 0xFFFF ∧
      (k.mismatches + 1 < 3 → (endAt t x).state = .retrain ∧ (endAt t x).mismatches = k.mismatches + 1 ∧ t.out = .sideband x 3 (bytesLE 1 k.rate) :: .sideband x 8 [] :: s.out) ∧
      (3 ≤ k.mismatches + 1 → recorded s t 0x0903 ∧ (endAt t x).fallback = true ∧ (endAt t x).tx = 2 ∧ (endAt t x).rx = 2 ∧
        (quarter0 own = false ∨ quarter0 peer = false → (endAt t x).state = .down ∧ recorded s t 0x0906) ∧
        (quarter0 own = true → quarter0 peer = true → (k.gotActive = true → active t) ∧ (k.gotActive = false → (endAt t x).checked = true ∧ (endAt t x).state = k.state))))) ∧
  (∀ (s : State) (x : Nat), endLive s x = true →
    exec (.resetNotice x) s = .next (modEnd x (fun _ => SwlEnd.cold) s) ∧ exec (.forwardedClockLoss x) s = .next (modEnd x (fun _ => SwlEnd.cold) s) ∧
    (∀ data, exec (.mgmt x data) s = .next (if data.length ≤ 64 then emit (.firmware data) s else s)) ∧
    ((endAt s x).state ≠ .active → exec (.sweyrAckTimer x) s = .next s ∧ exec (.sweyrCreditTimer x) s = .next s ∧ exec (.sweyrResendTimeout x) s = .next s) ∧
    ((∀ n ∈ (endAt s x).freed, n = 0) → exec (.sweyrCreditTimer x) s = .next s) ∧
    ((endAt s x).state = .active →
      exec (.sweyrAckTimer x) s = .next (emit (.sweyrIdle x (some (((endAt s x).expect + 255) % 256))) s) ∧
      ((∃ n ∈ (endAt s x).freed, n ≠ 0) → exec (.sweyrCreditTimer x) s = .next (modEnd x (fun k => { k with freed := [0, 0, 0, 0] }) (emit (.sweyrCredit x (endAt s x).freed (ackOf (endAt s x))) s))) ∧
      (∃ t, exec (.sweyrResendTimeout x) s = .next t ∧ t.sweyr = s.sweyr ∧ t.regs = s.regs ∧ t.mem = s.mem ∧
        t.out = ((runHeads (endAt s x).replay).map (fun f => Out.sweyr x f.op f.seq f.idx f.msg (ackOf (endAt s x)) true)).reverse ++ s.out) ∧
      (∀ image f, readSwlFlit (featureOn (endAt s x) 1) image = some f → unwatched s →
        let k := endAt s x
        let op := field f.payload 0 1
        let none' (v : Nat) : Prop := k.parts.any (·.vc == v) = false
        (f.type ≠ 1 → f.type ≠ 2 → f.ack = none → ∃ t, exec (.sweyrCrcFail ⟨x, image⟩) s = .next t ∧ endAt t x = k ∧ t.regs = s.regs ∧ t.mem = s.mem ∧ t.out = s.out) ∧
        (f.type = 1 ∨ f.type = 2 → f.seq ≠ k.expect → f.ack = none → ∃ t, exec (.sweyrCrcFail ⟨x, image⟩) s = .next t ∧ endAt t x = { k with naking := true } ∧ t.mem = s.mem ∧
          getF t (.swlErrcnt x) F.swlErrcnt_crc_fail = getF s (.swlErrcnt x) F.swlErrcnt_crc_fail ∧
          t.out = (if k.naking then [] else [.sweyrNak x ((k.expect + 255) % 256) (ackOf k)]) ++ s.out) ∧
        (f.type = 1 → f.seq = k.expect → op ∉ [0x01, 0x02, 0x03, 0x04, 0x11, 0x12, 0x13, 0x14, 0x21, 0x31] → none' f.vc → ∃ t, exec (.sweyrCrcFail ⟨x, image⟩) s = .next t ∧
          recorded s t 0x0909 ∧ (endAt t x).expect = (k.expect + 1) % 256 ∧ (f.vc < k.freed.length → (endAt t x).freed.getD f.vc 0 = k.freed.getD f.vc 0 + 1) ∧ t.mem = s.mem) ∧
        (f.type = 2 → f.seq = k.expect → none' f.vc → ∃ t, exec (.sweyrCrcFail ⟨x, image⟩) s = .next t ∧ t.blotter = s.blotter ∧ (endAt t x).expect = (k.expect + 1) % 256 ∧ t.mem = s.mem)) ∧
      ∀ image, readSwlFlit (featureOn (endAt s x) 1) image = none → ∃ t, exec (.sweyrCrcFail ⟨x, image⟩) s = .next t ∧ t.mem = s.mem ∧ endAt t x = { endAt s x with naking := true } ∧
        getF t (.swlErrcnt x) F.swlErrcnt_crc_fail = min (getF s (.swlErrcnt x) F.swlErrcnt_crc_fail + 1) 0xFFFF ∧
        getF t (.swlErrcnt x) F.swlErrcnt_naks = min (getF s (.swlErrcnt x) F.swlErrcnt_naks + if (endAt s x).naking then 0 else 1) 0xFFFF ∧
        t.out = (if (endAt s x).naking then [] else [.sweyrNak x (((endAt s x).expect + 255) % 256) (ackOf (endAt s x))]) ++ s.out)) ∧
  (∀ (s : State) (x : Nat) (val : BitVec 32) (c : Instr), c = .swlRetrain x val ∨ c = .swlRelearn x val ∨ c = .swlDisable x val → endLive s x = true → dieAnswers s (swlEndDie x) → unwatched s →
    let k := endAt s x
    let was := endDisabled s x
    let bit (i : Nat) := val.getLsbD i = true
    let last : Prop := linkOut s (x / 2) = false ∧ linkOut s (x / 2 ^^^ 1) = true
    let taken (t : State) : Prop := flag t (.swlCtl x) F.swlCtl_disable = val.getLsbD 2 ∧ getF t (.swlCtl x) F.swlCtl_rate_cap = bits val.toNat 3 2 ∧ t.mem = s.mem
    let full (t : State) (excl : BitVec 64) (fallback : Bool) : Prop := endAt t x = { SwlEnd.cold with state := .capability, full := true, excl := excl, fallback := fallback }
    (bit 2 → was = false → last → ∃ t, exec c s = .next t ∧ recorded s t 0x090B ∧ t.sweyr = s.sweyr ∧ regVal t (.swlCtl x) = regVal s (.swlCtl x)) ∧
    (bit 2 → was = false → ¬last → ∃ t, exec c s = .next t ∧ taken t ∧ endAt t x = { SwlEnd.cold with excl := k.excl, fallback := k.fallback }) ∧
    (bit 2 → was = true → ∃ t, exec c s = .next t ∧ taken t ∧ t.sweyr = s.sweyr) ∧
    (¬bit 2 → bit 1 → ∃ t, exec c s = .next t ∧ taken t ∧ full t 0 false) ∧
    (¬bit 2 → ¬bit 1 → was = true → ∃ t, exec c s = .next t ∧ taken t ∧ full t k.excl k.fallback) ∧
    (¬bit 2 → ¬bit 1 → was = false → bit 0 → k.state = .down → ∃ t, exec c s = .next t ∧ taken t ∧ full t k.excl k.fallback) ∧
    (¬bit 2 → ¬bit 1 → was = false → bit 0 → k.state = .active → ∃ t, exec c s = .next t ∧ taken t ∧ (endAt t x).state = .retrain ∧ (endAt t x).replay = k.replay) ∧
    (¬bit 2 → ¬bit 1 → was = false → bit 0 → k.state ≠ .down → k.state ≠ .active → ∃ t, exec c s = .next t ∧ taken t ∧ t.sweyr = s.sweyr) ∧
    (¬bit 2 → ¬bit 1 → was = false → ¬bit 0 → ∃ t, exec c s = .next t ∧ taken t ∧ t.sweyr = s.sweyr))

/-! ### The host attachment -/

/-- R396 for the port, R401 to R403 for queues, R404 to R406 for fetches, R409, R410, R413 and R414 for rings, R415 and R416 for the halt. That one slot of a ring stays empty is the
model's reading (log entry 10); records that the memory refuses are a malformed install by the model's choice (log entry 123). -/
def Obligations.QueuesAndEmergencyHalt : Prop :=
  (∀ (s : State) (h : Hdr), Starts s h 0x01 → ∃ t, exec (.nopDescriptor h) s = .next t ∧ finishes s t h 0x01 0 0 [] ∧ t.mem = s.mem ∧ t.regs = s.regs ∧
    (queueAt t h.q).sqHead = ((queueAt s h.q).sqHead + 1) % 2 ^ (queueAt s h.q).sqLog) ∧
  (∀ (s : State) (h : Hdr), Starts s h 0x02 → ∃ t, exec (.fenceDescriptor h) s = .next t ∧ finishes s t h 0x02 0 0 [] ∧ t.mem = s.mem ∧ t.regs = s.regs ∧ inFlight s h.q = 0) ∧
  (∀ (s : State) (width speed : Nat) (cache mem : Bool), 5 ≤ getF s .secBootStatus F.secBootStatus_stage → getF s .secBootStatus F.secBootStatus_stage ≠ 7 → speed < 3 →
    width = 1 ∨ width = 2 ∨ width = 4 ∨ width = 8 → unwatched s →
    let low := speed = 0 ∨ cache = false ∨ mem = false
    ∃ t, exec (.cxlLinkTrain width speed cache mem) s = .next t ∧ t.mem = s.mem ∧ t.host = s.host ∧ getF t .hifLinkStatus F.hifLinkStatus_width = width ∧
      getF t .hifLinkStatus F.hifLinkStatus_speed = speed ∧ flag t .hifLinkStatus F.hifLinkStatus_cache = cache ∧ flag t .hifLinkStatus F.hifLinkStatus_mem = mem ∧
      (low → flag t .hifLinkStatus F.hifLinkStatus_degraded = true ∧ recorded s t 0x0A02) ∧ (¬low → flag t .hifLinkStatus F.hifLinkStatus_degraded = false ∧ t.blotter = s.blotter)) ∧
  (∀ (s : State) (val : BitVec 32), dieAnswers s 16 → setupLocked s = false → unwatched s → s.memp.faults = [] → F.hifQueueInstallCtl_go.of (val.setWidth 64) = 1 →
    let first := F.hifQueueInstallCtl_first.of (val.setWidth 64)
    let count := F.hifQueueInstallCtl_count.of (val.setWidth 64)
    let rec' (i : Nat) := Mem.read s.mem (getF s .hifQueueInstallAddr F.hifQueueInstallAddr_addr * 32 + 32 * i) 32
    let f (i o n : Nat) := field (rec' i) o n
    let good (i : Nat) : Prop := f i 16 1 < 32 ∧ f i 17 1 < 32 ∧ f i 19 1 < 8 ∧ f i 20 12 = 0 ∧
      (f i 19 1 % 2 = 1 → 4 ≤ f i 16 1 ∧ f i 16 1 ≤ 16 ∧ 4 ≤ f i 17 1 ∧ f i 17 1 ≤ 16 ∧ f i 0 8 % 4096 = 0 ∧ f i 8 8 % 4096 = 0)
    let idle (q : Nat) : Prop := (queueAt s q).state = .absent ∨ (queueAt s q).state = .disabled
    let span := (getF s .hifQueueInstallAddr F.hifQueueInstallAddr_addr * 32, 32 * count)
    let ok : Prop := 0 < count ∧ (∀ i < count, good i ∧ idle (first + i)) ∧ mapped s span.1 span.2 = true ∧ memoryRefuses s 16 [span] [] = none
    let status (t : State) (v : Nat) : Prop := getF t .hifQueueInstallCtl F.hifQueueInstallCtl_status = v ∧ t.mem = s.mem
    (128 < first + count → ∃ t, exec (.queueInstallGo val) s = .next t ∧ status t 3 ∧ recorded s t 0x0AF1 ∧ t.host = s.host) ∧
    (first + count ≤ 128 → ¬ok → ∃ t, exec (.queueInstallGo val) s = .next t ∧ status t 4 ∧ recorded s t 0x0A17 ∧ t.host = s.host) ∧
    (first + count ≤ 128 → ok → ∃ t, exec (.queueInstallGo val) s = .next t ∧ status t 2 ∧ t.blotter = s.blotter ∧
      (∀ i < count, queueAt t (first + i) = if f i 19 1 % 2 = 1 then ⟨.disabled, f i 0 8, f i 8 8, f i 16 1, f i 17 1, f i 18 1, (f i 19 1).testBit 1, (f i 19 1).testBit 2, 0, 0, 0, 0, true, 0, 0⟩
        else Queue.absent) ∧ ∀ q < 128, q < first ∨ first + count ≤ q → queueAt t q = queueAt s q)) ∧
  (∀ (s : State) (q : Nat) (val : BitVec 64) (c : Instr), c = .queueEnable q val ∨ c = .queueDisable q val ∨ c = .queueResume q val → q < 128 → dieAnswers s 16 →
    let r := queueAt s q
    let on (i : Nat) := val.getLsbD i = true
    let goes (r' : Queue) : Prop := exec c s = .next (setQueue s q r')
    (on 0 → ¬on 1 → ¬on 2 → r.state = .disabled → goes { r with state := .running, sqHead := 0, sqTail := 0, cqHead := 0, cqTail := 0, phase := true }) ∧
    (on 2 → ¬on 1 → r.state = .frozen → goes { r with state := .running }) ∧
    (on 1 → r.state = .running ∨ r.state = .frozen → s.host.descs = [] → (∀ e < 4, (engineAt s e).posts = []) → s.launches = [] → s.lap.opens = [] → goes { r with state := .stopping }) ∧
    ((on 1 ∧ r.state ≠ .running ∧ r.state ≠ .frozen) ∨ (¬on 1 ∧ on 2 ∧ r.state ≠ .frozen) ∨ (¬on 1 ∧ ¬on 2 ∧ (r.state ≠ .disabled ∨ ¬on 0)) → exec c s = .next s)) ∧
  (∀ (s : State) (q : Nat), let r := queueAt s q
    (r.state = .stopping → inFlight s q = 0 → exec (.queueStopped q) s = .next (setQueue s q { r with state := .disabled })) ∧
    (r.state ≠ .stopping ∨ inFlight s q ≠ 0 → exec (.queueStopped q) s = .next s)) ∧
  (∀ (s : State) (q : Nat) (val : BitVec 32), q < 128 → unwatched s →
    let r := queueAt s q
    let live := r.state ≠ .absent ∧ r.state ≠ .disabled
    let n := 2 ^ r.cqLog
    let passes : Prop := (r.cqTail + n - r.cqHead) % n < (val.toNat + n - r.cqHead) % n
    let ignored (c : Instr) : Prop := (∃ t, exec c s = .next t ∧ recorded s t 0x0A14 ∧ t.host = s.host ∧ t.mem = s.mem)
    (¬live → exec (.submissionTailDoorbell q val) s = .next s ∧ exec (.completionHeadDoorbell q val) s = .next s) ∧
    (live → val.toNat < 2 ^ r.sqLog → exec (.submissionTailDoorbell q val) s = .next (setQueue s q { r with sqTail := val.toNat })) ∧
    (live → 2 ^ r.sqLog ≤ val.toNat → ignored (.submissionTailDoorbell q val)) ∧
    (live → val.toNat < n → ¬passes → exec (.completionHeadDoorbell q val) s = .next (setQueue s q { r with cqHead := val.toNat })) ∧
    (live → n ≤ val.toNat ∨ passes → ignored (.completionHeadDoorbell q val))) ∧
  (∀ (s : State) (q : Nat) (e : Entry), q < 128 → s.blotter.events = [] → s.host.entries.find? (fun x => x.desc.q == q) = some e → (∀ x ∈ s.host.entries, x.desc.id = e.desc.id → x = e) →
    (queueAt s q).cqLog ≤ 16 → (queueAt s q).cqTail < 2 ^ (queueAt s q).cqLog → e.status < 256 → e.code < 65536 → (queueAt s q).sqHead < 65536 → e.result.length ≤ 48 →
    let r := queueAt s q
    let tail := (r.cqTail + 1) % 2 ^ r.cqLog
    let b := hostBase + r.cqBase + r.cqTail * 64
    (tail = r.cqHead → exec (.completionWrite q) s = .next s) ∧
    (tail ≠ r.cqHead → ∃ t, exec (.completionWrite q) s = .next t ∧ t.host.entries = s.host.entries.filter (fun x => x.desc.id != e.desc.id) ∧ t.regs = s.regs ∧
      queueAt t q = { r with cqTail := tail, phase := if tail = 0 then !r.phase else r.phase } ∧ rdN t b 4 = e.desc.tag.toNat ∧ rdN t (b + 4) 2 = q ∧ rdN t (b + 6) 2 = r.sqHead ∧
      rdN t (b + 8) 1 = r.phase.toNat ∧ rdN t (b + 9) 1 = e.status ∧ rdN t (b + 10) 2 = e.code ∧ rdN t (b + 12) 4 = 0 ∧
      Mem.read t.mem (b + 16) e.result.length = e.result ∧ (∀ i < 64, 16 + e.result.length ≤ i → Mem.get t.mem (b + i) = 0) ∧ (∀ a, Apart a 1 b 64 → Mem.get t.mem a = Mem.get s.mem a) ∧
      (e.status ≠ 4 → r.intEn = false ∨ (e.desc.irq = false ∧ e.status = 0) → t.out = s.out ∧ t.msix = s.msix) ∧
      (e.status = 4 ∨ (r.intEn = true ∧ (e.desc.irq = true ∨ e.status ≠ 0)) → if (s.msix.get r.vector ⟨0, 0, 1, false⟩).ctl.getLsbD 0 then (t.msix.get r.vector ⟨0, 0, 1, false⟩).pend = true
        else t.out = .msix r.vector :: s.out))) ∧
  (∀ (s : State) (q p op : Nat), q < 128 → p < 128 → s.host.served < 128 → (∃ r, (p, r) ∈ s.host.queues) → wantsTurn s p = true → p ≠ q →
    (s.host.served < p ∧ p < q) ∨ (q ≤ s.host.served ∧ (s.host.served < p ∨ p < q)) →
    mayStart s q op = false ∧ exec (.descriptorFetch q true) s = .next s ∧ ∀ irq tag, exec (.nopDescriptor ⟨q, tag, irq⟩) s = .next s) ∧
  (∀ (s : State) (q : Nat), mayStart s q 0x01 = true → unwatched s → (∀ d ∈ s.host.descs, d.id ≠ s.nextId) →
    let r := queueAt s q
    let bs := Mem.read s.mem (hostBase + r.sqBase + r.sqHead * 64) 64
    let f (o n : Nat) := field bs o n
    let h : Hdr := ⟨q, BitVec.ofNat 32 (f 4 4), (f 1 1).testBit 0⟩
    let spelt (op : Nat) (c : Instr) : Prop := (f 0 1 = op → badDescriptor bs = false → exec (.descriptorFetch q true) s = exec c s)
    (∃ t, exec (.descriptorFetch q false) s = .next t ∧ (queueAt t q).state = .frozen ∧ (queueAt t q).freezeCode = 0x0A18 ∧ (queueAt t q).freezeIndex = r.sqHead ∧ recorded s t 0x0A18 ∧
      t.mem = s.mem ∧ t.host.entries = s.host.entries ++ [⟨⟨s.nextId, q, r.sqHead, 0, false, 0⟩, 4, 0x0A18, []⟩]) ∧
    (badDescriptor bs = true → mayStart s q (f 0 1) = false → exec (.descriptorFetch q true) s = .next s) ∧
    (badDescriptor bs = true → mayStart s q (f 0 1) = true → ∃ t, exec (.descriptorFetch q true) s = .next t ∧ finishes s t h (f 0 1) 1 0x0A10 [] ∧ recorded s t 0x0A10 ∧ (queueAt t q).state = .running ∧ t.mem = s.mem) ∧
    (f 1 1 > 1 ∨ f 2 2 ≠ 0 ∨ f 0 1 ∉ [1, 2, 0x10, 0x11, 0x12, 0x20, 0x21, 0x30, 0x31, 0x40, 0x41, 0x42, 0x50, 0x51, 0x60, 0x61, 0x62, 0x70, 0x80, 0x81, 0x90] → badDescriptor bs = true) ∧
    spelt 0x01 (.nopDescriptor h) ∧ spelt 0x02 (.fenceDescriptor h) ∧ spelt 0x10 (.loadProgram h (f 8 8) (f 16 2)) ∧
    spelt 0x11 (.launch h (f 8 2) (f 10 1) ((f 11 1).testBit 0) (f 12 2) (f 16 8) (BitVec.ofNat 64 (f 24 8))) ∧ spelt 0x12 (.haltRunners h (f 8 2) (f 10 2) (f 12 1) (f 16 8)) ∧
    spelt 0x20 (.copy h (f 8 8) (f 16 8) (f 24 8)) ∧ spelt 0x21 (.fill h (f 8 8) (BitVec.ofNat 64 (f 16 8)) (f 24 8)) ∧ spelt 0x30 (.relay h (f 8 8) (f 16 1)) ∧
    spelt 0x31 (.layoutInstall h (f 8 2)) ∧ spelt 0x40 (.lapOpen h (f 8 4)) ∧ spelt 0x41 (.lapVote h (f 8 4) ((f 12 1).testBit 0)) ∧ spelt 0x42 (.lapAbort h (f 8 4)) ∧
    spelt 0x50 (.mirror h (f 8 8) (f 16 1)) ∧ spelt 0x51 (.restore h (f 8 8) (f 16 1)) ∧ spelt 0x60 (.lanePlanInstall h (f 8 8)) ∧
    spelt 0x61 (.coordAdopt h (f 8 1 % 16) (f 8 1 / 16) (f 9 1)) ∧ spelt 0x62 (.cablingPlanInstall h (f 8 8)) ∧
    spelt 0x70 (.censusRead h (f 8 2) (f 10 2) (f 12 4) (f 16 8) ((f 24 1).testBit 0)) ∧ spelt 0x80 (.windowGrant h (f 8 1) (f 9 1) (f 10 1) (f 11 1) (f 16 8) (f 24 8)) ∧
    spelt 0x81 (.windowRevoke h (f 8 1)) ∧ spelt 0x90 (.pacerSet h (f 8 1) (f 9 2))) ∧
  (∀ (s : State) (val : BitVec 32), dieAnswers s 16 → unwatched s →
    let active := flag s .hifEmergencyHalt F.hifEmergencyHalt_active = true
    let done : Prop := (∀ p ∈ s.runners, p.2.state = .free ∨ p.2.state = .halted ∨ p.2.state = .frozen) ∧ ∀ g ∈ s.relays.engines, g.2.slots = [] ∧ g.2.posts = []
    (val.getLsbD 0 = true → val.getLsbD 1 = false → active → exec (.emergencyHalt val) s = .next s) ∧
    (val.getLsbD 0 = true → val.getLsbD 1 = false → ¬active → ∃ t, exec (.emergencyHalt val) s = .next t ∧ flag t .hifEmergencyHalt F.hifEmergencyHalt_active = true ∧ recorded s t 0x0A20 ∧
      (∀ w, (runnerAt s w).state = .ready ∨ (runnerAt s w).state = .waiting ∨ (runnerAt s w).state = .halted → (runnerAt t w).state = .halted ∧ waitCause (runnerAt t w) = 15) ∧
      (∀ e < 4, (engineAt t e).slots = [] ∧ (engineAt t e).posts = []) ∧ ∀ l ∈ liveLinks s, (linkAt t l).frozenIn = true ∧ (linkAt t l).freezeReason = 1) ∧
    (val.getLsbD 0 = false → val.getLsbD 1 = true → active → done → ∃ t, exec (.emergencyRelease val) s = .next t ∧ flag t .hifEmergencyHalt F.hifEmergencyHalt_active = false ∧
      t.runners = s.runners ∧ t.fabric = s.fabric ∧ t.mem = s.mem) ∧
    (val.getLsbD 0 = false → val.getLsbD 1 = true → ¬(active ∧ done) → exec (.emergencyRelease val) s = .next s))

/-- R417 to R421; that MAILBOX_READ takes nothing is the model's choice (log entry 11). -/
def Obligations.Mailboxes : Prop :=
  (∀ (s : State) (a r : Nat) (ptr : BitVec 64) (tag : BitVec 32), a < 22 → r < 22 → a ≠ r → unwatched s →
    let k := a * 32 + r
    let box := s.host.mbx.chan.get k Mailbox.empty
    let old := s.host.mbx.legacy.get r Mailbox.empty
    let rung (t : State) (p bit : Nat) : Prop := t.host.mbx.bells.get p 0 = s.host.mbx.bells.get p 0 ||| 1 <<< bit
    let silent (p bit : Nat) : Prop := (s.host.mbx.bells.get p 0).getLsbD bit = true ∨ (s.host.mbx.masks.get p 0xFFFFFFFF).getLsbD bit = true
    let dead : Prop := (2 ≤ r ∧ r < 6 ∧ inReset s (14 + r) = true) ∨ (6 ≤ r ∧ inReset s (r - 6) = true)
    (¬dead → box.full = true → ∃ t, exec (.mailboxPost a r ptr tag) s = .next t ∧ recorded s t 0x0A30 ∧ t.host = s.host) ∧
    (¬dead → box.full = false → ∃ t, exec (.mailboxPost a r ptr tag) s = .next t ∧ t.host.mbx.chan.get k Mailbox.empty = ⟨ptr, tag, a, true, false, false⟩ ∧
      t.host.mbx.sent.get k SendState.none = ⟨ptr, tag, 1⟩ ∧ rung t r a ∧ t.host.mbx.legacy = s.host.mbx.legacy ∧ t.blotter = s.blotter ∧ t.mem = s.mem ∧
      (silent r a → t.out = s.out ∧ t.msix = s.msix)) ∧
    (dead → ∃ t, exec (.mailboxPost a r ptr tag) s = .next t ∧ recorded s t 0x0A32 ∧ t.host.mbx.chan.get k Mailbox.empty = ⟨ptr, tag, a, false, false, false⟩ ∧ t.host.mbx.sent.get k SendState.none = ⟨ptr, tag, 2⟩ ∧ rung t a 31) ∧
    (dead → ∃ t, exec (.legacyPost a r ptr tag) s = .next t ∧ recorded s t 0x0A32 ∧ t.host.mbx.legacy = s.host.mbx.legacy ∧ t.host.mbx.sentLegacy.get k SendState.none = ⟨ptr, tag, 2⟩ ∧
      rung t a 31) ∧
    (¬dead → ∃ t, exec (.legacyPost a r ptr tag) s = .next t ∧ t.host.mbx.legacy.get r Mailbox.empty = ⟨ptr, tag, a, true, old.collision || old.full, false⟩ ∧ rung t r 28 ∧
      t.host.mbx.sentLegacy.get k SendState.none = ⟨ptr, tag, 1⟩ ∧ t.host.mbx.chan = s.host.mbx.chan ∧ (old.full = false → t.blotter = s.blotter) ∧
      (old.full = true → recorded s t 0x0A31 ∧ (old.sender ≠ a → old.sender < 22 → (t.host.mbx.sentLegacy.get (old.sender * 32 + r) SendState.none).state = 3))) ∧
    (∃ t, exec (.mailboxTagRead r a) s = .next t ∧ t.resp = BitVec.ofNat 64 (box.tag.toNat + box.sender * 2 ^ 32 + box.full.toNat * 2 ^ 40 + box.collision.toNat * 2 ^ 41 +
        box.senderReset.toNat * 2 ^ 42) ∧ t.mem = s.mem ∧ t.regs = s.regs ∧ t.host.mbx.bells = s.host.mbx.bells ∧
      (t.host.mbx.chan.get k Mailbox.empty) = { box with full := false } ∧ (box.full = true → (t.host.mbx.sent.get k SendState.none).state = 0)) ∧
    (∀ v, 22 ≤ v → ∃ t, exec (.mailboxTagRead r v) s = .next t ∧ t.resp = BitVec.ofNat 64 (old.tag.toNat + old.sender * 2 ^ 32 + old.full.toNat * 2 ^ 40 + old.collision.toNat * 2 ^ 41 +
        old.senderReset.toNat * 2 ^ 42) ∧ (t.host.mbx.legacy.get r Mailbox.empty) = { old with full := false } ∧ t.mem = s.mem ∧
      (old.full = true → (t.host.mbx.sentLegacy.get (old.sender * 32 + r) SendState.none).state = 0)) ∧
    (∀ legacy : Bool, let v (t : State) := (if legacy then t.host.mbx.sentLegacy else t.host.mbx.sent).get k SendState.none
      ((v s).state = 2 ∨ (v s).state = 3 → ∃ t, exec (.mailboxStateClear a r legacy) s = .next t ∧ v t = { v s with state := 0 } ∧ t.host.mbx.chan = s.host.mbx.chan ∧
        t.host.mbx.legacy = s.host.mbx.legacy ∧ t.mem = s.mem ∧ t.regs = s.regs) ∧
      ((v s).state < 2 → exec (.mailboxStateClear a r legacy) s = .next s))) ∧
  (∀ (s : State), ∃ t, exec .mailboxRead s = .next t ∧ t.host = s.host ∧ t.regs = s.regs ∧ t.mem = s.mem ∧
    t.out = .mctp 0x02 (bytesLE 4 (s.host.mbx.bells.get 1 0).toNat ++ (List.range 22).flatMap (fun x => bytesLE 8 (s.host.mbx.chan.get (x * 32 + 1) Mailbox.empty).ptr.toNat ++
        bytesLE 8 (metaWord (s.host.mbx.chan.get (x * 32 + 1) Mailbox.empty)).toNat) ++
      bytesLE 8 (s.host.mbx.legacy.get 1 Mailbox.empty).ptr.toNat ++ bytesLE 8 (metaWord (s.host.mbx.legacy.get 1 Mailbox.empty)).toNat) :: s.out)

/-! ### Clocks, throttling, supplies and fabric time -/

/-- R31 and R451 for modes, R425 and R426 for clocks, R427 to R429 and R483 for the ladder and trips, R443 for clock loss, R475 to R480 for the supplies. What a reset does is stated by
`Obligations.ResetsAndPowerStates`. -/
def Obligations.ModesThrottleAndSupplies : Prop :=
  (∀ (s : State) (val : BitVec 32), unwatched s → dieAnswers s 16 →
    let m := val.toNat % 4
    let mode (t : State) := getF t .pwrMode F.pwrMode_mode
    let cur (t : State) := getF t .pwrMode F.pwrMode_current
    let chg (t : State) := getF t .pwrMode F.pwrMode_changing
    (m = 3 → ∃ t, exec (.modeChange val) s = .next t ∧ recorded s t 0x0C06 ∧ regVal t .pwrMode = regVal s .pwrMode ∧ t.power = s.power ∧ t.mem = s.mem) ∧
    (m ≠ 3 → ∃ t, exec (.modeChange val) s = .next t ∧ mode t = m ∧ cur t = cur s ∧ t.blotter = s.blotter ∧ t.mem = s.mem ∧ t.runners = s.runners ∧
      (chg s = 1 ∨ cur s = m → chg t = chg s ∧ t.power = s.power) ∧ (chg s = 0 → cur s ≠ m → chg t = 1 ∧ t.power.nextMode = some m)) ∧
    (s.power.nextMode = none → exec .modeChangeComplete s = .next s) ∧
    (∀ n < 4, s.power.nextMode = some n → ∃ t, exec .modeChangeComplete s = .next t ∧ cur t = n ∧ mode t = mode s ∧ t.runners = s.runners ∧ t.accesses = s.accesses ∧
      t.relays = s.relays ∧ t.lap = s.lap ∧ t.mem = s.mem ∧
      (∀ i < 1024, ∀ k, t.power.islands.get? i = some k → k ≤ [1800000, 1500000, 1100000, 1100000].getD n 0) ∧ (mode s = n → chg t = 0 ∧ t.power.nextMode = none) ∧
      (mode s ≠ n → chg t = chg s ∧ t.power.nextMode = some (mode s)))) ∧
  (∀ (s : State) (i khz : Nat),
    let rung := (List.range 4).map (fun c => s.power.rungs.get (i / 64 * 4 + c) 0)
    let goes (v : Nat) : Prop := exec (.adaptiveClockAdjust i khz) s = .next { s with power := { s.power with islands := s.power.islands.set i v } }
    (i < 1024 → ∀ r ∈ rung, (∀ x ∈ rung, x ≤ r) →
      goes (min khz ([1800000, 1500000, 1100000, 1100000].getD (getF s .pwrMode F.pwrMode_current) 0 * (8 - r) / 8))) ∧
    (1152 ≤ i → i < 1168 → goes (min khz 2000000)) ∧ ((1024 ≤ i ∧ i < 1152) ∨ (1168 ≤ i ∧ i < 1320) → goes khz) ∧ (1320 ≤ i → exec (.adaptiveClockAdjust i khz) s = .next s)) ∧
  (∀ (s : State) (d : Nat), d < 16 →
    let rung := (List.range 4).map (fun c => s.power.rungs.get (d * 4 + c) 0)
    let v := viewReg s (.pwrDieThrottle d)
    (∀ r ∈ rung, r < 8 → (∀ x ∈ rung, x ≤ r) → F.pwrDieThrottle_rung.of v = r) ∧
    (∀ c < 4, (F.pwrDieThrottle_cause.of v).testBit c = (rung.getD c 0 != 0)) ∧ F.pwrDieThrottle_tripped.of v = (s.power.tripped.contains d).toNat) ∧
  (∀ (s : State) (d : Nat), d < 20 → unwatched s →
    (s.power.onB.contains d = true → exec (.oscALoss d) s = .next s) ∧
    (s.power.onB.contains d = false → ∃ t, exec (.oscALoss d) s = .next t ∧ recorded s t 0x0B01 ∧ t.power = { s.power with onB := d :: s.power.onB } ∧ t.mem = s.mem ∧
      t.runners = s.runners)) ∧
  (∀ (s : State) (d : Nat) (temp : Int) (pk : Bool), d < 16 → unwatched s →
    let r : Reading := ⟨temp, pk⟩
    let hot : Int := if pk = true then 95 else getF s .pwrThermCfg F.pwrThermCfg_hot
    let taken (t : State) : Prop := getF t (.pwrDieThrottle d) F.pwrDieThrottle_temp = if pk = true then getF s (.pwrDieThrottle d) F.pwrDieThrottle_temp else (temp % 256).toNat
    let events (t : State) := getF t (.pwrDieThrottle d) F.pwrDieThrottle_events
    let rung (t : State) (c : Nat) := t.power.rungs.get (d * 4 + c) 0
    let reads (t : State) : Prop := getF t (.pwrDieThrottle d) F.pwrDieThrottle_temp = (temp % 256).toNat
    let engaged (t : State) (c r : Nat) : Prop := rung t c = r ∧ (∀ c' < 4, c' ≠ c → rung t c' = rung s c') ∧
      events t = (if rung s c = 0 then min (events s + 1) 65535 else events s) ∧ t.mem = s.mem ∧ t.runners = s.runners
    let noted (t : State) (c code : Nat) : Prop :=
      if (s.power.noted.get? (d * 4 + c)).any (fun u => decide (s.clock.ns < u + 10 ^ 9)) = true then t.blotter = s.blotter
      else recorded s t code ∧ t.power.noted.get? (d * 4 + c) = some s.clock.ns
    (inReset s d = true → exec (.rateThrottle d temp) s = .next s ∧ exec (.hotThrottle d r) s = .next s) ∧
    (inReset s d = false → ∃ t, exec (.rateThrottle d temp) s = .next t ∧ reads t ∧ engaged t 0 4 ∧ noted t 0 0x0C01) ∧
    (inReset s d = false → hot ≤ temp → ∃ t, exec (.hotThrottle d r) s = .next t ∧ taken t ∧ engaged t 1 (min 7 (rung s 1 + 1)) ∧
      (rung s 1 = 0 → noted t 1 0x0C03) ∧ (rung s 1 ≠ 0 → t.blotter = s.blotter)) ∧
    (inReset s d = false → temp < hot → ∃ t, exec (.hotThrottle d r) s = .next t ∧ taken t ∧ t.power = s.power ∧ t.blotter = s.blotter) ∧
    (∀ c < 4, ∃ t, exec (.throttleRelease d c) s = .next t ∧ rung t c = rung s c - 1 ∧ (∀ c' < 4, c' ≠ c → rung t c' = rung s c') ∧ t.regs = s.regs ∧ t.mem = s.mem)) ∧
  (∀ (s : State) (watts volts : Nat), unwatched s →
    let rung (t : State) (d c : Nat) := t.power.rungs.get (d * 4 + c) 0
    let noted (t : State) (c code : Nat) : Prop :=
      if (s.power.noted.get? (16 * 4 + c)).any (fun u => decide (s.clock.ns < u + 10 ^ 9)) = true then t.blotter = s.blotter
      else recorded s t code ∧ t.power.noted.get? (16 * 4 + c) = some s.clock.ns
    let beyond := [14500, 11500, 8000, 8000].getD (getF s .pwrMode F.pwrMode_current) 0 * 98 < watts * 100
    let running (d : Nat) : Prop := d < 16 ∧ inReset s d = false
    (∃ t, exec (.ceilingThrottle watts) s = .next t ∧ getF t .pwrInput F.pwrInput_power_w = min watts 65535 ∧
      getF t .pwrInput F.pwrInput_peak_w = max (min watts 65535) (getF s .pwrInput F.pwrInput_peak_w) ∧ t.mem = s.mem ∧ t.runners = s.runners ∧
      (beyond → (∀ d, running d → rung t d 2 = min 7 (rung s d 2 + 1)) ∧ ((∀ d, running d → rung s d 2 = 0) → noted t 2 0x0C02) ∧
        ((∃ d, running d ∧ rung s d 2 ≠ 0) → t.blotter = s.blotter)) ∧ (¬beyond → t.power = s.power ∧ t.blotter = s.blotter)) ∧
    (∃ t, exec (.supplyLow volts) s = .next t ∧ t.power.volts = volts ∧ t.mem = s.mem ∧ t.runners = s.runners ∧
      (volts < 4400 → (∀ d, running d → rung t d 3 = 4) ∧ noted t 3 0x0C05) ∧ (4400 ≤ volts → t.power.rungs = s.power.rungs ∧ t.blotter = s.blotter))) ∧
  (∀ (s : State) (d : Nat) (temp : Int), 16 ≤ d → d < 20 → unwatched s →
    let rung (t : State) (c : Nat) := t.power.rungs.get (d * 4 + c) 0
    (inReset s d = false → getF s .pwrThermCfg F.pwrThermCfg_hot ≤ temp → ∃ t, exec (.hotThrottle d ⟨temp, false⟩) s = .next t ∧
      (F.pwrDieThrottle_cause.of (viewReg t (.pwrDieThrottle d))).testBit 1 = true ∧ F.pwrDieThrottle_rung.of (viewReg t (.pwrDieThrottle d)) = 0 ∧
      t.mem = s.mem ∧ t.runners = s.runners) ∧
    (inReset s d = true → exec (.hotThrottle d ⟨temp, false⟩) s = .next s) ∧ exec (.hotThrottle d ⟨temp, true⟩) s = .next s ∧
    exec (.thermtrip d ⟨temp, true⟩) s = .next s ∧
    (∀ c < 4, ∃ t, exec (.throttleRelease d c) s = .next t ∧ rung t c = rung s c - 1 ∧ (∀ c' < 4, c' ≠ c → rung t c' = rung s c') ∧ t.regs = s.regs ∧ t.mem = s.mem)) ∧
  (∀ (s : State) (d : Nat) (temp : Int) (pk : Bool), d < (if pk = true then 16 else 20) →
    let limit : Int := if pk = true then 105 else 115
    let taken (t : State) : State := if pk = true then t else setF t (.pwrDieThrottle d) F.pwrDieThrottle_temp (wrap 8 temp)
    let reading (t : State) : State := setF t (.pwrDieThrottle d) F.pwrDieThrottle_temp (wrap 8 temp)
    let trips : State := { s with
      out := if s.power.tripped = [] then .pin .thermtripN false :: s.out else s.out
      power := { s.power with tripped := d :: s.power.tripped } }
    let cools : State := reading { s with power := { s.power with tripped := s.power.tripped.filter (· != d) } }
    let cont := if d = 16 then contM else contD
    (limit ≤ temp → s.power.tripped.contains d = false →
      exec (.thermtrip d ⟨temp, pk⟩) s = .next (taken (dieWarmReset d 5 true (raise { code := 0x0C04, cont := cont, die := d } (taken trips))))) ∧
    (temp < limit ∨ s.power.tripped.contains d = true → exec (.thermtrip d ⟨temp, pk⟩) s = .next s) ∧
    (s.power.tripped.contains d = false ∨ getF s .pwrThermCfg F.pwrThermCfg_resume < temp → exec (.thermtripResume d temp) s = .next s) ∧
    (s.power.tripped.contains d = true → temp ≤ getF s .pwrThermCfg F.pwrThermCfg_resume → ∀ r, s.power.resets.get? d = some r →
      ∃ t, exec (.thermtripResume d temp) s = .next t ∧ t.power.tripped = s.power.tripped.filter (· != d) ∧
        t.power.resets.get? d = some { r with held := r.held && mustStay cools d } ∧
        t.out = (if t.power.tripped = [] then .pin .thermtripN true :: s.out else s.out) ∧ t.regs = cools.regs ∧ t.mem = s.mem) ∧
    (let dark : State := { s with power := { s.power with noRef := d :: s.power.noRef.filter (· != d) } }
     exec (.bothRefLoss d) s = .next (dieWarmReset d 4 true (raise { code := 0x0B02, cont := contD, die := d } dark))) ∧
    (s.power.noRef.contains d = false → exec (.referenceRestored d) s = .next s) ∧
    (let back : State := { s with power := { s.power with noRef := s.power.noRef.filter (· != d) } }
     s.power.noRef.contains d = true → ∀ r, s.power.resets.get? d = some r → ∃ t, exec (.referenceRestored d) s = .next t ∧ t.mem = s.mem ∧ t.regs = s.regs ∧
      t.power.noRef = back.power.noRef ∧ t.power.resets.get? d = some { r with held := r.held && mustStay back d })) ∧
  (∀ (s : State) (d : Nat), mustStay s d = true ↔ s.power.tripped.contains d = true ∨ s.power.noRef.contains d = true ∨ s.memp.trained.get? d = some false ∨
    (getF s .secBootStatus F.secBootStatus_die_fail).testBit d = true ∨ (getF s .secBootStatus F.secBootStatus_stage = 7 ∧ d ≠ 16)) ∧
  (∀ (s : State) (volts : Nat), unwatched s →
    let low (t : State) : State := { t with
      out := if s.power.pwrgd = true then .pin .pwrgd false :: s.out else s.out
      power := { s.power with volts := volts, pwrgd := false } }
    let deep := getF s .pwrState F.pwrState_state = 3
    let after : State := if deep then low s else coldReset (low s)
    let ovDue := 5800 < volts ∧ s.power.ovAt.any (fun u => decide (s.clock.ns < u + 3600 * 10 ^ 9)) = false
    (4000 ≤ volts → exec (.supplyLoss volts) s = .next s) ∧ (volts < 4000 → exec (.supplyLoss volts) s = .next after) ∧
    (ovDue → ∃ t, exec (.inputOvervoltage volts) s = .next t ∧ recorded s t 0x0C0A ∧ t.power = { s.power with volts := volts, ovAt := some s.clock.ns } ∧ t.mem = s.mem) ∧
    (¬ovDue → exec (.inputOvervoltage volts) s = .next { s with power := { s.power with volts := volts } }) ∧
    (volts ≤ 6000 → exec (.inputSwitchOpen volts) s = .next s) ∧
    (6000 < volts → exec (.inputSwitchOpen volts) s = .next { after with power := { after.power with switchOpen := true, ovAtBoot := decide (1100 ≤ after.power.auxVolts) } }) ∧
    exec (.inputSwitchReclose volts) s = .next (if s.power.switchOpen = true ∧ 4400 ≤ volts ∧ volts ≤ 5800 then
      { s with power := { s.power with switchOpen := false, volts := volts } } else s) ∧
    (let lost : State := { s with power := { s.power with auxVolts := volts, ovAtBoot := s.power.ovAtBoot && !s.power.switchOpen } }
     let due := 4000 ≤ s.power.volts ∧ s.power.switchOpen = false ∧ s.power.auxNoted = false
     (1100 ≤ volts → exec (.auxLost volts) s = .next s) ∧ (volts < 1100 → deep → exec (.auxLost volts) s = .next (coldReset lost)) ∧
     (volts < 1100 → ¬deep → ¬due → exec (.auxLost volts) s = .next lost) ∧
     (volts < 1100 → ¬deep → due → ∃ t, exec (.auxLost volts) s = .next t ∧ recorded s t 0x0C0B ∧ t.power = { lost.power with auxNoted := true } ∧ t.mem = s.mem)) ∧
    exec (.auxRestored volts) s = .next (if 1140 ≤ volts ∧ volts ≤ 1260 then { s with power := { s.power with auxVolts := volts, auxNoted := false } } else s) ∧
    (s.power.switchOpen = true ∨ s.power.pwrgd = true → exec .powerUp s = .next s) ∧
    (s.power.switchOpen = false → s.power.pwrgd = false →
      let up : State := { s with out := .pin .pwrgd true :: s.out, power := { s.power with pwrgd := true, volts := max 4400 s.power.volts } }
      exec .powerUp s = if getF s .pwrState F.pwrState_state = 3 ∧ getF s .pwrState F.pwrState_status = 1 then exec .activeRequest up else .next up))

/-- R430 to R439. Times are in 2^-16 ns; `measures` is a link that is Up at fabric level 1.2, `mayParent` one whose channel is Open and whose peer announces a path to the
pacer. -/
def Obligations.FabricTime : Prop :=
  (∀ (s : State) (h : Hdr) (mode coord : Nat), Starts s h 0x90 → unwatched s → (∀ c ∈ s.fabric.plan.elim [] (·.members), c < 65536) →
    let members := s.fabric.plan.elim [] (·.members)
    let known := flag s .timPacer F.timPacer_valid
    let old := getF s .timPacer F.timPacer_coord
    let pacer (t : State) (n : Nat) : Prop :=
      let self : Prop := hasCoord s = true ∧ coordOf s = n
      let alone : Prop := ∀ l ∈ s.clock.heard.map (·.1), mayParent t l = false
      getF t .timPacer F.timPacer_coord = n ∧ flag t .timPacer F.timPacer_valid = true ∧ (flag t .timStatus F.timStatus_pacer = true ↔ self) ∧
      (known = true → old ≠ n → recorded s t 0x0B03) ∧ (self → known = false ∨ old = n → t.blotter = s.blotter) ∧
      (known = false ∨ old ≠ n →
        (self → getF t .timStatus F.timStatus_hops = 0) ∧ (¬self → alone → getF t .timStatus F.timStatus_hops = 255 ∧ t.clock.parent = none ∧ recorded s t 0x0B04) ∧
        (¬self → ¬alone → ∃ l ∈ s.clock.heard.map (·.1), t.clock.parent = some l ∧ mayParent t l = true)) ∧ t.mem = s.mem
    (mode % 2 = 1 → coord ∈ members → ∃ t, exec (.pacerSet h mode coord) s = .next t ∧ finishes s t h 0x90 0 0 [] ∧ pacer t coord ∧ getF t .timPacer F.timPacer_named = 1) ∧
    (mode % 2 = 1 → coord ∉ members → ∃ t, exec (.pacerSet h mode coord) s = .next t ∧ finishes s t h 0x90 1 0x0B06 [] ∧ recorded s t 0x0B06 ∧ regVal t .timPacer = regVal s .timPacer ∧
      regVal t .timStatus = regVal s .timStatus ∧ t.clock = s.clock) ∧
    (mode % 2 = 0 → ∀ n ∈ members, (∀ x ∈ members, coordOrder n ≤ coordOrder x ∧ (coordOrder x = coordOrder n → x = n)) →
      ∃ t, exec (.pacerSet h mode coord) s = .next t ∧ finishes s t h 0x90 0 0 [] ∧ pacer t n ∧ getF t .timPacer F.timPacer_named = 0)) ∧
  (∀ (s : State) (l : Nat) (m : TimeMsg), unwatched s →
    let st (t : State) (f : Fld) := getF t .timStatus f
    let k := splitOf s l
    let heard := s.clock.heard.set l ⟨m.hops, m.pacer, (linkAt s l).peer.elim 0 (·.coord)⟩
    let sees := isPacer s = false ∧ flag s .timPacer F.timPacer_valid = true
    (measures s l = false → exec (.timeMessage ⟨l, true⟩ m) s = .next s ∧ (∀ n, exec (.splitMarker l n) s = .next s) ∧ exec (.splitMeasure l) s = .next s) ∧
    (measures s l = true → ∃ t, exec (.timeMessage ⟨l, true⟩ m) s = .next t ∧ t.clock.heard = heard ∧ t.mem = s.mem ∧ t.out = s.out ∧
      (isPacer s = true → t.clock = { s.clock with heard := heard } ∧ t.regs = s.regs) ∧
      (sees → ∀ p, t.clock.parent = some p → mayParent t p = true ∧ (∀ x ∈ heard.map (·.1), mayParent t x = true → (heardOf t p).hops ≤ (heardOf t x).hops) ∧
        st t F.timStatus_hops = min 255 ((heardOf t p).hops + 1) ∧ st t F.timStatus_parent_fibre = fibreOf p % 32 ∧
        (p ≠ l → t.blotter = s.blotter ∧ timeUnits t = timeUnits s)) ∧
      (sees → t.clock.parent = none → (∀ x ∈ heard.map (·.1), mayParent t x = false) ∧ st t F.timStatus_hops = 255 ∧ st t F.timStatus_parent_fibre = 31 ∧
        st t F.timStatus_state = 0 ∧ t.clock.steer = 0 ∧ t.clock.noPath = true ∧ (s.clock.noPath = false → recorded s t 0x0B04) ∧
        (s.clock.noPath = true → t.blotter = s.blotter)) ∧
      (sees → t.clock.parent = some l → m.seen = k.sent → m.sent = k.seen →
        let t2 : Int := (m.seenNs * 65536 + m.seenFrac : Nat)
        let t3 : Int := (m.sentNs * 65536 + m.sentFrac : Nat)
        let d := ((t2 - k.sentAt) + (k.seenAt - t3)) / 2
        let θ := ((k.seenAt - t3) - (t2 - k.sentAt)) / 2
        st t F.timStatus_delay = min 65535 (d / 65536).toNat ∧ st t F.timStatus_offset = (max (-32768) (min 32767 (θ / 65536)) % 65536).toNat ∧
        (10000 * 65536 < θ.natAbs → timeUnits t = ((timeUnits s - θ) % 2 ^ 80).toNat ∧ recorded s t 0x0B05 ∧ st t F.timStatus_state = 1) ∧
        (θ.natAbs ≤ 10000 * 65536 → timeUnits t = timeUnits s ∧ t.clock.steer = -θ ∧ t.clock.steerMax * 1000000 ≤ 200 * 65536 ∧ t.blotter = s.blotter ∧
          (st t F.timStatus_state = 2 → θ.natAbs ≤ 4 * 65536)))) ∧
    (measures s l = true → ∀ n, ((∀ j, (linkAt s l).marker ≠ some (n, j + 1)) → ∃ t, exec (.splitMarker l n) s = .next t ∧
        t.clock = { s.clock with splits := s.clock.splits.set l { k with seen := n % 4096, seenAt := timeUnits s } } ∧ linkAt t l = { linkAt s l with marker := some (n, 3) } ∧
        t.regs = s.regs ∧ t.mem = s.mem) ∧
      ∀ j, (linkAt s l).marker = some (n, j + 1) → exec (.splitMarker l n) s = .next (modLink l (fun k => { k with marker := some (n, j) }) s)) ∧
    (measures s l = true → s.fabric.held.contains (fibreOf l) = true → exec (.splitMeasure l) s = .next s) ∧
    (measures s l = true → s.fabric.held.contains (fibreOf l) = false →
      (∀ c ∈ (chanOf s l).toList, (chanAt s (edOf l) c).c3 = [] ∧ ∀ j < 3, waitingFor s (edOf l) c j = []) → ∃ t, exec (.splitMeasure l) s = .next t ∧
      let k' : Split := { k with sent := (k.sent + 1) % 4096, sentAt := timeUnits s }
      t.clock = { s.clock with splits := s.clock.splits.set l k' } ∧ t.mem = s.mem ∧ t.regs = s.regs ∧
      t.out = .timeMessage l ⟨st s F.timStatus_hops, getF s .timPacer F.timPacer_coord, k'.sent, k'.sentAt / 65536, k'.sentAt % 65536, k.seen, k.seenAt / 65536, k.seenAt % 65536,
        st s F.timStatus_state⟩ :: (if (linkAt s l).txActive = 0 then s.out
          else .control l (((List.range 16).find? (fun n => (linkAt s l).txActive.testBit n)).getD 0) 5 k'.sent :: s.out))) ∧
  (∀ (s : State) (x ns frac : Nat),
    let e := endAt s x
    let live := endLive s x = true ∧ e.state = .active ∧ swlEndDie x ≠ 16
    let goes : Host.Outcome State Fault Refusal := .next { s with clock := { s.clock with
      dieOff := s.clock.dieOff.set (swlEndDie x) (max (-65536) (min 65536 ((ns * 65536 + frac : Nat) - (timeUnits s : Int)))) } }
    exec (.sweyrSplitMarker x ns frac) s = (if live ∧ featureOn e 1 = true then goes else .next s) ∧
    exec (.time x ns frac) s = (if live ∧ featureOn e 1 = false then goes else .next s)) ∧
  (∀ (s : State) (ns : Nat), unwatched s →
    let st (t : State) (f : Fld) := getF t .timStatus f
    let takes := isPacer s = true ∧ flag s .timCtl F.timCtl_pps_in = true
    let locked := flag s .timStatus F.timStatus_pps_locked = true
    let e : Int := ns - getF s .timCtl F.timCtl_cable_ns
    let past := e % (1000000000 : Int)
    let off := if past < 500000000 then past else past - 1000000000
    let bad (t : State) : Prop := st t F.timStatus_pps_locked = 0 ∧ st t F.timStatus_state = 3 ∧ recorded s t 0x0B07 ∧ t.clock.badEdges = 0 ∧ timeUnits t = timeUnits s ∧ t.mem = s.mem
    (¬takes → exec (.ppsInEdge ns) s = .next s) ∧
    (takes → ¬locked → ∃ t, exec (.ppsInEdge ns) s = .next t ∧ timeUnits t = ((timeUnits s - past * 65536) % 2 ^ 80).toNat ∧ recorded s t 0x0B05 ∧
      st t F.timStatus_pps_locked = 1 ∧ t.clock.badEdges = 0 ∧ t.mem = s.mem) ∧
    (takes → locked → off.natAbs ≤ 1000 → ∃ t, exec (.ppsInEdge ns) s = .next t ∧ t.clock.steer = -off * 65536 ∧ t.clock.steerMax * 1000000 ≤ 50 * 65536 ∧
      t.clock.badEdges = 0 ∧ t.regs = s.regs ∧ timeUnits t = timeUnits s ∧ t.mem = s.mem) ∧
    (takes → locked → 1000 < off.natAbs → s.clock.badEdges < 2 → exec (.ppsInEdge ns) s = .next { s with clock := { s.clock with badEdges := s.clock.badEdges + 1 } }) ∧
    (takes → locked → 1000 < off.natAbs → 2 ≤ s.clock.badEdges → ∃ t, exec (.ppsInEdge ns) s = .next t ∧ bad t) ∧
    (takes → locked → ∃ t, exec .ppsInTimeout s = .next t ∧ bad t) ∧ (¬takes ∨ ¬locked → exec .ppsInTimeout s = .next s)) ∧
  (∀ (s : State) (val : BitVec 64), unwatched s →
    let rise : State := { s with clock := { s.clock with ppsNamed := some ((s.clock.ns + 2) / 1000000000 * 1000000000) } }
    exec .ppsOutRise s = .next (if flag s .timCtl F.timCtl_pps_out = true then { rise with out := .pin .ppsOut true :: s.out } else rise) ∧
    (flag s .timCtl F.timCtl_tod_out = false ∨ s.clock.ppsNamed = none → exec .todFrameSend s = .next s) ∧
    (∀ u, s.clock.ppsNamed = some u → flag s .timCtl F.timCtl_tod_out = true → ∃ b : List Byte, exec .todFrameSend s = .next { s with out := .tod b :: s.out } ∧
      b.length = 24 ∧ b.take 4 = [0x5A, 0x54, 24, 1] ∧ field b 4 8 = u % 2 ^ 64 ∧ field b 12 1 = getF s .timStatus F.timStatus_state ∧
      field b 13 1 = getF s .timStatus F.timStatus_pacer + 2 * getF s .timStatus F.timStatus_pps_locked ∧ field b 14 2 = getF s .timPacer F.timPacer_coord ∧
      field b 16 1 = getF s .timStatus F.timStatus_hops ∧ field b 17 3 = 0 ∧ field b 20 4 = crc32c (b.take 20)) ∧
    (isPacer s = true → dieAnswers s 16 → ∃ t, exec (.timSet val) s = .next t ∧ t.clock = { s.clock with ns := val.toNat, frac := 0, steer := 0 } ∧ recorded s t 0x0B05 ∧ t.mem = s.mem) ∧
    (isPacer s = false → dieAnswers s 16 → ∃ t, exec (.timSet val) s = .next t ∧ t.clock = s.clock ∧ recorded s t 0x0B08 ∧ t.mem = s.mem) ∧
    (inReset s 16 = true → exec .timNowRead s = .next { s with resp := BitVec.allOnes 64 }) ∧
    (inReset s 16 = false → ∃ t, exec .timNowRead s = .next t ∧ t.resp = BitVec.ofNat 64 s.clock.ns ∧ getF t .timNowFrac F.timNowFrac_frac = s.clock.frac % 65536 ∧ t.mem = s.mem ∧ t.clock = s.clock))

/-! ### Resets and power states -/

/-- R440 to R450, with R13 and R14 for register fields and Table 15.22 for causes. The ranges of SRAM are a die's wells, folios and tiles with vector registers. -/
def Obligations.ResetsAndPowerStates : Prop :=
  (∀ (s : State), ∃ t, exec .coldReset s = .next t ∧ (∀ r, regVal t r = regVal State.reset r) ∧ (∀ a < hostBase, Mem.get t.mem a = 0) ∧
    (∀ a, hostBase ≤ a → Mem.get t.mem a = Mem.get s.mem a) ∧ t.runners = [] ∧ t.host = State.reset.host ∧ t.windows = [] ∧ t.progs = [] ∧ t.fabric = State.reset.fabric ∧
    t.lap = State.reset.lap ∧ t.relays = State.reset.relays ∧ t.power.resets = [] ∧ t.power.rungs = [] ∧ t.pending = s.pending ∧ t.out = s.out ∧
    (∀ k, (t.light.lines.get? k).map (·.p0) = (s.light.lines.get? k).map (·.p0)) ∧ (∀ i, (t.light.sources.get? i).all (fun c => !c.en) = true) ∧
    t.sec.slot = s.sec.slot ∧ t.sec.svn = s.sec.svn) ∧
  (∀ (s : State) (cause : Nat), s.newMaps = [] → s.memp.dead = [] → s.power.saved = [] → (∀ d < 16, regVal s (.cmpMemInterleave d) = coldOf (.cmpMemInterleave d)) →
    (cause = 0 ∨ 7 < cause → exec (.moduleWarmReset cause) s = .next s) ∧
    (1 ≤ cause → cause ≤ 7 → ∃ t, exec (.moduleWarmReset cause) s = .next t ∧ (∀ d < 20, t.power.resets.get? d = some ⟨cause, d == 16 && (s.power.tripped.contains 16 || s.power.noRef.contains 16)⟩) ∧
      (∀ r, ∀ f ∈ r.fields, f.lo + f.width ≤ 64 → f.cold < 2 ^ f.width → r ≠ .pwrResetCause → (cause = 3 → errKept r = false) →
        getF t r f = if f.w then getF s r f else f.cold) ∧
      getF t .pwrResetCause F.pwrResetCause_cause = cause ∧ (∀ a < 0x600_0000_0000, Mem.get t.mem a = Mem.get s.mem a) ∧
      (∀ a, 0x600_0000_0000 ≤ a → a < hostBase → Mem.get t.mem a = 0) ∧ (∀ a, hostBase ≤ a → Mem.get t.mem a = Mem.get s.mem a) ∧ t.runners = [] ∧ t.progs = [] ∧
      t.host = State.reset.host ∧ t.windows = [] ∧ t.fabric = State.reset.fabric ∧ t.lap = State.reset.lap ∧ t.relays = State.reset.relays ∧ t.memp.poison = s.memp.poison ∧
      t.power.rungs = [] ∧ t.light.sources = s.light.sources ∧ t.sec.slot = s.sec.slot ∧ (cause ≠ 3 → t.blotter.ring = s.blotter.ring) ∧ (cause = 3 → t.blotter.ring = [])) ∧
    (∀ c, exec (.dieWarmReset 16 c) s = exec (.moduleWarmReset (if c = 3 then 4 else if c = 4 then 5 else if c = 5 then 6 else if c = 6 then 7 else 3)) s)) ∧
  (∀ (s : State) (d cause : Nat), d < 20 → d ≠ 16 → unwatched s →
    (∀ r, s.power.resets.get? d = some r → ∃ t, exec (.dieWarmReset d cause) s = .next t ∧ recorded s t 0x0C08 ∧ t.power.resets.get? d = some ⟨cause, r.held⟩ ∧
      (s.relays = State.reset.relays → s.accesses = [] → s.cores = [] → s.sweyr.arbs = [] → (∀ p ∈ s.runners, p.2.state ≠ .waiting) →
        (s.lap = State.reset.lap → t.mem = s.mem ∧ t.runners = s.runners ∧ t.lap = s.lap) ∧
        (s.lap.state = 0 → ∀ o ∈ openLaps s, (flagsOf t o.lap).testBit 3 = true))) ∧
    (d < 16 → s.power.resets = [] → s.memp.dead = [] → s.lap = State.reset.lap → s.relays = State.reset.relays → s.launches = [] → s.shares = [] → s.halts = [] →
      s.accesses = [] → s.cores = [] → s.heat.entries = [] → s.newMaps = [] → s.blotter.events = [] →
      ∃ t, exec (.dieWarmReset d cause) s = .next t ∧ recorded s t 0x0C08 ∧ t.power.resets = [(d, ⟨cause, false⟩)] ∧ inReset t d = true ∧
        (∀ w, dieOfRunner w = d → runnerAt t w = Runner.free) ∧ (∀ w, dieOfRunner w ≠ d → runnerAt t w = runnerAt s w) ∧ t.progs.get? d = none ∧
        (∀ a, sram d a → ¬keptTable s a → Mem.get t.mem a = 0) ∧ (∀ a, ¬sram d a ∨ keptTable s a → Mem.get t.mem a = Mem.get s.mem a) ∧ t.windows = s.windows ∧ t.host.queues = s.host.queues ∧
        (∀ r, r.holder = d → ∀ f ∈ r.fields, f.lo + f.width ≤ 64 → f.cold < 2 ^ f.width → getF t r f = if f.d then getF s r f else f.cold)) ∧
    (s.power.resets.get? d = none → exec (.dieResetReady d) s = .next s) ∧
    (∀ r, s.power.resets.get? d = some r → r.held = true ∨ (s.power.resets.get? 16).isSome = true → exec (.dieResetReady d) s = .next s) ∧
    (∀ r, s.power.resets.get? d = some r → r.held = false → s.power.resets.get? 16 = none → ∃ t, exec (.dieResetReady d) s = .next t ∧ recorded s t 0x0C09 ∧
      t.power.resets.get? d = none ∧ t.mem = s.mem ∧ t.runners = s.runners)) ∧
  (∀ (s : State), s.relays.installs = [] → dieAnswers s 16 → ∃ t, exec .jobReset s = .next t ∧ (∀ w, runnerAt t w = Runner.free) ∧ t.accesses = [] ∧ t.shares = [] ∧ t.hurdles = [] ∧
    t.heat.entries = [] ∧ t.heat.posts = [] ∧ t.census = Census.cold ∧ t.lap.state = 0 ∧ t.lap.older = none ∧ t.lap.spec = none ∧ t.lap.opens = [] ∧ t.lap.votes = [] ∧
    (∀ e < 4, (engineAt t e).slots = [] ∧ (engineAt t e).posts = []) ∧ t.progs = s.progs ∧ t.windows = s.windows ∧ t.host.queues = s.host.queues ∧ t.host.mbx = s.host.mbx ∧
    t.fabric.plan = s.fabric.plan ∧ t.fabric.links = s.fabric.links ∧ t.power = s.power ∧ t.clock = s.clock ∧
    (∀ d < 16, ∀ a, sram d a → ¬keptTable s a → a < getF s .lapRecordBase F.lapRecordBase_base * 64 ∨ getF s .lapRecordBase F.lapRecordBase_base * 64 + 64 ≤ a → Mem.get t.mem a = 0) ∧
    (∀ a, (∀ d < 16, ¬sram d a) ∨ keptTable s a → a < getF s .lapRecordBase F.lapRecordBase_base * 64 ∨ getF s .lapRecordBase F.lapRecordBase_base * 64 + 64 ≤ a →
      Mem.get t.mem a = Mem.get s.mem a) ∧
    (∀ r, ∀ f ∈ r.fields, f.acc = .rw ∨ f.acc = .rwl → f.lo + f.width ≤ 64 → f.cold < 2 ^ f.width → getF t r f = if f.j then getF s r f else f.cold)) ∧
  (∀ (s : State) (val : BitVec 32), dieAnswers s 16 → s.halts = [] → s.launches = [] → s.heat = Heat.cold → (∀ p ∈ s.runners, p.2.state ≠ .waiting) →
    let d := val.toNat % 16
    let k := d * 64 + val.toNat / 16 % 64
    let go := val.getLsbD 10 = true
    let named (t : State) : Prop := getF t .pwrCoreReset F.pwrCoreReset_die = d ∧ getF t .pwrCoreReset F.pwrCoreReset_core = val.toNat / 16 % 64
    let mine (a : Nat) : Prop := (folioAddr k ≤ a ∧ a < folioAddr k + 0x20_0000) ∨ (tileBlock k ≤ a ∧ a < tileBlock k + 0x4_0000)
    (s.power.resetCore ≠ none ∨ ¬go ∨ inReset s d = true → ∃ t, exec (.coreReset val) s = .next t ∧ named t ∧ t.mem = s.mem ∧ t.runners = s.runners ∧
      t.power = s.power ∧ flag t .pwrCoreReset F.pwrCoreReset_busy = flag s .pwrCoreReset F.pwrCoreReset_busy) ∧
    (s.power.resetCore = none → go → inReset s d = false → ∃ t, exec (.coreReset val) s = .next t ∧ named t ∧ t.power.resetCore = some k ∧
      flag t .pwrCoreReset F.pwrCoreReset_busy = true ∧ (∀ w, coreOf w = k → runnerAt t w = Runner.free) ∧ (∀ w, coreOf w ≠ k → runnerAt t w = runnerAt s w) ∧
      (∀ a, mine a → Mem.get t.mem a = 0) ∧ (∀ a, ¬mine a → Mem.get t.mem a = Mem.get s.mem a) ∧ (coreAt t k).array = [] ∧ (∀ a ∈ t.accesses, coreOf a.runner ≠ k) ∧
      (∀ r, coreReg k r = true → regVal t r = coldOf r) ∧ (∀ r, coreReg k r = false → r ≠ .pwrCoreReset → regVal t r = regVal s r)) ∧
    (∃ t, exec .coreResetComplete s = .next t ∧ flag t .pwrCoreReset F.pwrCoreReset_busy = false ∧ t.power.resetCore = none ∧ (∀ r, r ≠ .pwrCoreReset → regVal t r = regVal s r) ∧ t.mem = s.mem ∧
      t.runners = s.runners)) ∧
  (∀ (s : State) (deep : Bool), unwatched s →
    let now := getF s .pwrState F.pwrState_state
    let target := if deep then 3 else 2
    let c : Instr := if deep then .deepParkRequest else .parkRequest
    let shows (t : State) (st status : Nat) : Prop := getF t .pwrState F.pwrState_state = st ∧ getF t .pwrState F.pwrState_status = status
    let noAux : Prop := deep = true ∧ s.power.auxVolts < 1140
    let refused : Prop := s.lap.state ≠ 0 ∨ openLaps s ≠ [] ∨ (∃ p ∈ s.runners, p.2.state ≠ .free) ∨ (∃ g ∈ s.relays.engines, g.2.slots ≠ [] ∨ g.2.posts ≠ []) ∨
      (∃ d < 20, inReset s d = true) ∨ installing s = true ∨ now = 1 ∨ now = 3 ∨ now = 4 ∨ noAux
    (deep = false → now = 2 → ∃ t, exec c s = .next t ∧ shows t 2 2 ∧ t.power = s.power ∧ t.mem = s.mem) ∧
    (deep = true ∨ now ≠ 2 → refused → ∃ t, exec c s = .next t ∧ shows t now 3 ∧ recorded s t 0x0C07 ∧ t.power = s.power ∧ t.mem = s.mem) ∧
    (deep = true ∨ now ≠ 2 → ¬refused → ∃ t, exec c s = .next t ∧ shows t 1 1 ∧ t.power = { s.power with target := target } ∧ t.mem = s.mem ∧ t.blotter = s.blotter) ∧
    (now ≠ 1 → exec .parkEntryComplete s = .next s) ∧ (now ≠ 4 → exec .parkExitComplete s = .next s) ∧
    (now = 1 → s.power.target = target → s.memp.marked = [] → (∀ l ∈ liveLinks s, (linkAt s l).state = .dark) → ∃ t, exec .parkEntryComplete s = .next t ∧ shows t target 2 ∧ t.progs = [] ∧ t.hurdles = [] ∧
      t.power.rungs = [] ∧ (∀ d < 16, ∀ a, sram d a → Mem.get t.mem a = 0) ∧ (∀ a, (∀ d < 16, ¬sram d a) → Mem.get t.mem a = Mem.get s.mem a) ∧ t.windows = s.windows ∧
      t.host = s.host ∧ (∀ i < 2, deep = true → (t.light.sources.get? i).all (fun x => !x.en) = true) ∧
      (s.power.saved = [] → now = 1 → ∀ r, r.holder < 20 → ∀ f ∈ r.fields, f.acc = .rw ∨ f.acc = .rwl → f.lo + f.width ≤ 64 → f.cold < 2 ^ f.width →
        f.of (((t.power.saved ++ t.regs).find? (·.1 == r)).elim (coldOf r) (·.2)) = if f.p then getF s r f else f.cold)) ∧
    (now = 4 → ∃ t, exec .parkExitComplete s = .next t ∧ shows t 0 2 ∧ t.power.saved = [] ∧ t.mem = s.mem ∧ (∀ p ∈ s.power.saved, ∀ q, p.1.holder < 16 →
      s.power.saved.find? (·.1 == p.1) = some q → regVal t p.1 = q.2)) ∧
    (now = 2 ∨ (now = 3 ∧ 4400 ≤ s.power.volts) → ∃ t, exec .activeRequest s = .next t ∧ shows t 4 1 ∧ t.mem = s.mem) ∧
    (now = 0 → ∃ t, exec .activeRequest s = .next t ∧ shows t 0 2 ∧ t.mem = s.mem ∧ t.power = s.power) ∧
    (now = 3 → s.power.volts < 4400 → ∃ t, exec .activeRequest s = .next t ∧ shows t 3 1 ∧ t.mem = s.mem ∧ t.power = s.power ∧ t.light = s.light) ∧
    (now ≠ 0 → now ≠ 2 → now ≠ 3 → exec .activeRequest s = .next s))

/-! ### Boot, firmware, management and attestation -/

/-- R456 to R464, R467, R468, R470, R471 and R473. `imageFault` gives the error of the first check of R455 that an image fails; `tokenGood` the tests of R470. Codes and layouts of
MCTP, PLDM and SPDM messages are the model's reading of their own standards (log entries 73, 79, 81 and 82). -/
def Obligations.BootFirmwareAndManagement : Prop :=
  (∀ (s : State), unwatched s → s.power.ovAtBoot = false → s.memp.marked = [] →
    let ed0 := s.power.resets.get? 16
    let fault := imageFault s s.sec.slot
    let stageOf (t : State) := getF t .secBootStatus F.secBootStatus_stage
    let recovery := fault ≠ none ∨ (flag s .secFwCtl F.secFwCtl_force_recovery = true ∧ ed0.isSome = true)
    let armed := flag s .secDebugStatus F.secDebugStatus_armed
    let starts (t : State) : Prop := t.power.resets.get? 16 = none ∧ flag t .secFwCtl F.secFwCtl_force_recovery = false ∧ flag t .secDebugStatus F.secDebugStatus_armed = false ∧
      flag t .secDebugStatus F.secDebugStatus_unlocked = armed ∧ regVal t .secDebugNonce = Config.freeValue s.free ∧ t.mem = s.mem ∧ t.sec.slot = s.sec.slot
    (stageOf s ≠ 0 ∨ ed0.any (·.held) = true ∨ s.power.pwrgd = false → exec (.boot []) s = .next s) ∧
    (stageOf s = 0 → ed0.any (·.held) = false → s.power.pwrgd = true → recovery → ∃ t, exec (.boot []) s = .next t ∧ starts t ∧ stageOf t = 7 ∧ recorded s t 0x0D05 ∧ t.sec.running = [] ∧
      (∀ c, fault = some c → recorded s t c) ∧ (∀ d < 20, d ≠ 16 → (t.power.resets.get? d).any (·.held) = true)) ∧
    (stageOf s = 0 → ed0.any (·.held) = false → s.power.pwrgd = true → ¬recovery → ∃ t, exec (.boot []) s = .next t ∧ starts t ∧ stageOf t = 6 ∧ t.sec.running = s.sec.slot ∧
      flag t .secBootStatus F.secBootStatus_warm = ed0.isSome ∧ getF t .secFwVersion F.secFwVersion_running = imageVersion s.sec.slot ∧
      getF t .secFwVersion F.secFwVersion_nor_version = imageVersion s.sec.slot ∧ getF t .secSvn F.secSvn_image = imageSvn s.sec.slot % 256 ∧
      (∀ d < 20, d ≠ 16 → s.power.tripped.contains d = false → s.power.noRef.contains d = false → s.memp.trained.get? d ≠ some false → t.power.resets.get? d = none))) ∧
  (∀ (s : State) (d : Nat), d < 20 →
    let at' (r : Reg) (f : Fld) : State := setF s r f (getF s r f ||| 2 ^ d)
    (d = 16 ∨ inRecovery s = true → exec (.processorStartTimeout d) s = .next s) ∧
    (d ≠ 16 → inRecovery s = false → s.sec.retried.contains d = false →
      exec (.processorStartTimeout d) s = .next { s with sec := { s.sec with retried := d :: s.sec.retried } }) ∧
    (d ≠ 16 → inRecovery s = false → s.sec.retried.contains d = true → exec (.processorStartTimeout d) s = .next
      (dieWarmReset d 7 true (raise { code := 0x0D06, cont := contD, die := d, mkind := 8 } (at' .secBootStatus F.secBootStatus_die_fail)))) ∧
    exec (.watchdogExpiry d) s = .next
      (dieWarmReset d 3 false (raise { code := 0x0D10, cont := if d = 16 then contM else contD, die := d, mkind := 8 } (at' .secWdogStatus F.secWdogStatus_fired)))) ∧
  (∀ (s : State) (val : BitVec 32) (im : List Byte), unwatched s →
    let v := val.setWidth 64
    let pages := F.secFwCtl_length_pages.of v
    let a := getF s .secFwStageAddr F.secFwStageAddr_addr * 4096
    let status (t : State) := getF t .secFwCtl F.secFwCtl_status
    let asks := F.secFwCtl_go.of v = 1
    let fields (t : State) : Prop := getF t .secFwCtl F.secFwCtl_length_pages = pages ∧ getF t .secFwCtl F.secFwCtl_force_recovery = F.secFwCtl_force_recovery.of v ∧ t.mem = s.mem
    let reads := mapped s a (pages * 4096) = true ∧ memoryRefuses s 16 [(a, pages * 4096)] [] = none ∧ s.memp.faults = [] ∧ s.memp.dead = [] ∧
      (∀ d < 16, flag s (.memDieInjectCtl d) F.memDieInjectCtl_arm = false)
    let image := Mem.read s.mem a (pages * 4096)
    let checks (t : State) (x : List Byte) : Prop :=
      (∀ c, imageFault s x = some c → status t = 5 ∧ recorded s t c ∧ t.sec.slot = s.sec.slot) ∧
      (imageFault s x = none → status t = 3 ∧ t.sec.slot = [] ∧ staged t = x ∧ t.blotter = s.blotter)
    inRecovery s = false → dieAnswers s 16 →
    (¬asks → ∃ t, exec (.firmwareUpdate val) s = .next t ∧ fields t ∧ status t = status s ∧ t.sec = s.sec ∧ t.blotter = s.blotter) ∧
    (asks → 1 ≤ status s → status s ≤ 3 → (∃ t, exec (.firmwareUpdate val) s = .next t ∧ fields t ∧ recorded s t 0x0D03 ∧ status t = status s ∧ t.sec = s.sec)) ∧
    (asks → status s = 0 ∨ 3 < status s → pages < 3 ∨ 2048 < pages → ∃ t, exec (.firmwareUpdate val) s = .next t ∧ fields t ∧ recorded s t 0x0D01 ∧ status t = 5 ∧
      t.sec = s.sec) ∧
    (asks → status s = 0 ∨ 3 < status s → 3 ≤ pages → pages ≤ 2048 → reads → ∃ t, exec (.firmwareUpdate val) s = .next t ∧ fields t ∧ checks t image ∧
      getF t .secFwCtl F.secFwCtl_owner = 0) ∧
    (1 ≤ status s → status s ≤ 3 → ∃ t, exec (.requestUpdate im) s = .next t ∧ recorded s t 0x0D03 ∧ t.sec = s.sec ∧ t.out = .mctp 0x01 [0x81] :: s.out) ∧
    (status s = 0 ∨ 3 < status s → ∃ t, exec (.requestUpdate im) s = .next t ∧ checks t im ∧ getF t .secFwCtl F.secFwCtl_owner = 1 ∧ t.mem = s.mem) ∧
    (∀ good : Bool, (status s ≠ 3 → exec (.firmwareUpdateComplete good) s = .next s) ∧
      (status s = 3 → ∃ t, exec (.firmwareUpdateComplete good) s = .next t ∧ t.mem = s.mem ∧
        (good = false → status t = 6 ∧ recorded s t 0x0D04 ∧ t.sec = s.sec) ∧
        (good = true → status t = 4 ∧ t.sec = { s.sec with slot := staged s } ∧ getF t .secFwVersion F.secFwVersion_nor_version = imageVersion (staged s) ∧
          getF t .secFwVersion F.secFwVersion_running = getF s .secFwVersion F.secFwVersion_running)))) ∧
  (∀ (s : State) (val : BitVec 32), unwatched s → dieAnswers s 16 →
    let v := val.setWidth 64
    let chunk := F.secRecoveryCtl_chunk.of v
    let pages := F.secRecoveryCtl_length_pages.of v
    let status (t : State) := getF t .secRecoveryCtl F.secRecoveryCtl_status
    let idle := status s = 0 ∨ 3 < status s
    let stage' := if F.secRecoveryCtl_load.of v = 1 then Mem.write s.sec.staging (chunk * 0x4_0000) (Mem.read s.sec.window 0 0x4_0000) else s.sec.staging
    let commits := F.secRecoveryCtl_commit.of v = 1
    let img := Mem.read stage' 0 (pages * 4096)
    let both (p : State → Prop) : Prop := (∃ t, exec (.recoveryLoad val) s = .next t ∧ p t) ∧ (∃ t, exec (.recoveryCommit val) s = .next t ∧ p t)
    (inRecovery s = false → exec (.recoveryLoad val) s = .next s ∧ exec (.recoveryCommit val) s = .next s) ∧
    (inRecovery s = true → both (fun t => getF t .secRecoveryCtl F.secRecoveryCtl_chunk = chunk ∧ getF t .secRecoveryCtl F.secRecoveryCtl_length_pages = pages ∧ t.mem = s.mem ∧
      (¬idle → t.sec = s.sec ∧ status t = status s ∧ (commits → recorded s t 0x0D03)) ∧ (idle → ¬commits → t.sec = { s.sec with staging := stage' } ∧ status t = status s) ∧
      (idle → commits → pages < 3 ∨ 2048 < pages → status t = 5 ∧ recorded s t 0x0D01 ∧ t.sec.slot = s.sec.slot) ∧
      (idle → commits → 3 ≤ pages → pages ≤ 2048 → (∀ c, imageFault s img = some c → status t = 5 ∧ recorded s t c ∧ t.sec.slot = s.sec.slot) ∧
        (imageFault s img = none → status t = 3 ∧ t.sec.slot = [])))) ∧
    (inRecovery s = true → status s = 3 → ∃ t, exec (.firmwareUpdateComplete true) s = .next t ∧ t.sec.slot = staged s ∧
      getF t .pwrResetCause F.pwrResetCause_cause = 7 ∧ (∀ d < 20, inReset t d = true))) ∧
  (∀ (s : State) (val : BitVec 32) (tok : BitVec 64), unwatched s → dieAnswers s 16 →
    let adv := F.secSvn_advance.of (val.setWidth 64) = 1
    let im := getF s .secSvn F.secSvn_image
    let a := F.secDebugToken_addr.of tok * 4096
    let reads := mapped s a 5389 = true ∧ memoryRefuses s 16 [(a, 5389)] [] = none ∧ s.memp.faults = [] ∧ s.memp.dead = [] ∧
      (∀ d < 16, flag s (.memDieInjectCtl d) F.memDieInjectCtl_arm = false)
    let good := tokenGood s (Mem.read s.mem a 5389) = true
    let st (t : State) (f : Fld) := getF t .secDebugStatus f
    (¬adv → exec (.svnAdvance val) s = .next s) ∧ (adv → s.sec.svn < im → exec (.svnAdvance val) s = .next { s with sec := { s.sec with svn := im } }) ∧
    (adv → im ≤ s.sec.svn → ∃ t, exec (.svnAdvance val) s = .next t ∧ recorded s t 0x0D07 ∧ t.sec = s.sec ∧ t.mem = s.mem) ∧
    (F.secDebugToken_go.of tok = 0 → ∃ t, exec (.debugTokenPresent tok) s = .next t ∧ getF t .secDebugToken F.secDebugToken_addr = F.secDebugToken_addr.of tok ∧
      regVal t .secDebugStatus = regVal s .secDebugStatus ∧ regVal t .secDebugNonce = regVal s .secDebugNonce ∧ t.mem = s.mem) ∧
    (F.secDebugToken_go.of tok = 1 → reads → ∃ t, exec (.debugTokenPresent tok) s = .next t ∧ regVal t .secDebugNonce = Config.freeValue s.free ∧ t.mem = s.mem ∧ t.sec = s.sec ∧
      st t F.secDebugStatus_unlocked = st s F.secDebugStatus_unlocked ∧
      (good → recorded s t 0x0D09 ∧ st t F.secDebugStatus_armed = 1 ∧ st t F.secDebugStatus_scope = field (Mem.read s.mem a 5389) 24 1) ∧
      (¬good → recorded s t 0x0D08 ∧ st t F.secDebugStatus_armed = st s F.secDebugStatus_armed ∧ st t F.secDebugStatus_scope = st s F.secDebugStatus_scope ∧
        st t F.secDebugStatus_refused = min (st s F.secDebugStatus_refused + 1) 65535))) ∧
  (∀ (s : State) (n : Nat),
    let said (k : Nat) (b : List Byte) : State := { s with out := .mctp k b :: s.out }
    let hot := getF s .pwrThermCfg F.pwrThermCfg_hot
    let v := s.sec.sensors.get n 0
    let level := [14500, 11500, 8000, 8000].getD (getF s .pwrMode F.pwrMode_current) 0 * 98
    exec (.setdasa n) s = .next { s with sec := { s.sec with dynAddr := some (n % 128) } } ∧
    (8 ≤ n → n < 255 → exec (.setEndpointId n) s = .next { said 0 [0] with sec := { s.sec with eid := n } }) ∧
    (n < 8 ∨ 255 ≤ n → exec (.setEndpointId n) s = .next (said 0 [2])) ∧
    (flag s .opxConfig F.opxConfig_mode = false → exec (.setCoord n) s = .next (said 0x7E [4, 1])) ∧
    (flag s .opxConfig F.opxConfig_mode = true → unwatched s → ∃ t, exec (.setCoord n) s = .next t ∧ coordOf t = n % 4096 ∧ hasCoord t = true ∧ t.mem = s.mem ∧ t.out = .mctp 0x7E [4, 0] :: s.out) ∧
    (∃ t, exec .forceRecovery s = .next t ∧ flag t .secFwCtl F.secFwCtl_force_recovery = true ∧ (∀ r, r ≠ .secFwCtl → regVal t r = regVal s r) ∧ t.mem = s.mem ∧
      t.out = .mctp 0x7E [5, 0] :: s.out) ∧
    exec .getStatus s = .next (said 0x7E ([6, 0] ++ bytesLE 8 (viewReg s .secBootStatus).toNat ++ bytesLE 8 (viewReg s .lapStatus).toNat ++ bytesLE 8 (viewReg s .pwrState).toNat)) ∧
    (∃ t, exec .sensorRefresh s = .next t ∧ t.regs = s.regs ∧ t.mem = s.mem ∧ t.out = s.out ∧ t.sec.sensors.get 1 0 = F.pwrInput_volts.of (viewReg s .pwrInput) ∧
      (∀ d < 20, t.sec.sensors.get (3 + d) 0 = sint 8 (getF s (.pwrDieThrottle d) F.pwrDieThrottle_temp)) ∧
      (∀ d < 16, t.sec.sensors.get (23 + d) 0 = F.pwrDieThrottle_rung.of (viewReg s (.pwrDieThrottle d)))) ∧
    (43 ≤ n → exec (.numericSensorRead n) s = .next (said 1 [0x80])) ∧
    (n < 43 → ∃ level', exec (.numericSensorRead n) s = .next (said 1 ([0] ++ bytesLE 4 (wrap 32 v) ++ [level'])) ∧ (n = 0 → level' = if level ≤ v * 100 then 1 else 0) ∧
      (3 ≤ n → n < 23 → level' = if 115 ≤ v then 3 else if 110 ≤ v then 2 else if hot ≤ v then 1 else 0) ∧
      (23 ≤ n → n < 39 → level' = if 4 ≤ v then 1 else 0))) ∧
  (∀ (s : State) (tr slot off len idx : Nat) (sign : Bool) (nonce : List (BitVec 8)), tr < 2 →
    let k := s.sec.spdm.get tr 0
    let said (code : Nat) (b : List Byte) : State := { s with out := .spdm tr code b :: s.out }
    let joins (n : Nat) (t : State) : State := { t with sec := { s.sec with spdm := s.sec.spdm.set tr n } }
    let chain (i : Nat) := Config.storedCerts i ++ Config.aliasCert i (deviceSeed i) (aliasSeed s i) (s.sec.measured.take 8).flatten
    let held := s.sec.measured ≠ []
    let error (c : Instr) (n : Nat) : Prop := exec c s = .next (said 0x7F [BitVec.ofNat 8 n])
    let signed' (request content b : List Byte) : Prop := ∃ ml ed : List Byte, ml = Config.mldsaSign (aliasSeed s 1) (request ++ content) ∧
      ed = Config.ed25519Sign (aliasSeed s 0) (request ++ content) ∧ b = content ++ [3, 0x3D, 0x1F, 1] ++ bytesLE 2 ml.length ++ ml ++ ed
    exec (.getVersion tr) s = .next (joins 1 (said 4 [0x12, 0x13])) ∧
    (k = 1 → exec (.getCapabilities tr) s = .next (joins 2 (said 0x61 [0x36, 0, 0, 0]))) ∧ (k ≠ 1 → error (.getCapabilities tr) 4) ∧
    (k = 2 → exec (.negotiateAlgorithms tr) s = .next (joins 3 (said 0x63 [0, 4, 0, 0, 2, 0, 0, 0, 4, 0, 0, 0]))) ∧ (k ≠ 2 → error (.negotiateAlgorithms tr) 4) ∧
    (k ≠ 3 → error (.getDigests tr) 4 ∧ error (.getCertificate tr slot off len) 4 ∧ error (.challenge tr slot nonce) 4 ∧ error (.getMeasurements tr idx sign nonce) 4) ∧
    (k = 3 → held → exec (.getDigests tr) s = .next (said 1 ([3] ++ hashBytes (chain 0) ++ hashBytes (chain 1)))) ∧
    (k = 3 → ¬held → error (.getDigests tr) 1) ∧
    (k = 3 → 2 ≤ slot ∨ ¬held → error (.getCertificate tr slot off len) 1 ∧ error (.challenge tr slot nonce) 1) ∧
    (k = 3 → slot < 2 → held → off < (chain slot).length → exec (.getCertificate tr slot off len) s =
      let p := ((chain slot).drop off).take len
      .next (said 2 (bytesLE 1 slot ++ bytesLE 2 p.length ++ bytesLE 2 ((chain slot).length - off - p.length) ++ p))) ∧
    (k = 3 → slot < 2 → held → ∃ t, exec (.challenge tr slot nonce) s = .next t ∧ t.sec = s.sec ∧ t.mem = s.mem ∧ t.free = s.free + 4 ∧
      ∃ nn b : List Byte, nn.length = 32 ∧ t.out = .spdm tr 3 b :: s.out ∧
        signed' (bytesLE 1 0x83 ++ bytesLE 1 slot ++ padTo 32 nonce) (bytesLE 1 slot ++ [3] ++ hashBytes (chain slot) ++ nn) b) ∧
    (k = 3 → held → 1 ≤ idx → idx ≤ 8 → ∃ t, exec (.getMeasurements tr idx sign nonce) s = .next t ∧ t.sec = s.sec ∧ t.mem = s.mem ∧
      ∃ nn b : List Byte, nn.length = 32 ∧ t.out = .spdm tr 0x60 b :: s.out ∧
        let m := s.sec.measured.getD (idx - 1) []
        let content := [0, 1] ++ bytesLE 1 idx ++ bytesLE 2 m.length ++ m ++ nn
        (sign = false → b = content) ∧
        (sign = true → signed' (bytesLE 1 0xE0 ++ bytesLE 1 1 ++ bytesLE 1 idx ++ padTo 32 nonce) content b)))
end

