-- ==== Sys2Proof/Laws/State.lean ====
section
/-! SUPPORT. What each update of one field leaves alone: one lemma for each update and field, so that no proof unfolds a record update. -/

namespace Sys2Proof.Machine

/-! setReg -/
@[simp] theorem setReg_pending (s : State) (r : Reg) (v : Word) : (setReg s r v).pending = s.pending := rfl
@[simp] theorem setReg_mem (s : State) (r : Reg) (v : Word) : (setReg s r v).mem = s.mem := rfl
@[simp] theorem setReg_resp (s : State) (r : Reg) (v : Word) : (setReg s r v).resp = s.resp := rfl
@[simp] theorem setReg_out (s : State) (r : Reg) (v : Word) : (setReg s r v).out = s.out := rfl
@[simp] theorem setReg_nextId (s : State) (r : Reg) (v : Word) : (setReg s r v).nextId = s.nextId := rfl
@[simp] theorem setReg_free (s : State) (r : Reg) (v : Word) : (setReg s r v).free = s.free := rfl
@[simp] theorem setReg_turn (s : State) (r : Reg) (v : Word) : (setReg s r v).turn = s.turn := rfl
@[simp] theorem setReg_runners (s : State) (r : Reg) (v : Word) : (setReg s r v).runners = s.runners := rfl
@[simp] theorem setReg_cores (s : State) (r : Reg) (v : Word) : (setReg s r v).cores = s.cores := rfl
@[simp] theorem setReg_progs (s : State) (r : Reg) (v : Word) : (setReg s r v).progs = s.progs := rfl
@[simp] theorem setReg_hurdles (s : State) (r : Reg) (v : Word) : (setReg s r v).hurdles = s.hurdles := rfl
@[simp] theorem setReg_windows (s : State) (r : Reg) (v : Word) : (setReg s r v).windows = s.windows := rfl
@[simp] theorem setReg_accesses (s : State) (r : Reg) (v : Word) : (setReg s r v).accesses = s.accesses := rfl
@[simp] theorem setReg_shares (s : State) (r : Reg) (v : Word) : (setReg s r v).shares = s.shares := rfl
@[simp] theorem setReg_launches (s : State) (r : Reg) (v : Word) : (setReg s r v).launches = s.launches := rfl
@[simp] theorem setReg_halts (s : State) (r : Reg) (v : Word) : (setReg s r v).halts = s.halts := rfl
@[simp] theorem setReg_newMaps (s : State) (r : Reg) (v : Word) : (setReg s r v).newMaps = s.newMaps := rfl
@[simp] theorem setReg_host (s : State) (r : Reg) (v : Word) : (setReg s r v).host = s.host := rfl
@[simp] theorem setReg_msix (s : State) (r : Reg) (v : Word) : (setReg s r v).msix = s.msix := rfl
@[simp] theorem setReg_lap (s : State) (r : Reg) (v : Word) : (setReg s r v).lap = s.lap := rfl
@[simp] theorem setReg_census (s : State) (r : Reg) (v : Word) : (setReg s r v).census = s.census := rfl
@[simp] theorem setReg_memp (s : State) (r : Reg) (v : Word) : (setReg s r v).memp = s.memp := rfl
@[simp] theorem setReg_relays (s : State) (r : Reg) (v : Word) : (setReg s r v).relays = s.relays := rfl
@[simp] theorem setReg_heat (s : State) (r : Reg) (v : Word) : (setReg s r v).heat = s.heat := rfl
@[simp] theorem setReg_fabric (s : State) (r : Reg) (v : Word) : (setReg s r v).fabric = s.fabric := rfl
@[simp] theorem setReg_light (s : State) (r : Reg) (v : Word) : (setReg s r v).light = s.light := rfl
@[simp] theorem setReg_sweyr (s : State) (r : Reg) (v : Word) : (setReg s r v).sweyr = s.sweyr := rfl
@[simp] theorem setReg_clock (s : State) (r : Reg) (v : Word) : (setReg s r v).clock = s.clock := rfl
@[simp] theorem setReg_power (s : State) (r : Reg) (v : Word) : (setReg s r v).power = s.power := rfl
@[simp] theorem setReg_sec (s : State) (r : Reg) (v : Word) : (setReg s r v).sec = s.sec := rfl
@[simp] theorem setReg_blotter (s : State) (r : Reg) (v : Word) : (setReg s r v).blotter = s.blotter := rfl

/-! setF -/
@[simp] theorem setF_pending (s : State) (r : Reg) (f : Fld) (v : Nat) : (setF s r f v).pending = s.pending := rfl
@[simp] theorem setF_mem (s : State) (r : Reg) (f : Fld) (v : Nat) : (setF s r f v).mem = s.mem := rfl
@[simp] theorem setF_resp (s : State) (r : Reg) (f : Fld) (v : Nat) : (setF s r f v).resp = s.resp := rfl
@[simp] theorem setF_out (s : State) (r : Reg) (f : Fld) (v : Nat) : (setF s r f v).out = s.out := rfl
@[simp] theorem setF_nextId (s : State) (r : Reg) (f : Fld) (v : Nat) : (setF s r f v).nextId = s.nextId := rfl
@[simp] theorem setF_free (s : State) (r : Reg) (f : Fld) (v : Nat) : (setF s r f v).free = s.free := rfl
@[simp] theorem setF_turn (s : State) (r : Reg) (f : Fld) (v : Nat) : (setF s r f v).turn = s.turn := rfl
@[simp] theorem setF_runners (s : State) (r : Reg) (f : Fld) (v : Nat) : (setF s r f v).runners = s.runners := rfl
@[simp] theorem setF_cores (s : State) (r : Reg) (f : Fld) (v : Nat) : (setF s r f v).cores = s.cores := rfl
@[simp] theorem setF_progs (s : State) (r : Reg) (f : Fld) (v : Nat) : (setF s r f v).progs = s.progs := rfl
@[simp] theorem setF_hurdles (s : State) (r : Reg) (f : Fld) (v : Nat) : (setF s r f v).hurdles = s.hurdles := rfl
@[simp] theorem setF_windows (s : State) (r : Reg) (f : Fld) (v : Nat) : (setF s r f v).windows = s.windows := rfl
@[simp] theorem setF_accesses (s : State) (r : Reg) (f : Fld) (v : Nat) : (setF s r f v).accesses = s.accesses := rfl
@[simp] theorem setF_shares (s : State) (r : Reg) (f : Fld) (v : Nat) : (setF s r f v).shares = s.shares := rfl
@[simp] theorem setF_launches (s : State) (r : Reg) (f : Fld) (v : Nat) : (setF s r f v).launches = s.launches := rfl
@[simp] theorem setF_halts (s : State) (r : Reg) (f : Fld) (v : Nat) : (setF s r f v).halts = s.halts := rfl
@[simp] theorem setF_newMaps (s : State) (r : Reg) (f : Fld) (v : Nat) : (setF s r f v).newMaps = s.newMaps := rfl
@[simp] theorem setF_host (s : State) (r : Reg) (f : Fld) (v : Nat) : (setF s r f v).host = s.host := rfl
@[simp] theorem setF_msix (s : State) (r : Reg) (f : Fld) (v : Nat) : (setF s r f v).msix = s.msix := rfl
@[simp] theorem setF_lap (s : State) (r : Reg) (f : Fld) (v : Nat) : (setF s r f v).lap = s.lap := rfl
@[simp] theorem setF_census (s : State) (r : Reg) (f : Fld) (v : Nat) : (setF s r f v).census = s.census := rfl
@[simp] theorem setF_memp (s : State) (r : Reg) (f : Fld) (v : Nat) : (setF s r f v).memp = s.memp := rfl
@[simp] theorem setF_relays (s : State) (r : Reg) (f : Fld) (v : Nat) : (setF s r f v).relays = s.relays := rfl
@[simp] theorem setF_heat (s : State) (r : Reg) (f : Fld) (v : Nat) : (setF s r f v).heat = s.heat := rfl
@[simp] theorem setF_fabric (s : State) (r : Reg) (f : Fld) (v : Nat) : (setF s r f v).fabric = s.fabric := rfl
@[simp] theorem setF_light (s : State) (r : Reg) (f : Fld) (v : Nat) : (setF s r f v).light = s.light := rfl
@[simp] theorem setF_sweyr (s : State) (r : Reg) (f : Fld) (v : Nat) : (setF s r f v).sweyr = s.sweyr := rfl
@[simp] theorem setF_clock (s : State) (r : Reg) (f : Fld) (v : Nat) : (setF s r f v).clock = s.clock := rfl
@[simp] theorem setF_power (s : State) (r : Reg) (f : Fld) (v : Nat) : (setF s r f v).power = s.power := rfl
@[simp] theorem setF_sec (s : State) (r : Reg) (f : Fld) (v : Nat) : (setF s r f v).sec = s.sec := rfl
@[simp] theorem setF_blotter (s : State) (r : Reg) (f : Fld) (v : Nat) : (setF s r f v).blotter = s.blotter := rfl

/-! bumpF -/
@[simp] theorem bumpF_pending (s : State) (r : Reg) (f : Fld) (n : Nat) : (bumpF s r f n).pending = s.pending := rfl
@[simp] theorem bumpF_mem (s : State) (r : Reg) (f : Fld) (n : Nat) : (bumpF s r f n).mem = s.mem := rfl
@[simp] theorem bumpF_resp (s : State) (r : Reg) (f : Fld) (n : Nat) : (bumpF s r f n).resp = s.resp := rfl
@[simp] theorem bumpF_out (s : State) (r : Reg) (f : Fld) (n : Nat) : (bumpF s r f n).out = s.out := rfl
@[simp] theorem bumpF_nextId (s : State) (r : Reg) (f : Fld) (n : Nat) : (bumpF s r f n).nextId = s.nextId := rfl
@[simp] theorem bumpF_free (s : State) (r : Reg) (f : Fld) (n : Nat) : (bumpF s r f n).free = s.free := rfl
@[simp] theorem bumpF_turn (s : State) (r : Reg) (f : Fld) (n : Nat) : (bumpF s r f n).turn = s.turn := rfl
@[simp] theorem bumpF_runners (s : State) (r : Reg) (f : Fld) (n : Nat) : (bumpF s r f n).runners = s.runners := rfl
@[simp] theorem bumpF_cores (s : State) (r : Reg) (f : Fld) (n : Nat) : (bumpF s r f n).cores = s.cores := rfl
@[simp] theorem bumpF_progs (s : State) (r : Reg) (f : Fld) (n : Nat) : (bumpF s r f n).progs = s.progs := rfl
@[simp] theorem bumpF_hurdles (s : State) (r : Reg) (f : Fld) (n : Nat) : (bumpF s r f n).hurdles = s.hurdles := rfl
@[simp] theorem bumpF_windows (s : State) (r : Reg) (f : Fld) (n : Nat) : (bumpF s r f n).windows = s.windows := rfl
@[simp] theorem bumpF_accesses (s : State) (r : Reg) (f : Fld) (n : Nat) : (bumpF s r f n).accesses = s.accesses := rfl
@[simp] theorem bumpF_shares (s : State) (r : Reg) (f : Fld) (n : Nat) : (bumpF s r f n).shares = s.shares := rfl
@[simp] theorem bumpF_launches (s : State) (r : Reg) (f : Fld) (n : Nat) : (bumpF s r f n).launches = s.launches := rfl
@[simp] theorem bumpF_halts (s : State) (r : Reg) (f : Fld) (n : Nat) : (bumpF s r f n).halts = s.halts := rfl
@[simp] theorem bumpF_newMaps (s : State) (r : Reg) (f : Fld) (n : Nat) : (bumpF s r f n).newMaps = s.newMaps := rfl
@[simp] theorem bumpF_host (s : State) (r : Reg) (f : Fld) (n : Nat) : (bumpF s r f n).host = s.host := rfl
@[simp] theorem bumpF_msix (s : State) (r : Reg) (f : Fld) (n : Nat) : (bumpF s r f n).msix = s.msix := rfl
@[simp] theorem bumpF_lap (s : State) (r : Reg) (f : Fld) (n : Nat) : (bumpF s r f n).lap = s.lap := rfl
@[simp] theorem bumpF_census (s : State) (r : Reg) (f : Fld) (n : Nat) : (bumpF s r f n).census = s.census := rfl
@[simp] theorem bumpF_memp (s : State) (r : Reg) (f : Fld) (n : Nat) : (bumpF s r f n).memp = s.memp := rfl
@[simp] theorem bumpF_relays (s : State) (r : Reg) (f : Fld) (n : Nat) : (bumpF s r f n).relays = s.relays := rfl
@[simp] theorem bumpF_heat (s : State) (r : Reg) (f : Fld) (n : Nat) : (bumpF s r f n).heat = s.heat := rfl
@[simp] theorem bumpF_fabric (s : State) (r : Reg) (f : Fld) (n : Nat) : (bumpF s r f n).fabric = s.fabric := rfl
@[simp] theorem bumpF_light (s : State) (r : Reg) (f : Fld) (n : Nat) : (bumpF s r f n).light = s.light := rfl
@[simp] theorem bumpF_sweyr (s : State) (r : Reg) (f : Fld) (n : Nat) : (bumpF s r f n).sweyr = s.sweyr := rfl
@[simp] theorem bumpF_clock (s : State) (r : Reg) (f : Fld) (n : Nat) : (bumpF s r f n).clock = s.clock := rfl
@[simp] theorem bumpF_power (s : State) (r : Reg) (f : Fld) (n : Nat) : (bumpF s r f n).power = s.power := rfl
@[simp] theorem bumpF_sec (s : State) (r : Reg) (f : Fld) (n : Nat) : (bumpF s r f n).sec = s.sec := rfl
@[simp] theorem bumpF_blotter (s : State) (r : Reg) (f : Fld) (n : Nat) : (bumpF s r f n).blotter = s.blotter := rfl

/-! emit -/
@[simp] theorem emit_pending (o : Out) (s : State) : (emit o s).pending = s.pending := rfl
@[simp] theorem emit_regs (o : Out) (s : State) : (emit o s).regs = s.regs := rfl
@[simp] theorem emit_mem (o : Out) (s : State) : (emit o s).mem = s.mem := rfl
@[simp] theorem emit_resp (o : Out) (s : State) : (emit o s).resp = s.resp := rfl
@[simp] theorem emit_nextId (o : Out) (s : State) : (emit o s).nextId = s.nextId := rfl
@[simp] theorem emit_free (o : Out) (s : State) : (emit o s).free = s.free := rfl
@[simp] theorem emit_turn (o : Out) (s : State) : (emit o s).turn = s.turn := rfl
@[simp] theorem emit_runners (o : Out) (s : State) : (emit o s).runners = s.runners := rfl
@[simp] theorem emit_cores (o : Out) (s : State) : (emit o s).cores = s.cores := rfl
@[simp] theorem emit_progs (o : Out) (s : State) : (emit o s).progs = s.progs := rfl
@[simp] theorem emit_hurdles (o : Out) (s : State) : (emit o s).hurdles = s.hurdles := rfl
@[simp] theorem emit_windows (o : Out) (s : State) : (emit o s).windows = s.windows := rfl
@[simp] theorem emit_accesses (o : Out) (s : State) : (emit o s).accesses = s.accesses := rfl
@[simp] theorem emit_shares (o : Out) (s : State) : (emit o s).shares = s.shares := rfl
@[simp] theorem emit_launches (o : Out) (s : State) : (emit o s).launches = s.launches := rfl
@[simp] theorem emit_halts (o : Out) (s : State) : (emit o s).halts = s.halts := rfl
@[simp] theorem emit_newMaps (o : Out) (s : State) : (emit o s).newMaps = s.newMaps := rfl
@[simp] theorem emit_host (o : Out) (s : State) : (emit o s).host = s.host := rfl
@[simp] theorem emit_msix (o : Out) (s : State) : (emit o s).msix = s.msix := rfl
@[simp] theorem emit_lap (o : Out) (s : State) : (emit o s).lap = s.lap := rfl
@[simp] theorem emit_census (o : Out) (s : State) : (emit o s).census = s.census := rfl
@[simp] theorem emit_memp (o : Out) (s : State) : (emit o s).memp = s.memp := rfl
@[simp] theorem emit_relays (o : Out) (s : State) : (emit o s).relays = s.relays := rfl
@[simp] theorem emit_heat (o : Out) (s : State) : (emit o s).heat = s.heat := rfl
@[simp] theorem emit_fabric (o : Out) (s : State) : (emit o s).fabric = s.fabric := rfl
@[simp] theorem emit_light (o : Out) (s : State) : (emit o s).light = s.light := rfl
@[simp] theorem emit_sweyr (o : Out) (s : State) : (emit o s).sweyr = s.sweyr := rfl
@[simp] theorem emit_clock (o : Out) (s : State) : (emit o s).clock = s.clock := rfl
@[simp] theorem emit_power (o : Out) (s : State) : (emit o s).power = s.power := rfl
@[simp] theorem emit_sec (o : Out) (s : State) : (emit o s).sec = s.sec := rfl
@[simp] theorem emit_blotter (o : Out) (s : State) : (emit o s).blotter = s.blotter := rfl

/-! freeTaken -/
@[simp] theorem freeTaken_pending (s : State) : (freeTaken s).pending = s.pending := rfl
@[simp] theorem freeTaken_regs (s : State) : (freeTaken s).regs = s.regs := rfl
@[simp] theorem freeTaken_mem (s : State) : (freeTaken s).mem = s.mem := rfl
@[simp] theorem freeTaken_resp (s : State) : (freeTaken s).resp = s.resp := rfl
@[simp] theorem freeTaken_out (s : State) : (freeTaken s).out = s.out := rfl
@[simp] theorem freeTaken_nextId (s : State) : (freeTaken s).nextId = s.nextId := rfl
@[simp] theorem freeTaken_turn (s : State) : (freeTaken s).turn = s.turn := rfl
@[simp] theorem freeTaken_runners (s : State) : (freeTaken s).runners = s.runners := rfl
@[simp] theorem freeTaken_cores (s : State) : (freeTaken s).cores = s.cores := rfl
@[simp] theorem freeTaken_progs (s : State) : (freeTaken s).progs = s.progs := rfl
@[simp] theorem freeTaken_hurdles (s : State) : (freeTaken s).hurdles = s.hurdles := rfl
@[simp] theorem freeTaken_windows (s : State) : (freeTaken s).windows = s.windows := rfl
@[simp] theorem freeTaken_accesses (s : State) : (freeTaken s).accesses = s.accesses := rfl
@[simp] theorem freeTaken_shares (s : State) : (freeTaken s).shares = s.shares := rfl
@[simp] theorem freeTaken_launches (s : State) : (freeTaken s).launches = s.launches := rfl
@[simp] theorem freeTaken_halts (s : State) : (freeTaken s).halts = s.halts := rfl
@[simp] theorem freeTaken_newMaps (s : State) : (freeTaken s).newMaps = s.newMaps := rfl
@[simp] theorem freeTaken_host (s : State) : (freeTaken s).host = s.host := rfl
@[simp] theorem freeTaken_msix (s : State) : (freeTaken s).msix = s.msix := rfl
@[simp] theorem freeTaken_lap (s : State) : (freeTaken s).lap = s.lap := rfl
@[simp] theorem freeTaken_census (s : State) : (freeTaken s).census = s.census := rfl
@[simp] theorem freeTaken_memp (s : State) : (freeTaken s).memp = s.memp := rfl
@[simp] theorem freeTaken_relays (s : State) : (freeTaken s).relays = s.relays := rfl
@[simp] theorem freeTaken_heat (s : State) : (freeTaken s).heat = s.heat := rfl
@[simp] theorem freeTaken_fabric (s : State) : (freeTaken s).fabric = s.fabric := rfl
@[simp] theorem freeTaken_light (s : State) : (freeTaken s).light = s.light := rfl
@[simp] theorem freeTaken_sweyr (s : State) : (freeTaken s).sweyr = s.sweyr := rfl
@[simp] theorem freeTaken_clock (s : State) : (freeTaken s).clock = s.clock := rfl
@[simp] theorem freeTaken_power (s : State) : (freeTaken s).power = s.power := rfl
@[simp] theorem freeTaken_sec (s : State) : (freeTaken s).sec = s.sec := rfl
@[simp] theorem freeTaken_blotter (s : State) : (freeTaken s).blotter = s.blotter := rfl

/-! setRunner -/
@[simp] theorem setRunner_pending (s : State) (w : Nat) (r : Runner) : (setRunner s w r).pending = s.pending := rfl
@[simp] theorem setRunner_regs (s : State) (w : Nat) (r : Runner) : (setRunner s w r).regs = s.regs := rfl
@[simp] theorem setRunner_mem (s : State) (w : Nat) (r : Runner) : (setRunner s w r).mem = s.mem := rfl
@[simp] theorem setRunner_resp (s : State) (w : Nat) (r : Runner) : (setRunner s w r).resp = s.resp := rfl
@[simp] theorem setRunner_out (s : State) (w : Nat) (r : Runner) : (setRunner s w r).out = s.out := rfl
@[simp] theorem setRunner_nextId (s : State) (w : Nat) (r : Runner) : (setRunner s w r).nextId = s.nextId := rfl
@[simp] theorem setRunner_free (s : State) (w : Nat) (r : Runner) : (setRunner s w r).free = s.free := rfl
@[simp] theorem setRunner_turn (s : State) (w : Nat) (r : Runner) : (setRunner s w r).turn = s.turn := rfl
@[simp] theorem setRunner_cores (s : State) (w : Nat) (r : Runner) : (setRunner s w r).cores = s.cores := rfl
@[simp] theorem setRunner_progs (s : State) (w : Nat) (r : Runner) : (setRunner s w r).progs = s.progs := rfl
@[simp] theorem setRunner_hurdles (s : State) (w : Nat) (r : Runner) : (setRunner s w r).hurdles = s.hurdles := rfl
@[simp] theorem setRunner_windows (s : State) (w : Nat) (r : Runner) : (setRunner s w r).windows = s.windows := rfl
@[simp] theorem setRunner_accesses (s : State) (w : Nat) (r : Runner) : (setRunner s w r).accesses = s.accesses := rfl
@[simp] theorem setRunner_shares (s : State) (w : Nat) (r : Runner) : (setRunner s w r).shares = s.shares := rfl
@[simp] theorem setRunner_launches (s : State) (w : Nat) (r : Runner) : (setRunner s w r).launches = s.launches := rfl
@[simp] theorem setRunner_halts (s : State) (w : Nat) (r : Runner) : (setRunner s w r).halts = s.halts := rfl
@[simp] theorem setRunner_newMaps (s : State) (w : Nat) (r : Runner) : (setRunner s w r).newMaps = s.newMaps := rfl
@[simp] theorem setRunner_host (s : State) (w : Nat) (r : Runner) : (setRunner s w r).host = s.host := rfl
@[simp] theorem setRunner_msix (s : State) (w : Nat) (r : Runner) : (setRunner s w r).msix = s.msix := rfl
@[simp] theorem setRunner_lap (s : State) (w : Nat) (r : Runner) : (setRunner s w r).lap = s.lap := rfl
@[simp] theorem setRunner_census (s : State) (w : Nat) (r : Runner) : (setRunner s w r).census = s.census := rfl
@[simp] theorem setRunner_memp (s : State) (w : Nat) (r : Runner) : (setRunner s w r).memp = s.memp := rfl
@[simp] theorem setRunner_relays (s : State) (w : Nat) (r : Runner) : (setRunner s w r).relays = s.relays := rfl
@[simp] theorem setRunner_heat (s : State) (w : Nat) (r : Runner) : (setRunner s w r).heat = s.heat := rfl
@[simp] theorem setRunner_fabric (s : State) (w : Nat) (r : Runner) : (setRunner s w r).fabric = s.fabric := rfl
@[simp] theorem setRunner_light (s : State) (w : Nat) (r : Runner) : (setRunner s w r).light = s.light := rfl
@[simp] theorem setRunner_sweyr (s : State) (w : Nat) (r : Runner) : (setRunner s w r).sweyr = s.sweyr := rfl
@[simp] theorem setRunner_clock (s : State) (w : Nat) (r : Runner) : (setRunner s w r).clock = s.clock := rfl
@[simp] theorem setRunner_power (s : State) (w : Nat) (r : Runner) : (setRunner s w r).power = s.power := rfl
@[simp] theorem setRunner_sec (s : State) (w : Nat) (r : Runner) : (setRunner s w r).sec = s.sec := rfl
@[simp] theorem setRunner_blotter (s : State) (w : Nat) (r : Runner) : (setRunner s w r).blotter = s.blotter := rfl

/-! modRunner -/
@[simp] theorem modRunner_pending (w : Nat) (f : Runner → Runner) (s : State) : (modRunner w f s).pending = s.pending := rfl
@[simp] theorem modRunner_regs (w : Nat) (f : Runner → Runner) (s : State) : (modRunner w f s).regs = s.regs := rfl
@[simp] theorem modRunner_mem (w : Nat) (f : Runner → Runner) (s : State) : (modRunner w f s).mem = s.mem := rfl
@[simp] theorem modRunner_resp (w : Nat) (f : Runner → Runner) (s : State) : (modRunner w f s).resp = s.resp := rfl
@[simp] theorem modRunner_out (w : Nat) (f : Runner → Runner) (s : State) : (modRunner w f s).out = s.out := rfl
@[simp] theorem modRunner_nextId (w : Nat) (f : Runner → Runner) (s : State) : (modRunner w f s).nextId = s.nextId := rfl
@[simp] theorem modRunner_free (w : Nat) (f : Runner → Runner) (s : State) : (modRunner w f s).free = s.free := rfl
@[simp] theorem modRunner_turn (w : Nat) (f : Runner → Runner) (s : State) : (modRunner w f s).turn = s.turn := rfl
@[simp] theorem modRunner_cores (w : Nat) (f : Runner → Runner) (s : State) : (modRunner w f s).cores = s.cores := rfl
@[simp] theorem modRunner_progs (w : Nat) (f : Runner → Runner) (s : State) : (modRunner w f s).progs = s.progs := rfl
@[simp] theorem modRunner_hurdles (w : Nat) (f : Runner → Runner) (s : State) : (modRunner w f s).hurdles = s.hurdles := rfl
@[simp] theorem modRunner_windows (w : Nat) (f : Runner → Runner) (s : State) : (modRunner w f s).windows = s.windows := rfl
@[simp] theorem modRunner_accesses (w : Nat) (f : Runner → Runner) (s : State) : (modRunner w f s).accesses = s.accesses := rfl
@[simp] theorem modRunner_shares (w : Nat) (f : Runner → Runner) (s : State) : (modRunner w f s).shares = s.shares := rfl
@[simp] theorem modRunner_launches (w : Nat) (f : Runner → Runner) (s : State) : (modRunner w f s).launches = s.launches := rfl
@[simp] theorem modRunner_halts (w : Nat) (f : Runner → Runner) (s : State) : (modRunner w f s).halts = s.halts := rfl
@[simp] theorem modRunner_newMaps (w : Nat) (f : Runner → Runner) (s : State) : (modRunner w f s).newMaps = s.newMaps := rfl
@[simp] theorem modRunner_host (w : Nat) (f : Runner → Runner) (s : State) : (modRunner w f s).host = s.host := rfl
@[simp] theorem modRunner_msix (w : Nat) (f : Runner → Runner) (s : State) : (modRunner w f s).msix = s.msix := rfl
@[simp] theorem modRunner_lap (w : Nat) (f : Runner → Runner) (s : State) : (modRunner w f s).lap = s.lap := rfl
@[simp] theorem modRunner_census (w : Nat) (f : Runner → Runner) (s : State) : (modRunner w f s).census = s.census := rfl
@[simp] theorem modRunner_memp (w : Nat) (f : Runner → Runner) (s : State) : (modRunner w f s).memp = s.memp := rfl
@[simp] theorem modRunner_relays (w : Nat) (f : Runner → Runner) (s : State) : (modRunner w f s).relays = s.relays := rfl
@[simp] theorem modRunner_heat (w : Nat) (f : Runner → Runner) (s : State) : (modRunner w f s).heat = s.heat := rfl
@[simp] theorem modRunner_fabric (w : Nat) (f : Runner → Runner) (s : State) : (modRunner w f s).fabric = s.fabric := rfl
@[simp] theorem modRunner_light (w : Nat) (f : Runner → Runner) (s : State) : (modRunner w f s).light = s.light := rfl
@[simp] theorem modRunner_sweyr (w : Nat) (f : Runner → Runner) (s : State) : (modRunner w f s).sweyr = s.sweyr := rfl
@[simp] theorem modRunner_clock (w : Nat) (f : Runner → Runner) (s : State) : (modRunner w f s).clock = s.clock := rfl
@[simp] theorem modRunner_power (w : Nat) (f : Runner → Runner) (s : State) : (modRunner w f s).power = s.power := rfl
@[simp] theorem modRunner_sec (w : Nat) (f : Runner → Runner) (s : State) : (modRunner w f s).sec = s.sec := rfl
@[simp] theorem modRunner_blotter (w : Nat) (f : Runner → Runner) (s : State) : (modRunner w f s).blotter = s.blotter := rfl

/-! setCore -/
@[simp] theorem setCore_pending (s : State) (k : Nat) (c : Core) : (setCore s k c).pending = s.pending := rfl
@[simp] theorem setCore_regs (s : State) (k : Nat) (c : Core) : (setCore s k c).regs = s.regs := rfl
@[simp] theorem setCore_mem (s : State) (k : Nat) (c : Core) : (setCore s k c).mem = s.mem := rfl
@[simp] theorem setCore_resp (s : State) (k : Nat) (c : Core) : (setCore s k c).resp = s.resp := rfl
@[simp] theorem setCore_out (s : State) (k : Nat) (c : Core) : (setCore s k c).out = s.out := rfl
@[simp] theorem setCore_nextId (s : State) (k : Nat) (c : Core) : (setCore s k c).nextId = s.nextId := rfl
@[simp] theorem setCore_free (s : State) (k : Nat) (c : Core) : (setCore s k c).free = s.free := rfl
@[simp] theorem setCore_turn (s : State) (k : Nat) (c : Core) : (setCore s k c).turn = s.turn := rfl
@[simp] theorem setCore_runners (s : State) (k : Nat) (c : Core) : (setCore s k c).runners = s.runners := rfl
@[simp] theorem setCore_progs (s : State) (k : Nat) (c : Core) : (setCore s k c).progs = s.progs := rfl
@[simp] theorem setCore_hurdles (s : State) (k : Nat) (c : Core) : (setCore s k c).hurdles = s.hurdles := rfl
@[simp] theorem setCore_windows (s : State) (k : Nat) (c : Core) : (setCore s k c).windows = s.windows := rfl
@[simp] theorem setCore_accesses (s : State) (k : Nat) (c : Core) : (setCore s k c).accesses = s.accesses := rfl
@[simp] theorem setCore_shares (s : State) (k : Nat) (c : Core) : (setCore s k c).shares = s.shares := rfl
@[simp] theorem setCore_launches (s : State) (k : Nat) (c : Core) : (setCore s k c).launches = s.launches := rfl
@[simp] theorem setCore_halts (s : State) (k : Nat) (c : Core) : (setCore s k c).halts = s.halts := rfl
@[simp] theorem setCore_newMaps (s : State) (k : Nat) (c : Core) : (setCore s k c).newMaps = s.newMaps := rfl
@[simp] theorem setCore_host (s : State) (k : Nat) (c : Core) : (setCore s k c).host = s.host := rfl
@[simp] theorem setCore_msix (s : State) (k : Nat) (c : Core) : (setCore s k c).msix = s.msix := rfl
@[simp] theorem setCore_lap (s : State) (k : Nat) (c : Core) : (setCore s k c).lap = s.lap := rfl
@[simp] theorem setCore_census (s : State) (k : Nat) (c : Core) : (setCore s k c).census = s.census := rfl
@[simp] theorem setCore_memp (s : State) (k : Nat) (c : Core) : (setCore s k c).memp = s.memp := rfl
@[simp] theorem setCore_relays (s : State) (k : Nat) (c : Core) : (setCore s k c).relays = s.relays := rfl
@[simp] theorem setCore_heat (s : State) (k : Nat) (c : Core) : (setCore s k c).heat = s.heat := rfl
@[simp] theorem setCore_fabric (s : State) (k : Nat) (c : Core) : (setCore s k c).fabric = s.fabric := rfl
@[simp] theorem setCore_light (s : State) (k : Nat) (c : Core) : (setCore s k c).light = s.light := rfl
@[simp] theorem setCore_sweyr (s : State) (k : Nat) (c : Core) : (setCore s k c).sweyr = s.sweyr := rfl
@[simp] theorem setCore_clock (s : State) (k : Nat) (c : Core) : (setCore s k c).clock = s.clock := rfl
@[simp] theorem setCore_power (s : State) (k : Nat) (c : Core) : (setCore s k c).power = s.power := rfl
@[simp] theorem setCore_sec (s : State) (k : Nat) (c : Core) : (setCore s k c).sec = s.sec := rfl
@[simp] theorem setCore_blotter (s : State) (k : Nat) (c : Core) : (setCore s k c).blotter = s.blotter := rfl

/-! modCore -/
@[simp] theorem modCore_pending (k : Nat) (f : Core → Core) (s : State) : (modCore k f s).pending = s.pending := rfl
@[simp] theorem modCore_regs (k : Nat) (f : Core → Core) (s : State) : (modCore k f s).regs = s.regs := rfl
@[simp] theorem modCore_mem (k : Nat) (f : Core → Core) (s : State) : (modCore k f s).mem = s.mem := rfl
@[simp] theorem modCore_resp (k : Nat) (f : Core → Core) (s : State) : (modCore k f s).resp = s.resp := rfl
@[simp] theorem modCore_out (k : Nat) (f : Core → Core) (s : State) : (modCore k f s).out = s.out := rfl
@[simp] theorem modCore_nextId (k : Nat) (f : Core → Core) (s : State) : (modCore k f s).nextId = s.nextId := rfl
@[simp] theorem modCore_free (k : Nat) (f : Core → Core) (s : State) : (modCore k f s).free = s.free := rfl
@[simp] theorem modCore_turn (k : Nat) (f : Core → Core) (s : State) : (modCore k f s).turn = s.turn := rfl
@[simp] theorem modCore_runners (k : Nat) (f : Core → Core) (s : State) : (modCore k f s).runners = s.runners := rfl
@[simp] theorem modCore_progs (k : Nat) (f : Core → Core) (s : State) : (modCore k f s).progs = s.progs := rfl
@[simp] theorem modCore_hurdles (k : Nat) (f : Core → Core) (s : State) : (modCore k f s).hurdles = s.hurdles := rfl
@[simp] theorem modCore_windows (k : Nat) (f : Core → Core) (s : State) : (modCore k f s).windows = s.windows := rfl
@[simp] theorem modCore_accesses (k : Nat) (f : Core → Core) (s : State) : (modCore k f s).accesses = s.accesses := rfl
@[simp] theorem modCore_shares (k : Nat) (f : Core → Core) (s : State) : (modCore k f s).shares = s.shares := rfl
@[simp] theorem modCore_launches (k : Nat) (f : Core → Core) (s : State) : (modCore k f s).launches = s.launches := rfl
@[simp] theorem modCore_halts (k : Nat) (f : Core → Core) (s : State) : (modCore k f s).halts = s.halts := rfl
@[simp] theorem modCore_newMaps (k : Nat) (f : Core → Core) (s : State) : (modCore k f s).newMaps = s.newMaps := rfl
@[simp] theorem modCore_host (k : Nat) (f : Core → Core) (s : State) : (modCore k f s).host = s.host := rfl
@[simp] theorem modCore_msix (k : Nat) (f : Core → Core) (s : State) : (modCore k f s).msix = s.msix := rfl
@[simp] theorem modCore_lap (k : Nat) (f : Core → Core) (s : State) : (modCore k f s).lap = s.lap := rfl
@[simp] theorem modCore_census (k : Nat) (f : Core → Core) (s : State) : (modCore k f s).census = s.census := rfl
@[simp] theorem modCore_memp (k : Nat) (f : Core → Core) (s : State) : (modCore k f s).memp = s.memp := rfl
@[simp] theorem modCore_relays (k : Nat) (f : Core → Core) (s : State) : (modCore k f s).relays = s.relays := rfl
@[simp] theorem modCore_heat (k : Nat) (f : Core → Core) (s : State) : (modCore k f s).heat = s.heat := rfl
@[simp] theorem modCore_fabric (k : Nat) (f : Core → Core) (s : State) : (modCore k f s).fabric = s.fabric := rfl
@[simp] theorem modCore_light (k : Nat) (f : Core → Core) (s : State) : (modCore k f s).light = s.light := rfl
@[simp] theorem modCore_sweyr (k : Nat) (f : Core → Core) (s : State) : (modCore k f s).sweyr = s.sweyr := rfl
@[simp] theorem modCore_clock (k : Nat) (f : Core → Core) (s : State) : (modCore k f s).clock = s.clock := rfl
@[simp] theorem modCore_power (k : Nat) (f : Core → Core) (s : State) : (modCore k f s).power = s.power := rfl
@[simp] theorem modCore_sec (k : Nat) (f : Core → Core) (s : State) : (modCore k f s).sec = s.sec := rfl
@[simp] theorem modCore_blotter (k : Nat) (f : Core → Core) (s : State) : (modCore k f s).blotter = s.blotter := rfl

/-! wrN -/
@[simp] theorem wrN_pending (s : State) (a n v : Nat) : (wrN s a n v).pending = s.pending := rfl
@[simp] theorem wrN_regs (s : State) (a n v : Nat) : (wrN s a n v).regs = s.regs := rfl
@[simp] theorem wrN_resp (s : State) (a n v : Nat) : (wrN s a n v).resp = s.resp := rfl
@[simp] theorem wrN_out (s : State) (a n v : Nat) : (wrN s a n v).out = s.out := rfl
@[simp] theorem wrN_nextId (s : State) (a n v : Nat) : (wrN s a n v).nextId = s.nextId := rfl
@[simp] theorem wrN_free (s : State) (a n v : Nat) : (wrN s a n v).free = s.free := rfl
@[simp] theorem wrN_turn (s : State) (a n v : Nat) : (wrN s a n v).turn = s.turn := rfl
@[simp] theorem wrN_runners (s : State) (a n v : Nat) : (wrN s a n v).runners = s.runners := rfl
@[simp] theorem wrN_cores (s : State) (a n v : Nat) : (wrN s a n v).cores = s.cores := rfl
@[simp] theorem wrN_progs (s : State) (a n v : Nat) : (wrN s a n v).progs = s.progs := rfl
@[simp] theorem wrN_hurdles (s : State) (a n v : Nat) : (wrN s a n v).hurdles = s.hurdles := rfl
@[simp] theorem wrN_windows (s : State) (a n v : Nat) : (wrN s a n v).windows = s.windows := rfl
@[simp] theorem wrN_accesses (s : State) (a n v : Nat) : (wrN s a n v).accesses = s.accesses := rfl
@[simp] theorem wrN_shares (s : State) (a n v : Nat) : (wrN s a n v).shares = s.shares := rfl
@[simp] theorem wrN_launches (s : State) (a n v : Nat) : (wrN s a n v).launches = s.launches := rfl
@[simp] theorem wrN_halts (s : State) (a n v : Nat) : (wrN s a n v).halts = s.halts := rfl
@[simp] theorem wrN_newMaps (s : State) (a n v : Nat) : (wrN s a n v).newMaps = s.newMaps := rfl
@[simp] theorem wrN_host (s : State) (a n v : Nat) : (wrN s a n v).host = s.host := rfl
@[simp] theorem wrN_msix (s : State) (a n v : Nat) : (wrN s a n v).msix = s.msix := rfl
@[simp] theorem wrN_lap (s : State) (a n v : Nat) : (wrN s a n v).lap = s.lap := rfl
@[simp] theorem wrN_census (s : State) (a n v : Nat) : (wrN s a n v).census = s.census := rfl
@[simp] theorem wrN_memp (s : State) (a n v : Nat) : (wrN s a n v).memp = s.memp := rfl
@[simp] theorem wrN_relays (s : State) (a n v : Nat) : (wrN s a n v).relays = s.relays := rfl
@[simp] theorem wrN_heat (s : State) (a n v : Nat) : (wrN s a n v).heat = s.heat := rfl
@[simp] theorem wrN_fabric (s : State) (a n v : Nat) : (wrN s a n v).fabric = s.fabric := rfl
@[simp] theorem wrN_light (s : State) (a n v : Nat) : (wrN s a n v).light = s.light := rfl
@[simp] theorem wrN_sweyr (s : State) (a n v : Nat) : (wrN s a n v).sweyr = s.sweyr := rfl
@[simp] theorem wrN_clock (s : State) (a n v : Nat) : (wrN s a n v).clock = s.clock := rfl
@[simp] theorem wrN_power (s : State) (a n v : Nat) : (wrN s a n v).power = s.power := rfl
@[simp] theorem wrN_sec (s : State) (a n v : Nat) : (wrN s a n v).sec = s.sec := rfl
@[simp] theorem wrN_blotter (s : State) (a n v : Nat) : (wrN s a n v).blotter = s.blotter := rfl

/-! wrB -/
@[simp] theorem wrB_pending (s : State) (a : Nat) (bs : List Byte) : (wrB s a bs).pending = s.pending := rfl
@[simp] theorem wrB_regs (s : State) (a : Nat) (bs : List Byte) : (wrB s a bs).regs = s.regs := rfl
@[simp] theorem wrB_resp (s : State) (a : Nat) (bs : List Byte) : (wrB s a bs).resp = s.resp := rfl
@[simp] theorem wrB_out (s : State) (a : Nat) (bs : List Byte) : (wrB s a bs).out = s.out := rfl
@[simp] theorem wrB_nextId (s : State) (a : Nat) (bs : List Byte) : (wrB s a bs).nextId = s.nextId := rfl
@[simp] theorem wrB_free (s : State) (a : Nat) (bs : List Byte) : (wrB s a bs).free = s.free := rfl
@[simp] theorem wrB_turn (s : State) (a : Nat) (bs : List Byte) : (wrB s a bs).turn = s.turn := rfl
@[simp] theorem wrB_runners (s : State) (a : Nat) (bs : List Byte) : (wrB s a bs).runners = s.runners := rfl
@[simp] theorem wrB_cores (s : State) (a : Nat) (bs : List Byte) : (wrB s a bs).cores = s.cores := rfl
@[simp] theorem wrB_progs (s : State) (a : Nat) (bs : List Byte) : (wrB s a bs).progs = s.progs := rfl
@[simp] theorem wrB_hurdles (s : State) (a : Nat) (bs : List Byte) : (wrB s a bs).hurdles = s.hurdles := rfl
@[simp] theorem wrB_windows (s : State) (a : Nat) (bs : List Byte) : (wrB s a bs).windows = s.windows := rfl
@[simp] theorem wrB_accesses (s : State) (a : Nat) (bs : List Byte) : (wrB s a bs).accesses = s.accesses := rfl
@[simp] theorem wrB_shares (s : State) (a : Nat) (bs : List Byte) : (wrB s a bs).shares = s.shares := rfl
@[simp] theorem wrB_launches (s : State) (a : Nat) (bs : List Byte) : (wrB s a bs).launches = s.launches := rfl
@[simp] theorem wrB_halts (s : State) (a : Nat) (bs : List Byte) : (wrB s a bs).halts = s.halts := rfl
@[simp] theorem wrB_newMaps (s : State) (a : Nat) (bs : List Byte) : (wrB s a bs).newMaps = s.newMaps := rfl
@[simp] theorem wrB_host (s : State) (a : Nat) (bs : List Byte) : (wrB s a bs).host = s.host := rfl
@[simp] theorem wrB_msix (s : State) (a : Nat) (bs : List Byte) : (wrB s a bs).msix = s.msix := rfl
@[simp] theorem wrB_lap (s : State) (a : Nat) (bs : List Byte) : (wrB s a bs).lap = s.lap := rfl
@[simp] theorem wrB_census (s : State) (a : Nat) (bs : List Byte) : (wrB s a bs).census = s.census := rfl
@[simp] theorem wrB_memp (s : State) (a : Nat) (bs : List Byte) : (wrB s a bs).memp = s.memp := rfl
@[simp] theorem wrB_relays (s : State) (a : Nat) (bs : List Byte) : (wrB s a bs).relays = s.relays := rfl
@[simp] theorem wrB_heat (s : State) (a : Nat) (bs : List Byte) : (wrB s a bs).heat = s.heat := rfl
@[simp] theorem wrB_fabric (s : State) (a : Nat) (bs : List Byte) : (wrB s a bs).fabric = s.fabric := rfl
@[simp] theorem wrB_light (s : State) (a : Nat) (bs : List Byte) : (wrB s a bs).light = s.light := rfl
@[simp] theorem wrB_sweyr (s : State) (a : Nat) (bs : List Byte) : (wrB s a bs).sweyr = s.sweyr := rfl
@[simp] theorem wrB_clock (s : State) (a : Nat) (bs : List Byte) : (wrB s a bs).clock = s.clock := rfl
@[simp] theorem wrB_power (s : State) (a : Nat) (bs : List Byte) : (wrB s a bs).power = s.power := rfl
@[simp] theorem wrB_sec (s : State) (a : Nat) (bs : List Byte) : (wrB s a bs).sec = s.sec := rfl
@[simp] theorem wrB_blotter (s : State) (a : Nat) (bs : List Byte) : (wrB s a bs).blotter = s.blotter := rfl

/-! modSec -/
@[simp] theorem modSec_pending (f : Sec → Sec) (s : State) : (modSec f s).pending = s.pending := rfl
@[simp] theorem modSec_regs (f : Sec → Sec) (s : State) : (modSec f s).regs = s.regs := rfl
@[simp] theorem modSec_mem (f : Sec → Sec) (s : State) : (modSec f s).mem = s.mem := rfl
@[simp] theorem modSec_resp (f : Sec → Sec) (s : State) : (modSec f s).resp = s.resp := rfl
@[simp] theorem modSec_out (f : Sec → Sec) (s : State) : (modSec f s).out = s.out := rfl
@[simp] theorem modSec_nextId (f : Sec → Sec) (s : State) : (modSec f s).nextId = s.nextId := rfl
@[simp] theorem modSec_free (f : Sec → Sec) (s : State) : (modSec f s).free = s.free := rfl
@[simp] theorem modSec_turn (f : Sec → Sec) (s : State) : (modSec f s).turn = s.turn := rfl
@[simp] theorem modSec_runners (f : Sec → Sec) (s : State) : (modSec f s).runners = s.runners := rfl
@[simp] theorem modSec_cores (f : Sec → Sec) (s : State) : (modSec f s).cores = s.cores := rfl
@[simp] theorem modSec_progs (f : Sec → Sec) (s : State) : (modSec f s).progs = s.progs := rfl
@[simp] theorem modSec_hurdles (f : Sec → Sec) (s : State) : (modSec f s).hurdles = s.hurdles := rfl
@[simp] theorem modSec_windows (f : Sec → Sec) (s : State) : (modSec f s).windows = s.windows := rfl
@[simp] theorem modSec_accesses (f : Sec → Sec) (s : State) : (modSec f s).accesses = s.accesses := rfl
@[simp] theorem modSec_shares (f : Sec → Sec) (s : State) : (modSec f s).shares = s.shares := rfl
@[simp] theorem modSec_launches (f : Sec → Sec) (s : State) : (modSec f s).launches = s.launches := rfl
@[simp] theorem modSec_halts (f : Sec → Sec) (s : State) : (modSec f s).halts = s.halts := rfl
@[simp] theorem modSec_newMaps (f : Sec → Sec) (s : State) : (modSec f s).newMaps = s.newMaps := rfl
@[simp] theorem modSec_host (f : Sec → Sec) (s : State) : (modSec f s).host = s.host := rfl
@[simp] theorem modSec_msix (f : Sec → Sec) (s : State) : (modSec f s).msix = s.msix := rfl
@[simp] theorem modSec_lap (f : Sec → Sec) (s : State) : (modSec f s).lap = s.lap := rfl
@[simp] theorem modSec_census (f : Sec → Sec) (s : State) : (modSec f s).census = s.census := rfl
@[simp] theorem modSec_memp (f : Sec → Sec) (s : State) : (modSec f s).memp = s.memp := rfl
@[simp] theorem modSec_relays (f : Sec → Sec) (s : State) : (modSec f s).relays = s.relays := rfl
@[simp] theorem modSec_heat (f : Sec → Sec) (s : State) : (modSec f s).heat = s.heat := rfl
@[simp] theorem modSec_fabric (f : Sec → Sec) (s : State) : (modSec f s).fabric = s.fabric := rfl
@[simp] theorem modSec_light (f : Sec → Sec) (s : State) : (modSec f s).light = s.light := rfl
@[simp] theorem modSec_sweyr (f : Sec → Sec) (s : State) : (modSec f s).sweyr = s.sweyr := rfl
@[simp] theorem modSec_clock (f : Sec → Sec) (s : State) : (modSec f s).clock = s.clock := rfl
@[simp] theorem modSec_power (f : Sec → Sec) (s : State) : (modSec f s).power = s.power := rfl
@[simp] theorem modSec_blotter (f : Sec → Sec) (s : State) : (modSec f s).blotter = s.blotter := rfl

/-! modPower -/
@[simp] theorem modPower_pending (f : Power → Power) (s : State) : (modPower f s).pending = s.pending := rfl
@[simp] theorem modPower_regs (f : Power → Power) (s : State) : (modPower f s).regs = s.regs := rfl
@[simp] theorem modPower_mem (f : Power → Power) (s : State) : (modPower f s).mem = s.mem := rfl
@[simp] theorem modPower_resp (f : Power → Power) (s : State) : (modPower f s).resp = s.resp := rfl
@[simp] theorem modPower_out (f : Power → Power) (s : State) : (modPower f s).out = s.out := rfl
@[simp] theorem modPower_nextId (f : Power → Power) (s : State) : (modPower f s).nextId = s.nextId := rfl
@[simp] theorem modPower_free (f : Power → Power) (s : State) : (modPower f s).free = s.free := rfl
@[simp] theorem modPower_turn (f : Power → Power) (s : State) : (modPower f s).turn = s.turn := rfl
@[simp] theorem modPower_runners (f : Power → Power) (s : State) : (modPower f s).runners = s.runners := rfl
@[simp] theorem modPower_cores (f : Power → Power) (s : State) : (modPower f s).cores = s.cores := rfl
@[simp] theorem modPower_progs (f : Power → Power) (s : State) : (modPower f s).progs = s.progs := rfl
@[simp] theorem modPower_hurdles (f : Power → Power) (s : State) : (modPower f s).hurdles = s.hurdles := rfl
@[simp] theorem modPower_windows (f : Power → Power) (s : State) : (modPower f s).windows = s.windows := rfl
@[simp] theorem modPower_accesses (f : Power → Power) (s : State) : (modPower f s).accesses = s.accesses := rfl
@[simp] theorem modPower_shares (f : Power → Power) (s : State) : (modPower f s).shares = s.shares := rfl
@[simp] theorem modPower_launches (f : Power → Power) (s : State) : (modPower f s).launches = s.launches := rfl
@[simp] theorem modPower_halts (f : Power → Power) (s : State) : (modPower f s).halts = s.halts := rfl
@[simp] theorem modPower_newMaps (f : Power → Power) (s : State) : (modPower f s).newMaps = s.newMaps := rfl
@[simp] theorem modPower_host (f : Power → Power) (s : State) : (modPower f s).host = s.host := rfl
@[simp] theorem modPower_msix (f : Power → Power) (s : State) : (modPower f s).msix = s.msix := rfl
@[simp] theorem modPower_lap (f : Power → Power) (s : State) : (modPower f s).lap = s.lap := rfl
@[simp] theorem modPower_census (f : Power → Power) (s : State) : (modPower f s).census = s.census := rfl
@[simp] theorem modPower_memp (f : Power → Power) (s : State) : (modPower f s).memp = s.memp := rfl
@[simp] theorem modPower_relays (f : Power → Power) (s : State) : (modPower f s).relays = s.relays := rfl
@[simp] theorem modPower_heat (f : Power → Power) (s : State) : (modPower f s).heat = s.heat := rfl
@[simp] theorem modPower_fabric (f : Power → Power) (s : State) : (modPower f s).fabric = s.fabric := rfl
@[simp] theorem modPower_light (f : Power → Power) (s : State) : (modPower f s).light = s.light := rfl
@[simp] theorem modPower_sweyr (f : Power → Power) (s : State) : (modPower f s).sweyr = s.sweyr := rfl
@[simp] theorem modPower_clock (f : Power → Power) (s : State) : (modPower f s).clock = s.clock := rfl
@[simp] theorem modPower_sec (f : Power → Power) (s : State) : (modPower f s).sec = s.sec := rfl
@[simp] theorem modPower_blotter (f : Power → Power) (s : State) : (modPower f s).blotter = s.blotter := rfl

/-! modClock -/
@[simp] theorem modClock_pending (f : Clock → Clock) (s : State) : (modClock f s).pending = s.pending := rfl
@[simp] theorem modClock_regs (f : Clock → Clock) (s : State) : (modClock f s).regs = s.regs := rfl
@[simp] theorem modClock_mem (f : Clock → Clock) (s : State) : (modClock f s).mem = s.mem := rfl
@[simp] theorem modClock_resp (f : Clock → Clock) (s : State) : (modClock f s).resp = s.resp := rfl
@[simp] theorem modClock_out (f : Clock → Clock) (s : State) : (modClock f s).out = s.out := rfl
@[simp] theorem modClock_nextId (f : Clock → Clock) (s : State) : (modClock f s).nextId = s.nextId := rfl
@[simp] theorem modClock_free (f : Clock → Clock) (s : State) : (modClock f s).free = s.free := rfl
@[simp] theorem modClock_turn (f : Clock → Clock) (s : State) : (modClock f s).turn = s.turn := rfl
@[simp] theorem modClock_runners (f : Clock → Clock) (s : State) : (modClock f s).runners = s.runners := rfl
@[simp] theorem modClock_cores (f : Clock → Clock) (s : State) : (modClock f s).cores = s.cores := rfl
@[simp] theorem modClock_progs (f : Clock → Clock) (s : State) : (modClock f s).progs = s.progs := rfl
@[simp] theorem modClock_hurdles (f : Clock → Clock) (s : State) : (modClock f s).hurdles = s.hurdles := rfl
@[simp] theorem modClock_windows (f : Clock → Clock) (s : State) : (modClock f s).windows = s.windows := rfl
@[simp] theorem modClock_accesses (f : Clock → Clock) (s : State) : (modClock f s).accesses = s.accesses := rfl
@[simp] theorem modClock_shares (f : Clock → Clock) (s : State) : (modClock f s).shares = s.shares := rfl
@[simp] theorem modClock_launches (f : Clock → Clock) (s : State) : (modClock f s).launches = s.launches := rfl
@[simp] theorem modClock_halts (f : Clock → Clock) (s : State) : (modClock f s).halts = s.halts := rfl
@[simp] theorem modClock_newMaps (f : Clock → Clock) (s : State) : (modClock f s).newMaps = s.newMaps := rfl
@[simp] theorem modClock_host (f : Clock → Clock) (s : State) : (modClock f s).host = s.host := rfl
@[simp] theorem modClock_msix (f : Clock → Clock) (s : State) : (modClock f s).msix = s.msix := rfl
@[simp] theorem modClock_lap (f : Clock → Clock) (s : State) : (modClock f s).lap = s.lap := rfl
@[simp] theorem modClock_census (f : Clock → Clock) (s : State) : (modClock f s).census = s.census := rfl
@[simp] theorem modClock_memp (f : Clock → Clock) (s : State) : (modClock f s).memp = s.memp := rfl
@[simp] theorem modClock_relays (f : Clock → Clock) (s : State) : (modClock f s).relays = s.relays := rfl
@[simp] theorem modClock_heat (f : Clock → Clock) (s : State) : (modClock f s).heat = s.heat := rfl
@[simp] theorem modClock_fabric (f : Clock → Clock) (s : State) : (modClock f s).fabric = s.fabric := rfl
@[simp] theorem modClock_light (f : Clock → Clock) (s : State) : (modClock f s).light = s.light := rfl
@[simp] theorem modClock_sweyr (f : Clock → Clock) (s : State) : (modClock f s).sweyr = s.sweyr := rfl
@[simp] theorem modClock_power (f : Clock → Clock) (s : State) : (modClock f s).power = s.power := rfl
@[simp] theorem modClock_sec (f : Clock → Clock) (s : State) : (modClock f s).sec = s.sec := rfl
@[simp] theorem modClock_blotter (f : Clock → Clock) (s : State) : (modClock f s).blotter = s.blotter := rfl

/-! modMem -/
@[simp] theorem modMem_pending (f : MemProt → MemProt) (s : State) : (modMem f s).pending = s.pending := rfl
@[simp] theorem modMem_regs (f : MemProt → MemProt) (s : State) : (modMem f s).regs = s.regs := rfl
@[simp] theorem modMem_mem (f : MemProt → MemProt) (s : State) : (modMem f s).mem = s.mem := rfl
@[simp] theorem modMem_resp (f : MemProt → MemProt) (s : State) : (modMem f s).resp = s.resp := rfl
@[simp] theorem modMem_out (f : MemProt → MemProt) (s : State) : (modMem f s).out = s.out := rfl
@[simp] theorem modMem_nextId (f : MemProt → MemProt) (s : State) : (modMem f s).nextId = s.nextId := rfl
@[simp] theorem modMem_free (f : MemProt → MemProt) (s : State) : (modMem f s).free = s.free := rfl
@[simp] theorem modMem_turn (f : MemProt → MemProt) (s : State) : (modMem f s).turn = s.turn := rfl
@[simp] theorem modMem_runners (f : MemProt → MemProt) (s : State) : (modMem f s).runners = s.runners := rfl
@[simp] theorem modMem_cores (f : MemProt → MemProt) (s : State) : (modMem f s).cores = s.cores := rfl
@[simp] theorem modMem_progs (f : MemProt → MemProt) (s : State) : (modMem f s).progs = s.progs := rfl
@[simp] theorem modMem_hurdles (f : MemProt → MemProt) (s : State) : (modMem f s).hurdles = s.hurdles := rfl
@[simp] theorem modMem_windows (f : MemProt → MemProt) (s : State) : (modMem f s).windows = s.windows := rfl
@[simp] theorem modMem_accesses (f : MemProt → MemProt) (s : State) : (modMem f s).accesses = s.accesses := rfl
@[simp] theorem modMem_shares (f : MemProt → MemProt) (s : State) : (modMem f s).shares = s.shares := rfl
@[simp] theorem modMem_launches (f : MemProt → MemProt) (s : State) : (modMem f s).launches = s.launches := rfl
@[simp] theorem modMem_halts (f : MemProt → MemProt) (s : State) : (modMem f s).halts = s.halts := rfl
@[simp] theorem modMem_newMaps (f : MemProt → MemProt) (s : State) : (modMem f s).newMaps = s.newMaps := rfl
@[simp] theorem modMem_host (f : MemProt → MemProt) (s : State) : (modMem f s).host = s.host := rfl
@[simp] theorem modMem_msix (f : MemProt → MemProt) (s : State) : (modMem f s).msix = s.msix := rfl
@[simp] theorem modMem_lap (f : MemProt → MemProt) (s : State) : (modMem f s).lap = s.lap := rfl
@[simp] theorem modMem_census (f : MemProt → MemProt) (s : State) : (modMem f s).census = s.census := rfl
@[simp] theorem modMem_relays (f : MemProt → MemProt) (s : State) : (modMem f s).relays = s.relays := rfl
@[simp] theorem modMem_heat (f : MemProt → MemProt) (s : State) : (modMem f s).heat = s.heat := rfl
@[simp] theorem modMem_fabric (f : MemProt → MemProt) (s : State) : (modMem f s).fabric = s.fabric := rfl
@[simp] theorem modMem_light (f : MemProt → MemProt) (s : State) : (modMem f s).light = s.light := rfl
@[simp] theorem modMem_sweyr (f : MemProt → MemProt) (s : State) : (modMem f s).sweyr = s.sweyr := rfl
@[simp] theorem modMem_clock (f : MemProt → MemProt) (s : State) : (modMem f s).clock = s.clock := rfl
@[simp] theorem modMem_power (f : MemProt → MemProt) (s : State) : (modMem f s).power = s.power := rfl
@[simp] theorem modMem_sec (f : MemProt → MemProt) (s : State) : (modMem f s).sec = s.sec := rfl
@[simp] theorem modMem_blotter (f : MemProt → MemProt) (s : State) : (modMem f s).blotter = s.blotter := rfl

/-! modHeat -/
@[simp] theorem modHeat_pending (f : Heat → Heat) (s : State) : (modHeat f s).pending = s.pending := rfl
@[simp] theorem modHeat_regs (f : Heat → Heat) (s : State) : (modHeat f s).regs = s.regs := rfl
@[simp] theorem modHeat_mem (f : Heat → Heat) (s : State) : (modHeat f s).mem = s.mem := rfl
@[simp] theorem modHeat_resp (f : Heat → Heat) (s : State) : (modHeat f s).resp = s.resp := rfl
@[simp] theorem modHeat_out (f : Heat → Heat) (s : State) : (modHeat f s).out = s.out := rfl
@[simp] theorem modHeat_nextId (f : Heat → Heat) (s : State) : (modHeat f s).nextId = s.nextId := rfl
@[simp] theorem modHeat_free (f : Heat → Heat) (s : State) : (modHeat f s).free = s.free := rfl
@[simp] theorem modHeat_turn (f : Heat → Heat) (s : State) : (modHeat f s).turn = s.turn := rfl
@[simp] theorem modHeat_runners (f : Heat → Heat) (s : State) : (modHeat f s).runners = s.runners := rfl
@[simp] theorem modHeat_cores (f : Heat → Heat) (s : State) : (modHeat f s).cores = s.cores := rfl
@[simp] theorem modHeat_progs (f : Heat → Heat) (s : State) : (modHeat f s).progs = s.progs := rfl
@[simp] theorem modHeat_hurdles (f : Heat → Heat) (s : State) : (modHeat f s).hurdles = s.hurdles := rfl
@[simp] theorem modHeat_windows (f : Heat → Heat) (s : State) : (modHeat f s).windows = s.windows := rfl
@[simp] theorem modHeat_accesses (f : Heat → Heat) (s : State) : (modHeat f s).accesses = s.accesses := rfl
@[simp] theorem modHeat_shares (f : Heat → Heat) (s : State) : (modHeat f s).shares = s.shares := rfl
@[simp] theorem modHeat_launches (f : Heat → Heat) (s : State) : (modHeat f s).launches = s.launches := rfl
@[simp] theorem modHeat_halts (f : Heat → Heat) (s : State) : (modHeat f s).halts = s.halts := rfl
@[simp] theorem modHeat_newMaps (f : Heat → Heat) (s : State) : (modHeat f s).newMaps = s.newMaps := rfl
@[simp] theorem modHeat_host (f : Heat → Heat) (s : State) : (modHeat f s).host = s.host := rfl
@[simp] theorem modHeat_msix (f : Heat → Heat) (s : State) : (modHeat f s).msix = s.msix := rfl
@[simp] theorem modHeat_lap (f : Heat → Heat) (s : State) : (modHeat f s).lap = s.lap := rfl
@[simp] theorem modHeat_census (f : Heat → Heat) (s : State) : (modHeat f s).census = s.census := rfl
@[simp] theorem modHeat_memp (f : Heat → Heat) (s : State) : (modHeat f s).memp = s.memp := rfl
@[simp] theorem modHeat_relays (f : Heat → Heat) (s : State) : (modHeat f s).relays = s.relays := rfl
@[simp] theorem modHeat_fabric (f : Heat → Heat) (s : State) : (modHeat f s).fabric = s.fabric := rfl
@[simp] theorem modHeat_light (f : Heat → Heat) (s : State) : (modHeat f s).light = s.light := rfl
@[simp] theorem modHeat_sweyr (f : Heat → Heat) (s : State) : (modHeat f s).sweyr = s.sweyr := rfl
@[simp] theorem modHeat_clock (f : Heat → Heat) (s : State) : (modHeat f s).clock = s.clock := rfl
@[simp] theorem modHeat_power (f : Heat → Heat) (s : State) : (modHeat f s).power = s.power := rfl
@[simp] theorem modHeat_sec (f : Heat → Heat) (s : State) : (modHeat f s).sec = s.sec := rfl
@[simp] theorem modHeat_blotter (f : Heat → Heat) (s : State) : (modHeat f s).blotter = s.blotter := rfl

/-! modLap -/
@[simp] theorem modLap_pending (f : LapBlock → LapBlock) (s : State) : (modLap f s).pending = s.pending := rfl
@[simp] theorem modLap_regs (f : LapBlock → LapBlock) (s : State) : (modLap f s).regs = s.regs := rfl
@[simp] theorem modLap_mem (f : LapBlock → LapBlock) (s : State) : (modLap f s).mem = s.mem := rfl
@[simp] theorem modLap_resp (f : LapBlock → LapBlock) (s : State) : (modLap f s).resp = s.resp := rfl
@[simp] theorem modLap_out (f : LapBlock → LapBlock) (s : State) : (modLap f s).out = s.out := rfl
@[simp] theorem modLap_nextId (f : LapBlock → LapBlock) (s : State) : (modLap f s).nextId = s.nextId := rfl
@[simp] theorem modLap_free (f : LapBlock → LapBlock) (s : State) : (modLap f s).free = s.free := rfl
@[simp] theorem modLap_turn (f : LapBlock → LapBlock) (s : State) : (modLap f s).turn = s.turn := rfl
@[simp] theorem modLap_runners (f : LapBlock → LapBlock) (s : State) : (modLap f s).runners = s.runners := rfl
@[simp] theorem modLap_cores (f : LapBlock → LapBlock) (s : State) : (modLap f s).cores = s.cores := rfl
@[simp] theorem modLap_progs (f : LapBlock → LapBlock) (s : State) : (modLap f s).progs = s.progs := rfl
@[simp] theorem modLap_hurdles (f : LapBlock → LapBlock) (s : State) : (modLap f s).hurdles = s.hurdles := rfl
@[simp] theorem modLap_windows (f : LapBlock → LapBlock) (s : State) : (modLap f s).windows = s.windows := rfl
@[simp] theorem modLap_accesses (f : LapBlock → LapBlock) (s : State) : (modLap f s).accesses = s.accesses := rfl
@[simp] theorem modLap_shares (f : LapBlock → LapBlock) (s : State) : (modLap f s).shares = s.shares := rfl
@[simp] theorem modLap_launches (f : LapBlock → LapBlock) (s : State) : (modLap f s).launches = s.launches := rfl
@[simp] theorem modLap_halts (f : LapBlock → LapBlock) (s : State) : (modLap f s).halts = s.halts := rfl
@[simp] theorem modLap_newMaps (f : LapBlock → LapBlock) (s : State) : (modLap f s).newMaps = s.newMaps := rfl
@[simp] theorem modLap_host (f : LapBlock → LapBlock) (s : State) : (modLap f s).host = s.host := rfl
@[simp] theorem modLap_msix (f : LapBlock → LapBlock) (s : State) : (modLap f s).msix = s.msix := rfl
@[simp] theorem modLap_census (f : LapBlock → LapBlock) (s : State) : (modLap f s).census = s.census := rfl
@[simp] theorem modLap_memp (f : LapBlock → LapBlock) (s : State) : (modLap f s).memp = s.memp := rfl
@[simp] theorem modLap_relays (f : LapBlock → LapBlock) (s : State) : (modLap f s).relays = s.relays := rfl
@[simp] theorem modLap_heat (f : LapBlock → LapBlock) (s : State) : (modLap f s).heat = s.heat := rfl
@[simp] theorem modLap_fabric (f : LapBlock → LapBlock) (s : State) : (modLap f s).fabric = s.fabric := rfl
@[simp] theorem modLap_light (f : LapBlock → LapBlock) (s : State) : (modLap f s).light = s.light := rfl
@[simp] theorem modLap_sweyr (f : LapBlock → LapBlock) (s : State) : (modLap f s).sweyr = s.sweyr := rfl
@[simp] theorem modLap_clock (f : LapBlock → LapBlock) (s : State) : (modLap f s).clock = s.clock := rfl
@[simp] theorem modLap_power (f : LapBlock → LapBlock) (s : State) : (modLap f s).power = s.power := rfl
@[simp] theorem modLap_sec (f : LapBlock → LapBlock) (s : State) : (modLap f s).sec = s.sec := rfl
@[simp] theorem modLap_blotter (f : LapBlock → LapBlock) (s : State) : (modLap f s).blotter = s.blotter := rfl

/-! modFab -/
@[simp] theorem modFab_pending (f : Fabric → Fabric) (s : State) : (modFab f s).pending = s.pending := rfl
@[simp] theorem modFab_regs (f : Fabric → Fabric) (s : State) : (modFab f s).regs = s.regs := rfl
@[simp] theorem modFab_mem (f : Fabric → Fabric) (s : State) : (modFab f s).mem = s.mem := rfl
@[simp] theorem modFab_resp (f : Fabric → Fabric) (s : State) : (modFab f s).resp = s.resp := rfl
@[simp] theorem modFab_out (f : Fabric → Fabric) (s : State) : (modFab f s).out = s.out := rfl
@[simp] theorem modFab_nextId (f : Fabric → Fabric) (s : State) : (modFab f s).nextId = s.nextId := rfl
@[simp] theorem modFab_free (f : Fabric → Fabric) (s : State) : (modFab f s).free = s.free := rfl
@[simp] theorem modFab_turn (f : Fabric → Fabric) (s : State) : (modFab f s).turn = s.turn := rfl
@[simp] theorem modFab_runners (f : Fabric → Fabric) (s : State) : (modFab f s).runners = s.runners := rfl
@[simp] theorem modFab_cores (f : Fabric → Fabric) (s : State) : (modFab f s).cores = s.cores := rfl
@[simp] theorem modFab_progs (f : Fabric → Fabric) (s : State) : (modFab f s).progs = s.progs := rfl
@[simp] theorem modFab_hurdles (f : Fabric → Fabric) (s : State) : (modFab f s).hurdles = s.hurdles := rfl
@[simp] theorem modFab_windows (f : Fabric → Fabric) (s : State) : (modFab f s).windows = s.windows := rfl
@[simp] theorem modFab_accesses (f : Fabric → Fabric) (s : State) : (modFab f s).accesses = s.accesses := rfl
@[simp] theorem modFab_shares (f : Fabric → Fabric) (s : State) : (modFab f s).shares = s.shares := rfl
@[simp] theorem modFab_launches (f : Fabric → Fabric) (s : State) : (modFab f s).launches = s.launches := rfl
@[simp] theorem modFab_halts (f : Fabric → Fabric) (s : State) : (modFab f s).halts = s.halts := rfl
@[simp] theorem modFab_newMaps (f : Fabric → Fabric) (s : State) : (modFab f s).newMaps = s.newMaps := rfl
@[simp] theorem modFab_host (f : Fabric → Fabric) (s : State) : (modFab f s).host = s.host := rfl
@[simp] theorem modFab_msix (f : Fabric → Fabric) (s : State) : (modFab f s).msix = s.msix := rfl
@[simp] theorem modFab_lap (f : Fabric → Fabric) (s : State) : (modFab f s).lap = s.lap := rfl
@[simp] theorem modFab_census (f : Fabric → Fabric) (s : State) : (modFab f s).census = s.census := rfl
@[simp] theorem modFab_memp (f : Fabric → Fabric) (s : State) : (modFab f s).memp = s.memp := rfl
@[simp] theorem modFab_relays (f : Fabric → Fabric) (s : State) : (modFab f s).relays = s.relays := rfl
@[simp] theorem modFab_heat (f : Fabric → Fabric) (s : State) : (modFab f s).heat = s.heat := rfl
@[simp] theorem modFab_light (f : Fabric → Fabric) (s : State) : (modFab f s).light = s.light := rfl
@[simp] theorem modFab_sweyr (f : Fabric → Fabric) (s : State) : (modFab f s).sweyr = s.sweyr := rfl
@[simp] theorem modFab_clock (f : Fabric → Fabric) (s : State) : (modFab f s).clock = s.clock := rfl
@[simp] theorem modFab_power (f : Fabric → Fabric) (s : State) : (modFab f s).power = s.power := rfl
@[simp] theorem modFab_sec (f : Fabric → Fabric) (s : State) : (modFab f s).sec = s.sec := rfl
@[simp] theorem modFab_blotter (f : Fabric → Fabric) (s : State) : (modFab f s).blotter = s.blotter := rfl

/-! modLink -/
@[simp] theorem modLink_pending (l : Nat) (f : Link → Link) (s : State) : (modLink l f s).pending = s.pending := rfl
@[simp] theorem modLink_regs (l : Nat) (f : Link → Link) (s : State) : (modLink l f s).regs = s.regs := rfl
@[simp] theorem modLink_mem (l : Nat) (f : Link → Link) (s : State) : (modLink l f s).mem = s.mem := rfl
@[simp] theorem modLink_resp (l : Nat) (f : Link → Link) (s : State) : (modLink l f s).resp = s.resp := rfl
@[simp] theorem modLink_out (l : Nat) (f : Link → Link) (s : State) : (modLink l f s).out = s.out := rfl
@[simp] theorem modLink_nextId (l : Nat) (f : Link → Link) (s : State) : (modLink l f s).nextId = s.nextId := rfl
@[simp] theorem modLink_free (l : Nat) (f : Link → Link) (s : State) : (modLink l f s).free = s.free := rfl
@[simp] theorem modLink_turn (l : Nat) (f : Link → Link) (s : State) : (modLink l f s).turn = s.turn := rfl
@[simp] theorem modLink_runners (l : Nat) (f : Link → Link) (s : State) : (modLink l f s).runners = s.runners := rfl
@[simp] theorem modLink_cores (l : Nat) (f : Link → Link) (s : State) : (modLink l f s).cores = s.cores := rfl
@[simp] theorem modLink_progs (l : Nat) (f : Link → Link) (s : State) : (modLink l f s).progs = s.progs := rfl
@[simp] theorem modLink_hurdles (l : Nat) (f : Link → Link) (s : State) : (modLink l f s).hurdles = s.hurdles := rfl
@[simp] theorem modLink_windows (l : Nat) (f : Link → Link) (s : State) : (modLink l f s).windows = s.windows := rfl
@[simp] theorem modLink_accesses (l : Nat) (f : Link → Link) (s : State) : (modLink l f s).accesses = s.accesses := rfl
@[simp] theorem modLink_shares (l : Nat) (f : Link → Link) (s : State) : (modLink l f s).shares = s.shares := rfl
@[simp] theorem modLink_launches (l : Nat) (f : Link → Link) (s : State) : (modLink l f s).launches = s.launches := rfl
@[simp] theorem modLink_halts (l : Nat) (f : Link → Link) (s : State) : (modLink l f s).halts = s.halts := rfl
@[simp] theorem modLink_newMaps (l : Nat) (f : Link → Link) (s : State) : (modLink l f s).newMaps = s.newMaps := rfl
@[simp] theorem modLink_host (l : Nat) (f : Link → Link) (s : State) : (modLink l f s).host = s.host := rfl
@[simp] theorem modLink_msix (l : Nat) (f : Link → Link) (s : State) : (modLink l f s).msix = s.msix := rfl
@[simp] theorem modLink_lap (l : Nat) (f : Link → Link) (s : State) : (modLink l f s).lap = s.lap := rfl
@[simp] theorem modLink_census (l : Nat) (f : Link → Link) (s : State) : (modLink l f s).census = s.census := rfl
@[simp] theorem modLink_memp (l : Nat) (f : Link → Link) (s : State) : (modLink l f s).memp = s.memp := rfl
@[simp] theorem modLink_relays (l : Nat) (f : Link → Link) (s : State) : (modLink l f s).relays = s.relays := rfl
@[simp] theorem modLink_heat (l : Nat) (f : Link → Link) (s : State) : (modLink l f s).heat = s.heat := rfl
@[simp] theorem modLink_light (l : Nat) (f : Link → Link) (s : State) : (modLink l f s).light = s.light := rfl
@[simp] theorem modLink_sweyr (l : Nat) (f : Link → Link) (s : State) : (modLink l f s).sweyr = s.sweyr := rfl
@[simp] theorem modLink_clock (l : Nat) (f : Link → Link) (s : State) : (modLink l f s).clock = s.clock := rfl
@[simp] theorem modLink_power (l : Nat) (f : Link → Link) (s : State) : (modLink l f s).power = s.power := rfl
@[simp] theorem modLink_sec (l : Nat) (f : Link → Link) (s : State) : (modLink l f s).sec = s.sec := rfl
@[simp] theorem modLink_blotter (l : Nat) (f : Link → Link) (s : State) : (modLink l f s).blotter = s.blotter := rfl

/-! modChan -/
@[simp] theorem modChan_pending (e c : Nat) (f : Channel → Channel) (s : State) : (modChan e c f s).pending = s.pending := rfl
@[simp] theorem modChan_regs (e c : Nat) (f : Channel → Channel) (s : State) : (modChan e c f s).regs = s.regs := rfl
@[simp] theorem modChan_mem (e c : Nat) (f : Channel → Channel) (s : State) : (modChan e c f s).mem = s.mem := rfl
@[simp] theorem modChan_resp (e c : Nat) (f : Channel → Channel) (s : State) : (modChan e c f s).resp = s.resp := rfl
@[simp] theorem modChan_out (e c : Nat) (f : Channel → Channel) (s : State) : (modChan e c f s).out = s.out := rfl
@[simp] theorem modChan_nextId (e c : Nat) (f : Channel → Channel) (s : State) : (modChan e c f s).nextId = s.nextId := rfl
@[simp] theorem modChan_free (e c : Nat) (f : Channel → Channel) (s : State) : (modChan e c f s).free = s.free := rfl
@[simp] theorem modChan_turn (e c : Nat) (f : Channel → Channel) (s : State) : (modChan e c f s).turn = s.turn := rfl
@[simp] theorem modChan_runners (e c : Nat) (f : Channel → Channel) (s : State) : (modChan e c f s).runners = s.runners := rfl
@[simp] theorem modChan_cores (e c : Nat) (f : Channel → Channel) (s : State) : (modChan e c f s).cores = s.cores := rfl
@[simp] theorem modChan_progs (e c : Nat) (f : Channel → Channel) (s : State) : (modChan e c f s).progs = s.progs := rfl
@[simp] theorem modChan_hurdles (e c : Nat) (f : Channel → Channel) (s : State) : (modChan e c f s).hurdles = s.hurdles := rfl
@[simp] theorem modChan_windows (e c : Nat) (f : Channel → Channel) (s : State) : (modChan e c f s).windows = s.windows := rfl
@[simp] theorem modChan_accesses (e c : Nat) (f : Channel → Channel) (s : State) : (modChan e c f s).accesses = s.accesses := rfl
@[simp] theorem modChan_shares (e c : Nat) (f : Channel → Channel) (s : State) : (modChan e c f s).shares = s.shares := rfl
@[simp] theorem modChan_launches (e c : Nat) (f : Channel → Channel) (s : State) : (modChan e c f s).launches = s.launches := rfl
@[simp] theorem modChan_halts (e c : Nat) (f : Channel → Channel) (s : State) : (modChan e c f s).halts = s.halts := rfl
@[simp] theorem modChan_newMaps (e c : Nat) (f : Channel → Channel) (s : State) : (modChan e c f s).newMaps = s.newMaps := rfl
@[simp] theorem modChan_host (e c : Nat) (f : Channel → Channel) (s : State) : (modChan e c f s).host = s.host := rfl
@[simp] theorem modChan_msix (e c : Nat) (f : Channel → Channel) (s : State) : (modChan e c f s).msix = s.msix := rfl
@[simp] theorem modChan_lap (e c : Nat) (f : Channel → Channel) (s : State) : (modChan e c f s).lap = s.lap := rfl
@[simp] theorem modChan_census (e c : Nat) (f : Channel → Channel) (s : State) : (modChan e c f s).census = s.census := rfl
@[simp] theorem modChan_memp (e c : Nat) (f : Channel → Channel) (s : State) : (modChan e c f s).memp = s.memp := rfl
@[simp] theorem modChan_relays (e c : Nat) (f : Channel → Channel) (s : State) : (modChan e c f s).relays = s.relays := rfl
@[simp] theorem modChan_heat (e c : Nat) (f : Channel → Channel) (s : State) : (modChan e c f s).heat = s.heat := rfl
@[simp] theorem modChan_light (e c : Nat) (f : Channel → Channel) (s : State) : (modChan e c f s).light = s.light := rfl
@[simp] theorem modChan_sweyr (e c : Nat) (f : Channel → Channel) (s : State) : (modChan e c f s).sweyr = s.sweyr := rfl
@[simp] theorem modChan_clock (e c : Nat) (f : Channel → Channel) (s : State) : (modChan e c f s).clock = s.clock := rfl
@[simp] theorem modChan_power (e c : Nat) (f : Channel → Channel) (s : State) : (modChan e c f s).power = s.power := rfl
@[simp] theorem modChan_sec (e c : Nat) (f : Channel → Channel) (s : State) : (modChan e c f s).sec = s.sec := rfl
@[simp] theorem modChan_blotter (e c : Nat) (f : Channel → Channel) (s : State) : (modChan e c f s).blotter = s.blotter := rfl

/-! modLight -/
@[simp] theorem modLight_pending (f : Light → Light) (s : State) : (modLight f s).pending = s.pending := rfl
@[simp] theorem modLight_regs (f : Light → Light) (s : State) : (modLight f s).regs = s.regs := rfl
@[simp] theorem modLight_mem (f : Light → Light) (s : State) : (modLight f s).mem = s.mem := rfl
@[simp] theorem modLight_resp (f : Light → Light) (s : State) : (modLight f s).resp = s.resp := rfl
@[simp] theorem modLight_out (f : Light → Light) (s : State) : (modLight f s).out = s.out := rfl
@[simp] theorem modLight_nextId (f : Light → Light) (s : State) : (modLight f s).nextId = s.nextId := rfl
@[simp] theorem modLight_free (f : Light → Light) (s : State) : (modLight f s).free = s.free := rfl
@[simp] theorem modLight_turn (f : Light → Light) (s : State) : (modLight f s).turn = s.turn := rfl
@[simp] theorem modLight_runners (f : Light → Light) (s : State) : (modLight f s).runners = s.runners := rfl
@[simp] theorem modLight_cores (f : Light → Light) (s : State) : (modLight f s).cores = s.cores := rfl
@[simp] theorem modLight_progs (f : Light → Light) (s : State) : (modLight f s).progs = s.progs := rfl
@[simp] theorem modLight_hurdles (f : Light → Light) (s : State) : (modLight f s).hurdles = s.hurdles := rfl
@[simp] theorem modLight_windows (f : Light → Light) (s : State) : (modLight f s).windows = s.windows := rfl
@[simp] theorem modLight_accesses (f : Light → Light) (s : State) : (modLight f s).accesses = s.accesses := rfl
@[simp] theorem modLight_shares (f : Light → Light) (s : State) : (modLight f s).shares = s.shares := rfl
@[simp] theorem modLight_launches (f : Light → Light) (s : State) : (modLight f s).launches = s.launches := rfl
@[simp] theorem modLight_halts (f : Light → Light) (s : State) : (modLight f s).halts = s.halts := rfl
@[simp] theorem modLight_newMaps (f : Light → Light) (s : State) : (modLight f s).newMaps = s.newMaps := rfl
@[simp] theorem modLight_host (f : Light → Light) (s : State) : (modLight f s).host = s.host := rfl
@[simp] theorem modLight_msix (f : Light → Light) (s : State) : (modLight f s).msix = s.msix := rfl
@[simp] theorem modLight_lap (f : Light → Light) (s : State) : (modLight f s).lap = s.lap := rfl
@[simp] theorem modLight_census (f : Light → Light) (s : State) : (modLight f s).census = s.census := rfl
@[simp] theorem modLight_memp (f : Light → Light) (s : State) : (modLight f s).memp = s.memp := rfl
@[simp] theorem modLight_relays (f : Light → Light) (s : State) : (modLight f s).relays = s.relays := rfl
@[simp] theorem modLight_heat (f : Light → Light) (s : State) : (modLight f s).heat = s.heat := rfl
@[simp] theorem modLight_fabric (f : Light → Light) (s : State) : (modLight f s).fabric = s.fabric := rfl
@[simp] theorem modLight_sweyr (f : Light → Light) (s : State) : (modLight f s).sweyr = s.sweyr := rfl
@[simp] theorem modLight_clock (f : Light → Light) (s : State) : (modLight f s).clock = s.clock := rfl
@[simp] theorem modLight_power (f : Light → Light) (s : State) : (modLight f s).power = s.power := rfl
@[simp] theorem modLight_sec (f : Light → Light) (s : State) : (modLight f s).sec = s.sec := rfl
@[simp] theorem modLight_blotter (f : Light → Light) (s : State) : (modLight f s).blotter = s.blotter := rfl

/-! modMbx -/
@[simp] theorem modMbx_pending (f : Mbx → Mbx) (s : State) : (modMbx f s).pending = s.pending := rfl
@[simp] theorem modMbx_regs (f : Mbx → Mbx) (s : State) : (modMbx f s).regs = s.regs := rfl
@[simp] theorem modMbx_mem (f : Mbx → Mbx) (s : State) : (modMbx f s).mem = s.mem := rfl
@[simp] theorem modMbx_resp (f : Mbx → Mbx) (s : State) : (modMbx f s).resp = s.resp := rfl
@[simp] theorem modMbx_out (f : Mbx → Mbx) (s : State) : (modMbx f s).out = s.out := rfl
@[simp] theorem modMbx_nextId (f : Mbx → Mbx) (s : State) : (modMbx f s).nextId = s.nextId := rfl
@[simp] theorem modMbx_free (f : Mbx → Mbx) (s : State) : (modMbx f s).free = s.free := rfl
@[simp] theorem modMbx_turn (f : Mbx → Mbx) (s : State) : (modMbx f s).turn = s.turn := rfl
@[simp] theorem modMbx_runners (f : Mbx → Mbx) (s : State) : (modMbx f s).runners = s.runners := rfl
@[simp] theorem modMbx_cores (f : Mbx → Mbx) (s : State) : (modMbx f s).cores = s.cores := rfl
@[simp] theorem modMbx_progs (f : Mbx → Mbx) (s : State) : (modMbx f s).progs = s.progs := rfl
@[simp] theorem modMbx_hurdles (f : Mbx → Mbx) (s : State) : (modMbx f s).hurdles = s.hurdles := rfl
@[simp] theorem modMbx_windows (f : Mbx → Mbx) (s : State) : (modMbx f s).windows = s.windows := rfl
@[simp] theorem modMbx_accesses (f : Mbx → Mbx) (s : State) : (modMbx f s).accesses = s.accesses := rfl
@[simp] theorem modMbx_shares (f : Mbx → Mbx) (s : State) : (modMbx f s).shares = s.shares := rfl
@[simp] theorem modMbx_launches (f : Mbx → Mbx) (s : State) : (modMbx f s).launches = s.launches := rfl
@[simp] theorem modMbx_halts (f : Mbx → Mbx) (s : State) : (modMbx f s).halts = s.halts := rfl
@[simp] theorem modMbx_newMaps (f : Mbx → Mbx) (s : State) : (modMbx f s).newMaps = s.newMaps := rfl
@[simp] theorem modMbx_msix (f : Mbx → Mbx) (s : State) : (modMbx f s).msix = s.msix := rfl
@[simp] theorem modMbx_lap (f : Mbx → Mbx) (s : State) : (modMbx f s).lap = s.lap := rfl
@[simp] theorem modMbx_census (f : Mbx → Mbx) (s : State) : (modMbx f s).census = s.census := rfl
@[simp] theorem modMbx_memp (f : Mbx → Mbx) (s : State) : (modMbx f s).memp = s.memp := rfl
@[simp] theorem modMbx_relays (f : Mbx → Mbx) (s : State) : (modMbx f s).relays = s.relays := rfl
@[simp] theorem modMbx_heat (f : Mbx → Mbx) (s : State) : (modMbx f s).heat = s.heat := rfl
@[simp] theorem modMbx_fabric (f : Mbx → Mbx) (s : State) : (modMbx f s).fabric = s.fabric := rfl
@[simp] theorem modMbx_light (f : Mbx → Mbx) (s : State) : (modMbx f s).light = s.light := rfl
@[simp] theorem modMbx_sweyr (f : Mbx → Mbx) (s : State) : (modMbx f s).sweyr = s.sweyr := rfl
@[simp] theorem modMbx_clock (f : Mbx → Mbx) (s : State) : (modMbx f s).clock = s.clock := rfl
@[simp] theorem modMbx_power (f : Mbx → Mbx) (s : State) : (modMbx f s).power = s.power := rfl
@[simp] theorem modMbx_sec (f : Mbx → Mbx) (s : State) : (modMbx f s).sec = s.sec := rfl
@[simp] theorem modMbx_blotter (f : Mbx → Mbx) (s : State) : (modMbx f s).blotter = s.blotter := rfl

/-! setQueue -/
@[simp] theorem setQueue_pending (s : State) (q : Nat) (r : Queue) : (setQueue s q r).pending = s.pending := rfl
@[simp] theorem setQueue_regs (s : State) (q : Nat) (r : Queue) : (setQueue s q r).regs = s.regs := rfl
@[simp] theorem setQueue_mem (s : State) (q : Nat) (r : Queue) : (setQueue s q r).mem = s.mem := rfl
@[simp] theorem setQueue_resp (s : State) (q : Nat) (r : Queue) : (setQueue s q r).resp = s.resp := rfl
@[simp] theorem setQueue_out (s : State) (q : Nat) (r : Queue) : (setQueue s q r).out = s.out := rfl
@[simp] theorem setQueue_nextId (s : State) (q : Nat) (r : Queue) : (setQueue s q r).nextId = s.nextId := rfl
@[simp] theorem setQueue_free (s : State) (q : Nat) (r : Queue) : (setQueue s q r).free = s.free := rfl
@[simp] theorem setQueue_turn (s : State) (q : Nat) (r : Queue) : (setQueue s q r).turn = s.turn := rfl
@[simp] theorem setQueue_runners (s : State) (q : Nat) (r : Queue) : (setQueue s q r).runners = s.runners := rfl
@[simp] theorem setQueue_cores (s : State) (q : Nat) (r : Queue) : (setQueue s q r).cores = s.cores := rfl
@[simp] theorem setQueue_progs (s : State) (q : Nat) (r : Queue) : (setQueue s q r).progs = s.progs := rfl
@[simp] theorem setQueue_hurdles (s : State) (q : Nat) (r : Queue) : (setQueue s q r).hurdles = s.hurdles := rfl
@[simp] theorem setQueue_windows (s : State) (q : Nat) (r : Queue) : (setQueue s q r).windows = s.windows := rfl
@[simp] theorem setQueue_accesses (s : State) (q : Nat) (r : Queue) : (setQueue s q r).accesses = s.accesses := rfl
@[simp] theorem setQueue_shares (s : State) (q : Nat) (r : Queue) : (setQueue s q r).shares = s.shares := rfl
@[simp] theorem setQueue_launches (s : State) (q : Nat) (r : Queue) : (setQueue s q r).launches = s.launches := rfl
@[simp] theorem setQueue_halts (s : State) (q : Nat) (r : Queue) : (setQueue s q r).halts = s.halts := rfl
@[simp] theorem setQueue_newMaps (s : State) (q : Nat) (r : Queue) : (setQueue s q r).newMaps = s.newMaps := rfl
@[simp] theorem setQueue_msix (s : State) (q : Nat) (r : Queue) : (setQueue s q r).msix = s.msix := rfl
@[simp] theorem setQueue_lap (s : State) (q : Nat) (r : Queue) : (setQueue s q r).lap = s.lap := rfl
@[simp] theorem setQueue_census (s : State) (q : Nat) (r : Queue) : (setQueue s q r).census = s.census := rfl
@[simp] theorem setQueue_memp (s : State) (q : Nat) (r : Queue) : (setQueue s q r).memp = s.memp := rfl
@[simp] theorem setQueue_relays (s : State) (q : Nat) (r : Queue) : (setQueue s q r).relays = s.relays := rfl
@[simp] theorem setQueue_heat (s : State) (q : Nat) (r : Queue) : (setQueue s q r).heat = s.heat := rfl
@[simp] theorem setQueue_fabric (s : State) (q : Nat) (r : Queue) : (setQueue s q r).fabric = s.fabric := rfl
@[simp] theorem setQueue_light (s : State) (q : Nat) (r : Queue) : (setQueue s q r).light = s.light := rfl
@[simp] theorem setQueue_sweyr (s : State) (q : Nat) (r : Queue) : (setQueue s q r).sweyr = s.sweyr := rfl
@[simp] theorem setQueue_clock (s : State) (q : Nat) (r : Queue) : (setQueue s q r).clock = s.clock := rfl
@[simp] theorem setQueue_power (s : State) (q : Nat) (r : Queue) : (setQueue s q r).power = s.power := rfl
@[simp] theorem setQueue_sec (s : State) (q : Nat) (r : Queue) : (setQueue s q r).sec = s.sec := rfl
@[simp] theorem setQueue_blotter (s : State) (q : Nat) (r : Queue) : (setQueue s q r).blotter = s.blotter := rfl

/-! modEngine -/
@[simp] theorem modEngine_pending (e : Nat) (f : Engine → Engine) (s : State) : (modEngine e f s).pending = s.pending := rfl
@[simp] theorem modEngine_regs (e : Nat) (f : Engine → Engine) (s : State) : (modEngine e f s).regs = s.regs := rfl
@[simp] theorem modEngine_mem (e : Nat) (f : Engine → Engine) (s : State) : (modEngine e f s).mem = s.mem := rfl
@[simp] theorem modEngine_resp (e : Nat) (f : Engine → Engine) (s : State) : (modEngine e f s).resp = s.resp := rfl
@[simp] theorem modEngine_out (e : Nat) (f : Engine → Engine) (s : State) : (modEngine e f s).out = s.out := rfl
@[simp] theorem modEngine_nextId (e : Nat) (f : Engine → Engine) (s : State) : (modEngine e f s).nextId = s.nextId := rfl
@[simp] theorem modEngine_free (e : Nat) (f : Engine → Engine) (s : State) : (modEngine e f s).free = s.free := rfl
@[simp] theorem modEngine_turn (e : Nat) (f : Engine → Engine) (s : State) : (modEngine e f s).turn = s.turn := rfl
@[simp] theorem modEngine_runners (e : Nat) (f : Engine → Engine) (s : State) : (modEngine e f s).runners = s.runners := rfl
@[simp] theorem modEngine_cores (e : Nat) (f : Engine → Engine) (s : State) : (modEngine e f s).cores = s.cores := rfl
@[simp] theorem modEngine_progs (e : Nat) (f : Engine → Engine) (s : State) : (modEngine e f s).progs = s.progs := rfl
@[simp] theorem modEngine_hurdles (e : Nat) (f : Engine → Engine) (s : State) : (modEngine e f s).hurdles = s.hurdles := rfl
@[simp] theorem modEngine_windows (e : Nat) (f : Engine → Engine) (s : State) : (modEngine e f s).windows = s.windows := rfl
@[simp] theorem modEngine_accesses (e : Nat) (f : Engine → Engine) (s : State) : (modEngine e f s).accesses = s.accesses := rfl
@[simp] theorem modEngine_shares (e : Nat) (f : Engine → Engine) (s : State) : (modEngine e f s).shares = s.shares := rfl
@[simp] theorem modEngine_launches (e : Nat) (f : Engine → Engine) (s : State) : (modEngine e f s).launches = s.launches := rfl
@[simp] theorem modEngine_halts (e : Nat) (f : Engine → Engine) (s : State) : (modEngine e f s).halts = s.halts := rfl
@[simp] theorem modEngine_newMaps (e : Nat) (f : Engine → Engine) (s : State) : (modEngine e f s).newMaps = s.newMaps := rfl
@[simp] theorem modEngine_host (e : Nat) (f : Engine → Engine) (s : State) : (modEngine e f s).host = s.host := rfl
@[simp] theorem modEngine_msix (e : Nat) (f : Engine → Engine) (s : State) : (modEngine e f s).msix = s.msix := rfl
@[simp] theorem modEngine_lap (e : Nat) (f : Engine → Engine) (s : State) : (modEngine e f s).lap = s.lap := rfl
@[simp] theorem modEngine_census (e : Nat) (f : Engine → Engine) (s : State) : (modEngine e f s).census = s.census := rfl
@[simp] theorem modEngine_memp (e : Nat) (f : Engine → Engine) (s : State) : (modEngine e f s).memp = s.memp := rfl
@[simp] theorem modEngine_heat (e : Nat) (f : Engine → Engine) (s : State) : (modEngine e f s).heat = s.heat := rfl
@[simp] theorem modEngine_fabric (e : Nat) (f : Engine → Engine) (s : State) : (modEngine e f s).fabric = s.fabric := rfl
@[simp] theorem modEngine_light (e : Nat) (f : Engine → Engine) (s : State) : (modEngine e f s).light = s.light := rfl
@[simp] theorem modEngine_sweyr (e : Nat) (f : Engine → Engine) (s : State) : (modEngine e f s).sweyr = s.sweyr := rfl
@[simp] theorem modEngine_clock (e : Nat) (f : Engine → Engine) (s : State) : (modEngine e f s).clock = s.clock := rfl
@[simp] theorem modEngine_power (e : Nat) (f : Engine → Engine) (s : State) : (modEngine e f s).power = s.power := rfl
@[simp] theorem modEngine_sec (e : Nat) (f : Engine → Engine) (s : State) : (modEngine e f s).sec = s.sec := rfl
@[simp] theorem modEngine_blotter (e : Nat) (f : Engine → Engine) (s : State) : (modEngine e f s).blotter = s.blotter := rfl

/-! modEnd -/
@[simp] theorem modEnd_pending (x : Nat) (f : SwlEnd → SwlEnd) (s : State) : (modEnd x f s).pending = s.pending := rfl
@[simp] theorem modEnd_regs (x : Nat) (f : SwlEnd → SwlEnd) (s : State) : (modEnd x f s).regs = s.regs := rfl
@[simp] theorem modEnd_mem (x : Nat) (f : SwlEnd → SwlEnd) (s : State) : (modEnd x f s).mem = s.mem := rfl
@[simp] theorem modEnd_resp (x : Nat) (f : SwlEnd → SwlEnd) (s : State) : (modEnd x f s).resp = s.resp := rfl
@[simp] theorem modEnd_out (x : Nat) (f : SwlEnd → SwlEnd) (s : State) : (modEnd x f s).out = s.out := rfl
@[simp] theorem modEnd_nextId (x : Nat) (f : SwlEnd → SwlEnd) (s : State) : (modEnd x f s).nextId = s.nextId := rfl
@[simp] theorem modEnd_free (x : Nat) (f : SwlEnd → SwlEnd) (s : State) : (modEnd x f s).free = s.free := rfl
@[simp] theorem modEnd_turn (x : Nat) (f : SwlEnd → SwlEnd) (s : State) : (modEnd x f s).turn = s.turn := rfl
@[simp] theorem modEnd_runners (x : Nat) (f : SwlEnd → SwlEnd) (s : State) : (modEnd x f s).runners = s.runners := rfl
@[simp] theorem modEnd_cores (x : Nat) (f : SwlEnd → SwlEnd) (s : State) : (modEnd x f s).cores = s.cores := rfl
@[simp] theorem modEnd_progs (x : Nat) (f : SwlEnd → SwlEnd) (s : State) : (modEnd x f s).progs = s.progs := rfl
@[simp] theorem modEnd_hurdles (x : Nat) (f : SwlEnd → SwlEnd) (s : State) : (modEnd x f s).hurdles = s.hurdles := rfl
@[simp] theorem modEnd_windows (x : Nat) (f : SwlEnd → SwlEnd) (s : State) : (modEnd x f s).windows = s.windows := rfl
@[simp] theorem modEnd_accesses (x : Nat) (f : SwlEnd → SwlEnd) (s : State) : (modEnd x f s).accesses = s.accesses := rfl
@[simp] theorem modEnd_shares (x : Nat) (f : SwlEnd → SwlEnd) (s : State) : (modEnd x f s).shares = s.shares := rfl
@[simp] theorem modEnd_launches (x : Nat) (f : SwlEnd → SwlEnd) (s : State) : (modEnd x f s).launches = s.launches := rfl
@[simp] theorem modEnd_halts (x : Nat) (f : SwlEnd → SwlEnd) (s : State) : (modEnd x f s).halts = s.halts := rfl
@[simp] theorem modEnd_newMaps (x : Nat) (f : SwlEnd → SwlEnd) (s : State) : (modEnd x f s).newMaps = s.newMaps := rfl
@[simp] theorem modEnd_host (x : Nat) (f : SwlEnd → SwlEnd) (s : State) : (modEnd x f s).host = s.host := rfl
@[simp] theorem modEnd_msix (x : Nat) (f : SwlEnd → SwlEnd) (s : State) : (modEnd x f s).msix = s.msix := rfl
@[simp] theorem modEnd_lap (x : Nat) (f : SwlEnd → SwlEnd) (s : State) : (modEnd x f s).lap = s.lap := rfl
@[simp] theorem modEnd_census (x : Nat) (f : SwlEnd → SwlEnd) (s : State) : (modEnd x f s).census = s.census := rfl
@[simp] theorem modEnd_memp (x : Nat) (f : SwlEnd → SwlEnd) (s : State) : (modEnd x f s).memp = s.memp := rfl
@[simp] theorem modEnd_relays (x : Nat) (f : SwlEnd → SwlEnd) (s : State) : (modEnd x f s).relays = s.relays := rfl
@[simp] theorem modEnd_heat (x : Nat) (f : SwlEnd → SwlEnd) (s : State) : (modEnd x f s).heat = s.heat := rfl
@[simp] theorem modEnd_fabric (x : Nat) (f : SwlEnd → SwlEnd) (s : State) : (modEnd x f s).fabric = s.fabric := rfl
@[simp] theorem modEnd_light (x : Nat) (f : SwlEnd → SwlEnd) (s : State) : (modEnd x f s).light = s.light := rfl
@[simp] theorem modEnd_clock (x : Nat) (f : SwlEnd → SwlEnd) (s : State) : (modEnd x f s).clock = s.clock := rfl
@[simp] theorem modEnd_power (x : Nat) (f : SwlEnd → SwlEnd) (s : State) : (modEnd x f s).power = s.power := rfl
@[simp] theorem modEnd_sec (x : Nat) (f : SwlEnd → SwlEnd) (s : State) : (modEnd x f s).sec = s.sec := rfl
@[simp] theorem modEnd_blotter (x : Nat) (f : SwlEnd → SwlEnd) (s : State) : (modEnd x f s).blotter = s.blotter := rfl

/-! setHurdle -/
@[simp] theorem setHurdle_pending (key : Nat) (h : Hurdle) (s : State) : (setHurdle key h s).pending = s.pending := rfl
@[simp] theorem setHurdle_regs (key : Nat) (h : Hurdle) (s : State) : (setHurdle key h s).regs = s.regs := rfl
@[simp] theorem setHurdle_mem (key : Nat) (h : Hurdle) (s : State) : (setHurdle key h s).mem = s.mem := rfl
@[simp] theorem setHurdle_resp (key : Nat) (h : Hurdle) (s : State) : (setHurdle key h s).resp = s.resp := rfl
@[simp] theorem setHurdle_out (key : Nat) (h : Hurdle) (s : State) : (setHurdle key h s).out = s.out := rfl
@[simp] theorem setHurdle_nextId (key : Nat) (h : Hurdle) (s : State) : (setHurdle key h s).nextId = s.nextId := rfl
@[simp] theorem setHurdle_free (key : Nat) (h : Hurdle) (s : State) : (setHurdle key h s).free = s.free := rfl
@[simp] theorem setHurdle_turn (key : Nat) (h : Hurdle) (s : State) : (setHurdle key h s).turn = s.turn := rfl
@[simp] theorem setHurdle_runners (key : Nat) (h : Hurdle) (s : State) : (setHurdle key h s).runners = s.runners := rfl
@[simp] theorem setHurdle_cores (key : Nat) (h : Hurdle) (s : State) : (setHurdle key h s).cores = s.cores := rfl
@[simp] theorem setHurdle_progs (key : Nat) (h : Hurdle) (s : State) : (setHurdle key h s).progs = s.progs := rfl
@[simp] theorem setHurdle_windows (key : Nat) (h : Hurdle) (s : State) : (setHurdle key h s).windows = s.windows := rfl
@[simp] theorem setHurdle_accesses (key : Nat) (h : Hurdle) (s : State) : (setHurdle key h s).accesses = s.accesses := rfl
@[simp] theorem setHurdle_shares (key : Nat) (h : Hurdle) (s : State) : (setHurdle key h s).shares = s.shares := rfl
@[simp] theorem setHurdle_launches (key : Nat) (h : Hurdle) (s : State) : (setHurdle key h s).launches = s.launches := rfl
@[simp] theorem setHurdle_halts (key : Nat) (h : Hurdle) (s : State) : (setHurdle key h s).halts = s.halts := rfl
@[simp] theorem setHurdle_newMaps (key : Nat) (h : Hurdle) (s : State) : (setHurdle key h s).newMaps = s.newMaps := rfl
@[simp] theorem setHurdle_host (key : Nat) (h : Hurdle) (s : State) : (setHurdle key h s).host = s.host := rfl
@[simp] theorem setHurdle_msix (key : Nat) (h : Hurdle) (s : State) : (setHurdle key h s).msix = s.msix := rfl
@[simp] theorem setHurdle_lap (key : Nat) (h : Hurdle) (s : State) : (setHurdle key h s).lap = s.lap := rfl
@[simp] theorem setHurdle_census (key : Nat) (h : Hurdle) (s : State) : (setHurdle key h s).census = s.census := rfl
@[simp] theorem setHurdle_memp (key : Nat) (h : Hurdle) (s : State) : (setHurdle key h s).memp = s.memp := rfl
@[simp] theorem setHurdle_relays (key : Nat) (h : Hurdle) (s : State) : (setHurdle key h s).relays = s.relays := rfl
@[simp] theorem setHurdle_heat (key : Nat) (h : Hurdle) (s : State) : (setHurdle key h s).heat = s.heat := rfl
@[simp] theorem setHurdle_fabric (key : Nat) (h : Hurdle) (s : State) : (setHurdle key h s).fabric = s.fabric := rfl
@[simp] theorem setHurdle_light (key : Nat) (h : Hurdle) (s : State) : (setHurdle key h s).light = s.light := rfl
@[simp] theorem setHurdle_sweyr (key : Nat) (h : Hurdle) (s : State) : (setHurdle key h s).sweyr = s.sweyr := rfl
@[simp] theorem setHurdle_clock (key : Nat) (h : Hurdle) (s : State) : (setHurdle key h s).clock = s.clock := rfl
@[simp] theorem setHurdle_power (key : Nat) (h : Hurdle) (s : State) : (setHurdle key h s).power = s.power := rfl
@[simp] theorem setHurdle_sec (key : Nat) (h : Hurdle) (s : State) : (setHurdle key h s).sec = s.sec := rfl
@[simp] theorem setHurdle_blotter (key : Nat) (h : Hurdle) (s : State) : (setHurdle key h s).blotter = s.blotter := rfl

end Sys2Proof.Machine
end

