-- ==== Sys2Proof/Laws/Tab.lean ====
section
/-! SUPPORT. Reads after writes: of tables, registers, fields, runners, cores, links, link ends, engines and queues; and what a write of a register can do. -/

namespace Sys2Proof

/-! ### Tables -/

theorem Tab.find_del {α : Type} (t : Tab α) (j k : Nat) (h : j ≠ k) :
    (Tab.del t k).find? (fun p => p.1 == j) = t.find? (fun p => p.1 == j) := by
  induction t with
  | nil => rfl
  | cons p t ih =>
    have e : Tab.del (p :: t) k = if p.1 != k then p :: Tab.del t k else Tab.del t k := by
      simp only [Tab.del, List.filter_cons]
    rw [e]
    by_cases hp : p.1 = k
    · have hj : (p.1 == j) = false := by simp only [beq_eq_false_iff_ne, ne_eq]; omega
      have hk : (p.1 != k) = false := by simp [hp]
      rw [hk, if_neg (by simp), ih, List.find?_cons, hj]
    · have hk : (p.1 != k) = true := by simp [hp]
      rw [hk, if_pos rfl, List.find?_cons, List.find?_cons, ih]

@[simp] theorem Tab.get_set_self {α : Type} (t : Tab α) (k : Nat) (v d : α) : (t.set k v).get k d = v := by
  simp [Tab.get, Tab.set]

theorem Tab.get_set_ne {α : Type} (t : Tab α) (k j : Nat) (v d : α) (h : j ≠ k) : (t.set k v).get j d = t.get j d := by
  have hk : (k == j) = false := by simp only [beq_eq_false_iff_ne, ne_eq]; omega
  simp only [Tab.get, Tab.set, List.find?_cons, hk]
  rw [Tab.find_del t j k h]

@[simp] theorem Tab.get?_set_self {α : Type} (t : Tab α) (k : Nat) (v : α) : (t.set k v).get? k = some v := by
  simp [Tab.get?, Tab.set]

theorem Tab.get?_set_ne {α : Type} (t : Tab α) (k j : Nat) (v : α) (h : j ≠ k) : (t.set k v).get? j = t.get? j := by
  have hk : (k == j) = false := by simp only [beq_eq_false_iff_ne, ne_eq]; omega
  simp only [Tab.get?, Tab.set, List.find?_cons, hk]
  rw [Tab.find_del t j k h]

/-- A key deleted is not listed. -/
@[simp] theorem Tab.get?_del_self {α : Type} (t : Tab α) (k : Nat) : (Tab.del t k).get? k = none := by
  simp [Tab.get?, Tab.del]

theorem Tab.get?_del_ne {α : Type} (t : Tab α) (k j : Nat) (h : j ≠ k) : (Tab.del t k).get? j = t.get? j := by
  simp only [Tab.get?, Tab.find_del t j k h]

end Sys2Proof

namespace Sys2Proof.Machine

/-! ### Registers and their fields -/

@[simp] theorem regVal_setReg_self (s : State) (r : Reg) (v : Word) : regVal (setReg s r v) r = v := by
  simp [regVal, setReg]

theorem regVal_setReg_ne (s : State) (r q : Reg) (v : Word) (h : q ≠ r) : regVal (setReg s r v) q = regVal s q := by
  have hr : (r == q) = false := by simp [h.symm]
  have e : (s.regs.filter (fun p => p.1 != r)).find? (fun p => p.1 == q) = s.regs.find? (fun p => p.1 == q) := by
    induction s.regs with
    | nil => rfl
    | cons p l ih =>
      by_cases hp : p.1 = r
      · have hq : (p.1 == q) = false := by rw [hp]; exact hr
        have hf : (p.1 != r) = false := by simp [hp]
        rw [List.filter_cons, hf, if_neg (by simp), ih, List.find?_cons, hq]
      · have hf : (p.1 != r) = true := by simp [hp]
        rw [List.filter_cons, hf, if_pos rfl, List.find?_cons, List.find?_cons, ih]
  simp only [regVal, setReg, List.find?_cons, hr]
  rw [e]

theorem regVal_setF_ne (s : State) (r q : Reg) (f : Fld) (v : Nat) (h : q ≠ r) : regVal (setF s r f v) q = regVal s q :=
  regVal_setReg_ne s r q _ h

theorem regVal_bumpF_ne (s : State) (r q : Reg) (f : Fld) (n : Nat) (h : q ≠ r) : regVal (bumpF s r f n) q = regVal s q :=
  regVal_setReg_ne s r q _ h

/-- Two fields of one register that share no bit. -/
def Fld.apart (f g : Fld) : Bool := decide (f.lo + f.width ≤ g.lo ∨ g.lo + g.width ≤ f.lo)

theorem Fld.mask_bit (f : Fld) (i : Nat) (h : f.lo + f.width ≤ 64) :
    f.mask.getLsbD i = decide (f.lo ≤ i ∧ i < f.lo + f.width) := by
  have hw : 2 ^ f.width ≤ 2 ^ 64 := Nat.pow_le_pow_right (by omega) (by omega)
  simp only [Fld.mask, BitVec.getLsbD_shiftLeft, BitVec.getLsbD_ofNat, Nat.testBit_two_pow_sub_one]
  by_cases h1 : f.lo ≤ i <;> by_cases h2 : i < f.lo + f.width <;> simp [h1, h2] <;> omega

theorem Fld.into_bit (f : Fld) (w : Word) (v i : Nat) (h : f.lo + f.width ≤ 64) :
    (f.into w v).getLsbD i = if f.lo ≤ i ∧ i < f.lo + f.width then v.testBit (i - f.lo) else w.getLsbD i := by
  simp only [Fld.into, BitVec.getLsbD_or, BitVec.getLsbD_and, BitVec.getLsbD_not, Fld.mask_bit f i h, BitVec.getLsbD_shiftLeft,
    BitVec.getLsbD_ofNat]
  by_cases hi : f.lo ≤ i ∧ i < f.lo + f.width
  · obtain ⟨h1, h2⟩ := hi
    have h3 : i < 64 := by omega
    have h4 : i - f.lo < 64 := by omega
    simp [h1, h2, h3, h4]
  · simp only [hi, decide_false, Bool.not_false, Bool.and_true, Bool.and_false, Bool.or_false, if_false]
    by_cases h3 : i < 64
    · simp [h3]
    · simp [h3, BitVec.getLsbD_of_ge w i (by omega)]

theorem Fld.of_bit (f : Fld) (w : Word) (i : Nat) : (f.of w).testBit i = (decide (i < f.width) && w.getLsbD (f.lo + i)) := by
  simp [Fld.of, Nat.testBit_mod_two_pow, BitVec.getLsbD, Nat.testBit_shiftRight]

/-- A field just written reads as the value written. -/
theorem Fld.of_into_self (f : Fld) (w : Word) (v : Nat) (h : f.lo + f.width ≤ 64) (hv : v < 2 ^ f.width) : f.of (f.into w v) = v := by
  apply Nat.eq_of_testBit_eq
  intro i
  rw [Fld.of_bit, Fld.into_bit f w v _ h]
  by_cases hi : i < f.width
  · have : f.lo ≤ f.lo + i ∧ f.lo + i < f.lo + f.width := by omega
    simp [hi]
  · have : v.testBit i = false := Nat.testBit_lt_two_pow (Nat.lt_of_lt_of_le hv (Nat.pow_le_pow_right (by omega) (by omega)))
    simp [hi, this]

/-- A field keeps its value when another that shares no bit with it is written. -/
theorem Fld.of_into_apart (f g : Fld) (w : Word) (v : Nat) (h : g.lo + g.width ≤ 64) (ha : f.apart g = true) :
    f.of (g.into w v) = f.of w := by
  apply Nat.eq_of_testBit_eq
  intro i
  rw [Fld.of_bit, Fld.of_bit, Fld.into_bit g w v _ h]
  by_cases hi : i < f.width
  · have : ¬(g.lo ≤ f.lo + i ∧ f.lo + i < g.lo + g.width) := by
      simp only [Fld.apart, decide_eq_true_eq] at ha
      omega
    rw [if_neg this]
  · simp [hi]

theorem getF_setF_self (s : State) (r : Reg) (f : Fld) (v : Nat) (h : f.lo + f.width ≤ 64) (hv : v < 2 ^ f.width) :
    getF (setF s r f v) r f = v := by
  simp [getF, setF, Fld.of_into_self f _ v h hv]

theorem getF_setF_apart (s : State) (r : Reg) (f g : Fld) (v : Nat) (h : g.lo + g.width ≤ 64) (ha : f.apart g = true) :
    getF (setF s r g v) r f = getF s r f := by
  simp [getF, setF, Fld.of_into_apart f g _ v h ha]

theorem getF_setF_ne (s : State) (r q : Reg) (f g : Fld) (v : Nat) (h : q ≠ r) : getF (setF s r g v) q f = getF s q f := by
  simp [getF, regVal_setF_ne s r q g v h]

/-! ### Runners and cores -/

@[simp] theorem runnerAt_setRunner_self (s : State) (w : Nat) (r : Runner) : runnerAt (setRunner s w r) w = r := by
  simp [runnerAt, setRunner]

theorem runnerAt_setRunner_ne (s : State) (w v : Nat) (r : Runner) (h : v ≠ w) : runnerAt (setRunner s w r) v = runnerAt s v := by
  simp [runnerAt, setRunner, Tab.get_set_ne _ _ _ _ _ h]

@[simp] theorem runnerAt_modRunner_self (w : Nat) (f : Runner → Runner) (s : State) : runnerAt (modRunner w f s) w = f (runnerAt s w) := by
  simp [modRunner]

theorem runnerAt_modRunner_ne (w v : Nat) (f : Runner → Runner) (s : State) (h : v ≠ w) : runnerAt (modRunner w f s) v = runnerAt s v := by
  simp [modRunner, runnerAt_setRunner_ne _ _ _ _ h]

@[simp] theorem coreAt_setCore_self (s : State) (k : Nat) (c : Core) : coreAt (setCore s k c) k = c := by
  simp [coreAt, setCore]

theorem coreAt_setCore_ne (s : State) (k j : Nat) (c : Core) (h : j ≠ k) : coreAt (setCore s k c) j = coreAt s j := by
  simp [coreAt, setCore, Tab.get_set_ne _ _ _ _ _ h]

@[simp] theorem coreAt_modCore_self (k : Nat) (f : Core → Core) (s : State) : coreAt (modCore k f s) k = f (coreAt s k) := by
  simp [modCore]

theorem coreAt_modCore_ne (k j : Nat) (f : Core → Core) (s : State) (h : j ≠ k) : coreAt (modCore k f s) j = coreAt s j := by
  simp [modCore, coreAt_setCore_ne _ _ _ _ h]

@[simp] theorem runnerAt_modCore (k : Nat) (f : Core → Core) (s : State) (w : Nat) : runnerAt (modCore k f s) w = runnerAt s w := rfl
@[simp] theorem coreAt_setRunner (s : State) (w : Nat) (r : Runner) (k : Nat) : coreAt (setRunner s w r) k = coreAt s k := rfl
@[simp] theorem coreAt_modRunner (w : Nat) (f : Runner → Runner) (s : State) (k : Nat) : coreAt (modRunner w f s) k = coreAt s k := rfl

/-! ### Parts of the engines, the fabric and the host attachment -/

@[simp] theorem linkAt_modLink_self (l : Nat) (f : Link → Link) (s : State) : linkAt (modLink l f s) l = f (linkAt s l) := by
  simp [linkAt, modLink, modFab]

theorem linkAt_modLink_ne (l k : Nat) (f : Link → Link) (s : State) (h : k ≠ l) : linkAt (modLink l f s) k = linkAt s k := by
  simp only [linkAt, modLink, modFab, Tab.get_set_ne _ _ _ _ _ h]

@[simp] theorem endAt_modEnd_self (x : Nat) (f : SwlEnd → SwlEnd) (s : State) : endAt (modEnd x f s) x = f (endAt s x) := by
  simp [endAt, modEnd]

theorem endAt_modEnd_ne (x y : Nat) (f : SwlEnd → SwlEnd) (s : State) (h : y ≠ x) : endAt (modEnd x f s) y = endAt s y := by
  simp only [endAt, modEnd, Tab.get_set_ne _ _ _ _ _ h]

@[simp] theorem engineAt_modEngine_self (e : Nat) (f : Engine → Engine) (s : State) : engineAt (modEngine e f s) e = f (engineAt s e) := by
  simp [engineAt, modEngine]

theorem engineAt_modEngine_ne (e d : Nat) (f : Engine → Engine) (s : State) (h : d ≠ e) : engineAt (modEngine e f s) d = engineAt s d := by
  simp only [engineAt, modEngine, Tab.get_set_ne _ _ _ _ _ h]

@[simp] theorem queueAt_setQueue_self (s : State) (q : Nat) (r : Queue) : queueAt (setQueue s q r) q = r := by
  simp [queueAt, setQueue]

theorem queueAt_setQueue_ne (s : State) (q p : Nat) (r : Queue) (h : p ≠ q) : queueAt (setQueue s q r) p = queueAt s p := by
  simp only [queueAt, setQueue, Tab.get_set_ne _ _ _ _ _ h]

@[simp] theorem hurdleAt_setHurdle_self (k : Nat) (h : Hurdle) (s : State) : hurdleAt (setHurdle k h s) k = h := by
  simp [hurdleAt, setHurdle]

/-! ### A write of a register -/

/-- A register of a die in reset, or gated, takes no write (R40, R448). -/
theorem regWrite_away {r : Reg} {f : State → State} {s : State} (h : inReset s r.holder = true ∨ gatedNow s r.holder = true) : regWrite r f s = s := by
  rcases h with h | h <;> simp [regWrite, h]

theorem regWrite_answers {r : Reg} {f : State → State} {s : State} (h : inReset s r.holder = false) (g : gatedNow s r.holder = false) : regWrite r f s = f s := by
  simp [regWrite, h, g]

/-- A write of a register leaves the machine as it was, or as the write's effect leaves it. -/
theorem regWrite_cases (r : Reg) (f : State → State) (s : State) : regWrite r f s = s ∨ regWrite r f s = f s := by
  unfold regWrite
  split
  · exact .inl rfl
  · exact .inr rfl

end Sys2Proof.Machine
end

