-- ==== Sys2Proof/Laws/Memory.lean ====
section
/-! SUPPORT. Memory: every operation keeps the canonical form, a read after a write gives what was written, and every other byte stays. -/

namespace Sys2Proof.Machine

/-! ### The canonical form -/

theorem wfFrom_mono {lo hi : Nat} {m : List Host.Cell} (h : Mem.wfFrom hi m = true) (hl : lo ≤ hi) : Mem.wfFrom lo m = true := by
  cases m with
  | nil => rfl
  | cons c cs =>
    simp only [Mem.wfFrom, Bool.and_eq_true, decide_eq_true_eq] at h ⊢
    exact ⟨⟨by omega, h.1.2⟩, h.2⟩

/-- The listed addresses of a canonical memory stand at or above its bound. -/
theorem wfFrom_ge {lo : Nat} {m : List Host.Cell} (h : Mem.wfFrom lo m = true) (c : Host.Cell) (hc : c ∈ m) : lo ≤ c.1 := by
  induction m generalizing lo with
  | nil => cases hc
  | cons d ds ih =>
    simp only [Mem.wfFrom, Bool.and_eq_true, decide_eq_true_eq] at h
    rcases List.mem_cons.mp hc with rfl | hc
    · exact h.1.1
    · have := ih h.2 hc; omega

/-- Cells kept by a test are canonical if they all were. -/
theorem wfFrom_filter {lo : Nat} {m : List Host.Cell} (p : Host.Cell → Bool) (h : Mem.wfFrom lo m = true) :
    Mem.wfFrom lo (m.filter p) = true := by
  induction m generalizing lo with
  | nil => rfl
  | cons c cs ih =>
    simp only [Mem.wfFrom, Bool.and_eq_true, decide_eq_true_eq] at h
    rw [List.filter_cons]
    split
    · simp only [Mem.wfFrom, Bool.and_eq_true, decide_eq_true_eq]
      exact ⟨h.1, ih h.2⟩
    · exact wfFrom_mono (ih h.2) (by omega)

/-- A canonical list below a bound and one from that bound on join to a canonical list. -/
theorem wfFrom_append {lo hi : Nat} {m n : List Host.Cell} (hm : Mem.wfFrom lo m = true) (hb : ∀ c ∈ m, c.1 < hi) (hl : lo ≤ hi)
    (hn : Mem.wfFrom hi n = true) : Mem.wfFrom lo (m ++ n) = true := by
  induction m generalizing lo with
  | nil => exact wfFrom_mono hn hl
  | cons c cs ih =>
    simp only [Mem.wfFrom, Bool.and_eq_true, decide_eq_true_eq] at hm
    simp only [List.cons_append, Mem.wfFrom, Bool.and_eq_true, decide_eq_true_eq]
    have hc := hb c (by simp)
    exact ⟨hm.1, ih hm.2 (fun d hd => hb d (by simp [hd])) (by omega)⟩

/-- The cells of consecutive bytes are canonical and stand within them. -/
theorem cells_wf (a : Nat) (bs : List Byte) : Mem.wfFrom a (Mem.cells a bs) = true ∧ ∀ c ∈ Mem.cells a bs, c.1 < a + bs.length := by
  induction bs generalizing a with
  | nil => exact ⟨rfl, fun c h => by cases h⟩
  | cons b bs ih =>
    have h := ih (a + 1)
    simp only [Mem.cells]
    split
    · exact ⟨wfFrom_mono h.1 (by omega), fun c hc => by have := h.2 c hc; simp only [List.length_cons]; omega⟩
    · rename_i hb
      refine ⟨by simpa [Mem.wfFrom, h.1] using hb, fun c hc => ?_⟩
      simp only [List.length_cons]
      rcases List.mem_cons.mp hc with rfl | hc
      · simp
      · have := h.2 c hc; omega

theorem put_wf {m : List Host.Cell} (a n : Nat) {cs : List Host.Cell} (hm : Memory.wf m = true) (hc : Mem.wfFrom a cs = true)
    (hb : ∀ c ∈ cs, c.1 < a + n) : Memory.wf (Mem.put m a n cs) = true := by
  have hr : Mem.wfFrom (a + n) (m.filter (fun c => decide (a + n ≤ c.1))) = true := by
    have h := wfFrom_filter (fun c => decide (a + n ≤ c.1)) hm
    generalize hl : m.filter (fun c => decide (a + n ≤ c.1)) = l at h
    cases l with
    | nil => rfl
    | cons c cs =>
      have hc : c ∈ m.filter (fun c => decide (a + n ≤ c.1)) := by rw [hl]; simp
      have := (List.mem_filter.mp hc).2
      simp only [Mem.wfFrom, Bool.and_eq_true, decide_eq_true_eq] at h this ⊢
      exact ⟨⟨this, h.1.2⟩, h.2⟩
  have h1 : Mem.wfFrom a (cs ++ m.filter (fun c => decide (a + n ≤ c.1))) = true := wfFrom_append hc hb (by omega) hr
  refine wfFrom_append (wfFrom_filter _ hm) (fun c h => ?_) (Nat.zero_le a) h1
  simpa using (List.mem_filter.mp h).2

/-- A write keeps the canonical form. -/
theorem write_wf {m : List Host.Cell} (a : Nat) (bs : List Byte) (h : Memory.wf m = true) : Memory.wf (Mem.write m a bs) = true :=
  put_wf a bs.length h (cells_wf a bs).1 (cells_wf a bs).2

/-- Zeroing keeps the canonical form. -/
theorem zero_wf {m : List Host.Cell} (a n : Nat) (h : Memory.wf m = true) : Memory.wf (Mem.zero m a n) = true :=
  put_wf a n h rfl (fun c hc => by cases hc)

theorem wfFrom_move {lo : Nat} {m : List Host.Cell} (src dst : Nat) (h : Mem.wfFrom lo m = true) (hs : src ≤ lo) :
    Mem.wfFrom (lo - src + dst) (m.map (fun c => (c.1 - src + dst, c.2))) = true := by
  induction m generalizing lo with
  | nil => rfl
  | cons c cs ih =>
    simp only [Mem.wfFrom, Bool.and_eq_true, decide_eq_true_eq] at h
    simp only [List.map_cons, Mem.wfFrom, Bool.and_eq_true, decide_eq_true_eq]
    refine ⟨⟨by omega, h.1.2⟩, ?_⟩
    have := ih h.2 (by omega)
    exact wfFrom_mono this (by omega)

/-- A copy keeps the canonical form. -/
theorem copy_wf {m : List Host.Cell} (dst src n : Nat) (h : Memory.wf m = true) : Memory.wf (Mem.copy m dst src n) = true := by
  have hf : Mem.wfFrom src (m.filter (fun c => decide (src ≤ c.1) && decide (c.1 < src + n))) = true := by
    have h1 := wfFrom_filter (fun c => decide (src ≤ c.1) && decide (c.1 < src + n)) h
    generalize hl : m.filter (fun c => decide (src ≤ c.1) && decide (c.1 < src + n)) = l at h1
    cases l with
    | nil => rfl
    | cons c cs =>
      have hc : c ∈ m.filter (fun c => decide (src ≤ c.1) && decide (c.1 < src + n)) := by rw [hl]; simp
      have := (List.mem_filter.mp hc).2
      simp only [Mem.wfFrom, Bool.and_eq_true, decide_eq_true_eq] at h1 this ⊢
      exact ⟨⟨this.1, h1.1.2⟩, h1.2⟩
  refine put_wf dst n h ?_ ?_
  · have := wfFrom_move src dst hf (Nat.le_refl src)
    simpa using this
  · intro c hc
    obtain ⟨d, hd, rfl⟩ := List.mem_map.mp hc
    have := (List.mem_filter.mp hd).2
    simp only [Bool.and_eq_true, decide_eq_true_eq] at this
    simp only
    omega

/-- Reset memory is canonical. -/
theorem reset_mem_wf : Memory.wf State.reset.mem = true := rfl

/-! ### Reads after writes -/

theorem find_none {m : List Host.Cell} (x : Nat) (h : ∀ c ∈ m, c.1 ≠ x) : m.find? (fun c => c.1 == x) = none := by
  rw [List.find?_eq_none]
  intro c hc
  simpa using h c hc

theorem find_filter {m : List Host.Cell} (p : Host.Cell → Bool) (x : Nat) (h : ∀ c : Host.Cell, c.1 = x → p c = true) :
    (m.filter p).find? (fun c => c.1 == x) = m.find? (fun c => c.1 == x) := by
  induction m with
  | nil => rfl
  | cons c cs ih =>
    rw [List.filter_cons]
    by_cases hx : c.1 = x
    · rw [if_pos (h c hx), List.find?_cons, List.find?_cons]
      simp [hx]
    · have hb : (c.1 == x) = false := by simp [hx]
      split
      · rw [List.find?_cons, List.find?_cons, hb]; exact ih
      · rw [List.find?_cons, hb]; exact ih

/-- Outside the range it replaces, `put` changes no byte. -/
theorem get_put_out {m : List Host.Cell} (a n : Nat) {cs : List Host.Cell} (x : Nat) (hb : ∀ c ∈ cs, a ≤ c.1 ∧ c.1 < a + n)
    (h : x < a ∨ a + n ≤ x) : Mem.get (Mem.put m a n cs) x = Mem.get m x := by
  have hc : cs.find? (fun c => c.1 == x) = none := find_none x (fun c hc => by have := hb c hc; omega)
  simp only [Mem.get, Mem.put, List.find?_append, hc, Option.none_or]
  rcases h with h | h
  · have h2 : (m.filter (fun c => decide (a + n ≤ c.1))).find? (fun c => c.1 == x) = none :=
      find_none x (fun c hc => by have := (List.mem_filter.mp hc).2; simp at this; omega)
    rw [h2, Option.or_none, find_filter _ x (fun c hc => by simp; omega)]
  · have h1 : (m.filter (fun c => decide (c.1 < a))).find? (fun c => c.1 == x) = none :=
      find_none x (fun c hc => by have := (List.mem_filter.mp hc).2; simp at this; omega)
    rw [h1, Option.none_or, find_filter _ x (fun c hc => by simp; omega)]

/-- Inside the range it replaces, `put` gives what the new cells give. -/
theorem get_put_in {m : List Host.Cell} (a n : Nat) {cs : List Host.Cell} (x : Nat) (h : a ≤ x ∧ x < a + n) :
    Mem.get (Mem.put m a n cs) x = Mem.get cs x := by
  have h1 : (m.filter (fun c => decide (c.1 < a))).find? (fun c => c.1 == x) = none :=
    find_none x (fun c hc => by have := (List.mem_filter.mp hc).2; simp at this; omega)
  have h2 : (m.filter (fun c => decide (a + n ≤ c.1))).find? (fun c => c.1 == x) = none :=
    find_none x (fun c hc => by have := (List.mem_filter.mp hc).2; simp at this; omega)
  simp only [Mem.get, Mem.put, List.find?_append, h1, h2, Option.none_or, Option.or_none]

theorem cells_ge (a : Nat) (bs : List Byte) (c : Host.Cell) (h : c ∈ Mem.cells a bs) : a ≤ c.1 := wfFrom_ge (cells_wf a bs).1 c h

/-- The cells of consecutive bytes give those bytes. -/
theorem get_cells (a : Nat) (bs : List Byte) (i : Nat) : Mem.get (Mem.cells a bs) (a + i) = bs.getD i 0 := by
  induction bs generalizing a i with
  | nil => simp [Mem.cells, Mem.get]
  | cons b bs ih =>
    have hn : Mem.get (Mem.cells (a + 1) bs) a = 0 := by
      simp only [Mem.get]
      rw [find_none a (fun c hc => by have := cells_ge _ _ c hc; omega)]
    cases i with
    | zero =>
      simp only [Mem.cells, Nat.add_zero]
      split
      · rename_i hb; rw [hn]; simp [hb]
      · simp [Mem.get]
    | succ j =>
      have hi := ih (a + 1) j
      have e : a + 1 + j = a + (j + 1) := by omega
      rw [e] at hi
      simp only [Mem.cells]
      split
      · simpa using hi
      · have hne : (a == a + (j + 1)) = false := by simp
        simpa [Mem.get, List.find?_cons, hne] using hi

/-- A byte just written reads as written. -/
theorem get_write_in (m : List Host.Cell) (a : Nat) (bs : List Byte) (i : Nat) (h : i < bs.length) :
    Mem.get (Mem.write m a bs) (a + i) = bs.getD i 0 := by
  rw [Mem.write, get_put_in a bs.length (a + i) (by omega), get_cells]

/-- A write leaves every other byte. -/
theorem get_write_out (m : List Host.Cell) (a : Nat) (bs : List Byte) (x : Nat) (h : x < a ∨ a + bs.length ≤ x) :
    Mem.get (Mem.write m a bs) x = Mem.get m x :=
  get_put_out a bs.length x (fun c hc => ⟨cells_ge a bs c hc, (cells_wf a bs).2 c hc⟩) h

/-- A zeroed byte reads 0. -/
theorem get_zero_in (m : List Host.Cell) (a n x : Nat) (h : a ≤ x ∧ x < a + n) : Mem.get (Mem.zero m a n) x = 0 := by
  rw [Mem.zero, get_put_in a n x h]; rfl

/-- Zeroing leaves every other byte. -/
theorem get_zero_out (m : List Host.Cell) (a n x : Nat) (h : x < a ∨ a + n ≤ x) : Mem.get (Mem.zero m a n) x = Mem.get m x :=
  get_put_out a n x (fun c hc => by cases hc) h

/-- A read of several bytes reads each one. -/
theorem read_get (m : List Host.Cell) (a n i : Nat) (h : i < n) : (Mem.read m a n).getD i 0 = Mem.get m (a + i) := by
  have e : Mem.get (m.filter (fun c => decide (a ≤ c.1) && decide (c.1 < a + n))) (a + i) = Mem.get m (a + i) := by
    simp only [Mem.get]
    rw [find_filter _ (a + i) (fun c hc => by simp; omega)]
  simp [Mem.read, h, e]

end Sys2Proof.Machine
end

