-- ==== Sys2Proof/Laws/Issue.lean ====
section
/-! SUPPORT. The issue of a bundle of one instruction: what it comes to where nothing stops or holds it, and what each way of stopping it leaves. -/

namespace Sys2Proof.Machine

theorem wake_ready {s : State} {w : Nat} (h : (runnerAt s w).state = .ready) : wake w s = s := by
  simp [wake, h]

theorem boundary_quiet {s : State} {k : Nat} (h : (coreAt s k).boundary = []) : boundary k s = s := by
  simp [boundary, h]

theorem CanIssue.can {s : State} {w : Nat} (h : CanIssue s w) : canIssue s w = true := by
  simp [canIssue, h.ready, h.going, h.fresh, h.die]

theorem firstHold_free {s : State} {w : Nat} {x : Slot} (h : free s w x) : firstHold s w [x] = none := by
  have e : (x.srcs ++ x.dsts).filter (busy s w) = [] := List.filter_eq_nil_iff.mpr (fun r hr => by simp [h.1 r hr])
  simp only [firstHold, List.flatMap_cons, List.flatMap_nil, List.append_nil, e]
  simp [h.2]

/-- With no error in stored data, a check of codes changes nothing. -/
theorem probe_clean {s : State} {reads writes : List (Nat × Nat)} (h : s.memp.faults = []) : probe reads writes s = s := by
  simp [probe, h]

/-- What reads nothing checks nothing. -/
@[simp] theorem probe_none (s : State) : probe [] [] s = s := by
  have e : (suspects s).filter (fun _ => false) = [] := List.filter_eq_nil_iff.mpr (by simp)
  unfold probe
  split <;> simp [each, e]

theorem probeSlots_clean {s : State} {w : Nat} {l : List Slot} (h : s.memp.faults = []) : probeSlots w l s = s := probe_clean h

/-- A slot that reads no coded storage at its issue. -/
def ReadsNone (w : Nat) (x : Slot) (s : State) : Prop := x.srcs.flatMap (regRange (coreOf w)) = [] ∧ x.reads s = []

theorem probeSlots_none {s : State} {w : Nat} {x : Slot} (h : ReadsNone w x s) : probeSlots w [x] s = s := by
  simp [probeSlots, h.1, h.2]

/-- Alone in its bundle, an instruction that nothing stops performs. -/
theorem issue1_perform {s : State} {w g : Nat} {x : Slot} (hc : CanIssue s w) (hg : guardOn s w g = true) (hf : free s w x)
    (he : x.fault s = none) (hp : probeSlots w [x] s = s) : issue1 w g (some x) s = perform w [x] s := by
  simp [issue1, issue, wake_ready hc.ready, hc.can, boundary_quiet hc.quiet, hg, conflict, firstHold_free hf, performChecked, firstFault, he, hp, hc.die]

/-- A slot whose guard is off performs nothing: the PC moves on. -/
theorem issue1_off {s : State} {w g : Nat} {x : Slot} (hc : CanIssue s w) (hg : guardOn s w g = false) :
    issue1 w g (some x) s = perform w [] s := by
  simp [issue1, issue, wake_ready hc.ready, hc.can, boundary_quiet hc.quiet, hg, conflict, firstHold, performChecked, probeSlots, firstFault, hc.die]

/-- An instruction that is not legal freezes its runner, whatever its guard. -/
theorem issue1_illegal {s : State} {w g : Nat} (hc : CanIssue s w) : issue1 w g none s = freezeRunner w 0x0101 0 s := by
  simp [issue1, issue, wake_ready hc.ready, hc.can, boundary_quiet hc.quiet]

/-- What is held leaves the runner Waiting at its bundle. -/
theorem issue1_hold {s : State} {w g : Nat} {x : Slot} {h : Wait} (hc : CanIssue s w) (hg : guardOn s w g = true)
    (hb : ∀ r ∈ x.srcs ++ x.dsts, busy s w r = false) (hh : x.holds s = some h) (hj : h.joins = true → x.fault s = none) :
    issue1 w g (some x) s = x.enter (modRunner w (fun r => { r with state := .waiting, wait := some h }) s) := by
  have e : (x.srcs ++ x.dsts).filter (busy s w) = [] := List.filter_eq_nil_iff.mpr (fun r hr => by simp [hb r hr])
  have f : firstHold s w [x] = some (h, x) := by
    simp only [firstHold, List.flatMap_cons, List.flatMap_nil, List.append_nil, e]
    by_cases j : h.joins = true <;> simp [hh, j]
  have g' : (if h.joins then firstFault s [x] else none) = none := by
    by_cases j : h.joins = true <;> simp [firstFault, hj, j]
  simp [issue1, issue, wake_ready hc.ready, hc.can, boundary_quiet hc.quiet, hg, conflict, f, g']

/-- What a fault stops freezes the runner, and no slot performs. -/
theorem issue1_fault {s : State} {w g : Nat} {x : Slot} {c a : Nat} (hc : CanIssue s w) (hg : guardOn s w g = true) (hf : free s w x)
    (he : x.fault s = some (c, a)) : issue1 w g (some x) s = freezeRunner w c a s := by
  simp [issue1, issue, wake_ready hc.ready, hc.can, boundary_quiet hc.quiet, hg, conflict, firstHold_free hf, performChecked, firstFault, he]

/-- A runner whose next bundle is in the program is not stopped by its fetch. -/
theorem fetchAt_in {s : State} {w next : Nat} (h : next < bundleCount s (dieOfRunner w)) : fetchAt w next s = s := by
  simp [fetchAt, h]

/-- A runner whose PC is in the program is not stopped by its fetch. -/
theorem fetchCheck_in {s : State} {w : Nat} (h : (runnerAt s w).pc < bundleCount s (dieOfRunner w)) : fetchCheck w s = s := fetchAt_in h

/-- The performance of one slot that neither branches nor acts late: the PC moves on and the slot acts. -/
theorem perform_one {s : State} {w : Nat} {x : Slot} (hb : x.branch s = none) (hl : x.late = fun _ s => s)
    (hp : fetchAt w ((runnerAt s w).pc + 1 : Nat) (x.act s (issued s w (((runnerAt s w).pc + 1) % 2 ^ 17))) = x.act s (issued s w (((runnerAt s w).pc + 1) % 2 ^ 17))) :
    perform w [x] s = x.act s (issued s w (((runnerAt s w).pc + 1) % 2 ^ 17)) := by
  simp only [perform, List.findSome?_cons, hb, List.findSome?_nil, Option.getD_none, each, List.foldl_cons, List.foldl_nil, hl]
  exact hp

@[simp] theorem issued_pc (s : State) (w pc : Nat) : (runnerAt (issued s w pc) w).pc = pc := by simp [issued]
@[simp] theorem issued_progs (s : State) (w pc : Nat) : (issued s w pc).progs = s.progs := rfl
@[simp] theorem issued_mem (s : State) (w pc : Nat) : (issued s w pc).mem = s.mem := rfl
@[simp] theorem issued_regs (s : State) (w pc : Nat) : (issued s w pc).regs = s.regs := rfl

theorem issued_other (s : State) (w pc v : Nat) (h : v ≠ w) : runnerAt (issued s w pc) v = runnerAt s v := by
  simp [issued, runnerAt_setRunner_ne _ _ _ _ h]

end Sys2Proof.Machine
end

