-- ==== Sys2Proof/Tests/Slice0.lean ====
section
/-! SUPPORT. Small tests: commands that are not well formed, single steps with results worked out from the spec, and for every statement with hypotheses states and operands that meet
them. -/

open Sys2Proof Sys2Proof.Machine Sys2Proof.Claims

namespace Sys2Proof.Tests

set_option Elab.async false

/-! ### How the hypotheses of the claims are met by evaluation -/

theorem unwatched_of {s : State} (h : (List.range 16).all (fun i => !flag s (.errWatchCfg i) F.errWatchCfg_enable) = true) : unwatched s := by
  intro i hi
  have := List.all_eq_true.mp h i (List.mem_range.mpr hi)
  simpa using this

theorem canIssue_of {s : State} {w : Nat} (h : ((runnerAt s w).state == .ready && !(runnerAt s w).ending && !(runnerAt s w).stepIssued && !inReset s (dieOfRunner w) &&
    (coreAt s (coreOf w)).boundary.isEmpty) = true) : CanIssue s w := by
  simp only [Bool.and_eq_true, beq_iff_eq, Bool.not_eq_true', List.isEmpty_iff] at h
  exact ⟨h.1.1.1.1, h.1.1.1.2, h.1.1.2, h.1.2, h.2⟩

theorem clear_of {s : State} {w g : Nat} {l : List RegName} (hc : CanIssue s w)
    (h : (guardOn s w g && l.all (fun r => !busy s w r) && decide ((runnerAt s w).pc + 1 < bundleCount s (dieOfRunner w)) && decide ((runnerAt s w).pc + 1 < 2 ^ 17)) = true) :
    Clear s w g l := by
  simp only [Bool.and_eq_true, List.all_eq_true, Bool.not_eq_true', decide_eq_true_eq] at h
  exact ⟨hc, h.1.1.1, h.1.1.2, h.1.2, h.2⟩

theorem starts_of {s : State} {h : Hdr} {op : Nat}
    (e : (mayStart s h.q op && (!privileged op || (queueAt s h.q).priv) && s.host.descs.all (fun d => d.id != s.nextId)) = true) : Starts s h op := by
  simp only [Bool.and_eq_true, List.all_eq_true, bne_iff_ne, Bool.or_eq_true, Bool.not_eq_true'] at e
  refine ⟨e.1.1, fun p => ?_, e.2⟩
  cases e.1.2 with
  | inl q => rw [p] at q; cases q
  | inr q => exact q

theorem reaches_of {s : State} {q : Nat} {rd wr : List (Nat × Nat)} (h : (rd.all (fun p => permits s (some q) .r p.1 p.2) && wr.all (fun p => permits s (some q) .w p.1 p.2) &&
    wr.all (fun p => lapCode s false p.1 p.2 == 0) && s.memp.faults.isEmpty && (memoryRefuses s 16 rd wr).isNone) = true) : Reaches s q rd wr := by
  simp only [Bool.and_eq_true, List.all_eq_true, beq_iff_eq, List.isEmpty_iff, Option.isNone_iff_eq_none] at h
  exact ⟨h.1.1.1.1, h.1.1.1.2, h.1.1.2, h.1.2, h.2⟩

theorem dieAnswers_of {s : State} {d : Nat} (h : (!inReset s d && !gatedNow s d) = true) : dieAnswers s d := by
  simp only [Bool.and_eq_true, Bool.not_eq_true'] at h
  exact h

/-! ### States -/

/-- A trained CXL link, and queue 0 running, privileged, with one descriptor to start. -/
def up : State :=
  { State.reset with
    regs := [(.hifLinkStatus, 8)]
    host := { State.reset.host with queues := [(0, { Queue.absent with state := .running, sqBase := 0x1000, cqBase := 0x2000, priv := true, sqTail := 3 })] }
    windows := [(0, ⟨0, 0x10_0000, 7, 3, 0, none, false, []⟩), (1, ⟨0x1000_0000_0000, 0x10_0000, 7, 3, 0, none, false, []⟩)] }

/-- A descriptor of it. -/
def hd : Hdr := ⟨0, 0x77, true⟩

/-- A program of eight bundles on die 0, with runners 0 and 1 Ready and windows on LPDDR6, a well and a folio. -/
def run0 : State :=
  { State.reset with
    progs := [(0, ⟨[0], List.replicate 8 0⟩)]
    runners := [(0, { Runner.free with state := .ready, census := 0xFFFF, s := [(1, 7), (2, 3)], a := [(0, 0x40), (1, 0x1000_0000_0000), (2, 0x41)] }), (1, { Runner.free with state := .ready })]
    windows := [(0, ⟨0, 0x10_0000, 7, 0, 0, none, false, []⟩), (1, ⟨0x1000_0000_0000, 0x10_0000, 7, 0, 0, none, false, []⟩), (2, ⟨0x1100_0000_0000, 0x20_0000, 7, 0, 0, none, false, []⟩)] }

theorem run0_can : CanIssue run0 0 := canIssue_of (by decide +kernel)

theorem run0_clear (l : List RegName) (h : l.all (fun r => !busy run0 0 r) = true) : Clear run0 0 0 l :=
  clear_of run0_can (by
    have e : (guardOn run0 0 0 && decide ((runnerAt run0 0).pc + 1 < bundleCount run0 (dieOfRunner 0)) && decide ((runnerAt run0 0).pc + 1 < 2 ^ 17)) = true := by decide +kernel
    simp only [Bool.and_eq_true] at e ⊢
    exact ⟨⟨⟨e.1.1, h⟩, e.1.2⟩, e.2⟩)

theorem up_unwatched : unwatched up := unwatched_of (by decide +kernel)

theorem up_starts : ∀ op ∈ [0x01, 0x02, 0x10, 0x11, 0x12, 0x20, 0x21, 0x30, 0x31, 0x40, 0x41, 0x42, 0x50, 0x51, 0x60, 0x61, 0x62, 0x70, 0x80, 0x81, 0x90], Starts up hd op :=
  fun op h => starts_of (by revert op; decide +kernel)

/-! ### The machine, registers, limits and errors -/

theorem reset_unwatched : unwatched State.reset := unwatched_of (by decide +kernel)

theorem reset_inv : State.reset.Inv := by unfold State.Inv; decide

/-- The states of the statements about every step: one that meets the invariant, and a core of which runner 0 issues first. -/
theorem witness_General : State.reset.Inv ∧ step State.reset = .next (tick State.reset) ∧ (coreOf 0 = 0 ∧ canIssue run0 0 = true ∧ canIssue run0 1 = true ∧
    (runnerAt run0 0).issued ≤ (runnerAt run0 1).issued) ∧ (∃ b, nextBundle run0 0 = some b) ∧ (canIssue State.reset 0 = false) ∧
    ((Instr.add 0 0 1 2 3).wf = true ∧ (bundleOf (.add 0 0 1 2 3)).isSome = true) :=
  ⟨reset_inv, rfl, by decide +kernel, ⟨_, rfl⟩, by decide +kernel, by decide +kernel⟩

/-- Die 3 in reset. -/
def dark3 : State := { State.reset with power := { State.reset.power with resets := [(3, ⟨6, false⟩)] } }

theorem witness_RegisterAccess :
    (¬(3 = 4 ∧ 0 % 4 = 0) ∧ ¬(3 = 8 ∧ 0 % 8 = 0) ∧ ¬(4 = 4 ∧ 2 % 4 = 0) ∧ ¬(8 = 8 ∧ 4 % 8 = 0)) ∧
    (regAt 0x1F_FFFC = none ∧ regAt (0x1F_FFFC - 4) = none) ∧
    (regAt 0x12_0000 = some (.memDieStatus 3) ∧ (Reg.memDieStatus 3).wide = true ∧ inReset dark3 (Reg.memDieStatus 3).holder = true) ∧
    ((Reg.swlCtl 24).wide = false ∧ regAt 0x70C008 = some (.swlCtl 24) ∧ inReset { dark3 with power := { dark3.power with resets := [(1, ⟨6, false⟩)] } } (Reg.swlCtl 24).holder = true) ∧
    (ordinary .devStallTimeout = true ∧ (∀ f ∈ Reg.devStallTimeout.fields, f.acc ≠ .rwl) ∧ regAt 0x18 = some .devStallTimeout ∧ dieAnswers State.reset Reg.devStallTimeout.holder) ∧
    (regAt 0x20 = some .devScratch ∧ Reg.devScratch.wide = true ∧ dieAnswers State.reset Reg.devScratch.holder) ∧
    ((∃ f ∈ Reg.devStallTimeout.fields, f.acc = .rw) ∧ (∃ f ∈ Reg.devId.fields, f.acc = .ro) ∧ (∃ f ∈ (Reg.mbxInMeta 1).fields, f.acc = .w1c) ∧
      (∃ f ∈ Reg.devSetupLock.fields, f.acc = .w1s) ∧ (∃ f ∈ Reg.hifBlotterCq.fields, f.acc = .rc)) :=
  ⟨by decide, by decide +kernel, by decide +kernel, by decide +kernel, ⟨by decide +kernel, by decide +kernel, by decide +kernel, dieAnswers_of (by decide +kernel)⟩,
    ⟨by decide +kernel, rfl, dieAnswers_of (by decide +kernel)⟩, by decide +kernel⟩

/-- DEV_SETUP_LOCK is set. -/
def locked : State := { State.reset with regs := [(.devSetupLock, 1)] }

/-- Requests of the four pools that have waited for 5 ns, at 5 ns. -/
def stalled : State :=
  { State.reset with
    clock := { State.reset.clock with ns := 5 }
    heat := { State.reset.heat with posts := [⟨1, 0, false, 0, 0, none, 1, some 3, 5, false⟩] }
    relays := ⟨[(0, ⟨[], [⟨79, readExt [], .queue 900, 0, 5, false⟩], []⟩)], []⟩
    shares := [⟨1, 5, 1, 0, 0, false, 5⟩]
    lap := { State.reset.lap with opens := [⟨1, 5, 1, 5, false⟩] } }

theorem witness_SetupLockAndStallTimeouts :
    dieAnswers State.reset 16 ∧ (setupLocked locked = true ∧ unwatched locked ∧ ∃ g ∈ (Reg.cmpMemInterleave 0).fields, g.acc = .rwl) ∧
    (inReset State.reset 15 = false ∧ State.reset.newMaps = [] ∧ setupLocked State.reset = false ∧ F.cmpMemInterleave_granule.of 7 = 7 ∧
      32 < F.cmpMemInterleave_pinned_channels.of 0x2100 ∧ ¬(F.cmpMemInterleave_granule.of 0x2006 = 7 ∨ 32 < F.cmpMemInterleave_pinned_channels.of 0x2006)) ∧
    unwatched stalled ∧
    (∃ p ∈ stalled.heat.posts[0]?, p.timeout ≠ 0 ∧ p.stalled = false ∧ p.timeout ≤ nowNs stalled) ∧
    (∃ p ∈ (engineAt stalled 0).posts[0]?, p.timeout ≠ 0 ∧ p.stalled = false ∧ p.timeout ≤ nowNs stalled) ∧
    (∃ p ∈ (stalled.shares.filter (·.core == 5))[0]?, p.timeout ≠ 0 ∧ p.stalled = false ∧ p.timeout ≤ nowNs stalled) ∧
    (∃ p ∈ stalled.lap.opens[0]?, p.timeout ≠ 0 ∧ p.stalled = false ∧ p.timeout ≤ nowNs stalled) :=
  ⟨dieAnswers_of (by decide +kernel), ⟨by decide +kernel, unwatched_of (by decide +kernel), by decide +kernel⟩, by decide +kernel, unwatched_of (by decide +kernel),
    ⟨_, rfl, by decide +kernel⟩, ⟨_, rfl, by decide +kernel⟩, ⟨_, rfl, by decide +kernel⟩, ⟨_, rfl, by decide +kernel⟩⟩

/-- Watch 4 watches 0x0111, once in a second, and trips at the first raising. -/
def watching : State := { State.reset with regs := [(.errWatchCfg 4, 0x0001_0001_0001_0111)] }

theorem witness_ErrorRecordsAndWatches :
    (∀ i < 16, watches State.reset 0x0A12 i = false) ∧
    (let s := { State.reset with blotter := { State.reset.blotter with supp := [(16 * 65536 + 0x0A12, 64)] } }
     s.blotter.second = s.clock.ns / 10 ^ 9 ∧ 64 ≤ s.blotter.supp.get (16 * 65536 + 0x0A12) 0) ∧
    (F.errWatchCfg_enable.of 0x1_0000 = 1 ∧ F.errWatchCfg_code.of 0x1_0000 ∉ errorCodes) ∧
    (F.errWatchCfg_code.of 0x0001_0001_0001_0111 ∈ errorCodes ∧ F.errWatchCfg_threshold.of 0x0001_0001_0001_0111 ≠ 0 ∧ F.errWatchCfg_window.of 0x0001_0001_0001_0111 ≠ 0) ∧
    ((∀ j < 16, watches watching 0x0111 j = decide (j = 4)) ∧ (∀ j < 16, watches watching 0x0A40 j = false) ∧
      getF watching (.errWatchStatus 4) F.errWatchStatus_count + 1 = getF watching (.errWatchCfg 4) F.errWatchCfg_threshold) := by
  refine ⟨?_, ?_, ?_, ?_, ?_⟩ <;> decide +kernel

/-! ### Address space -/

theorem witness_AddressWindows :
    (Starts up hd 0x80 ∧ unwatched up ∧ mapped up 0x4_0000_0000 4096 = true ∧ up.windows.get? 2 = none ∧ (up.windows.get? 0).isSome = true ∧
      mapped up 0x7000_0000_0000 4096 = false) ∧
    (let s := { up with windows := (List.range 256).map (fun i => (i, ⟨0, 4096, 1, 0, 0, none, false, []⟩)) }
     s.windows.length = 256 ∧ (s.windows.get? 255).isSome = true) ∧
    (Starts up hd 0x81 ∧ (up.windows.get? 1).isSome = true) ∧
    (let d : Desc := ⟨9, 0, 0, 5, false, 0x81⟩
     let w : Window := ⟨0, 4096, 7, 0, 0, none, true, [9]⟩
     let s := { up with windows := [(7, w)], host := { up.host with descs := [d] } }
     s.windows.get? 7 = some w ∧ w.revoking = true ∧ w.waiters = [d.id] ∧ descOf s d.id = some d ∧ underWindow s 7 = false ∧
      underWindow { s with accesses := [⟨1, 0, 0, .load 0 8 true, [], [7], .unseen, none, false⟩] } 7 = true) :=
  ⟨⟨up_starts _ (by decide), up_unwatched, by decide +kernel⟩, by decide +kernel, ⟨up_starts _ (by decide), by decide +kernel⟩, by decide +kernel⟩

theorem witness_HostMemoryAccess :
    (hostLinkUp up = true ∧ up.memp.faults = [] ∧ up.memp.dead = [] ∧ up.lap.state = 0 ∧ (∀ d < 16, flag up (.memDieInjectCtl d) F.memDieInjectCtl_arm = false)) ∧
    (mapped up 0x5FF_FFFF_FFFF 1 = true ∧ memoryRefuses up 16 [(0x5FF_FFFF_FFFF, 1)] [] = none ∧ memoryRefuses up 16 [] [(0x5FF_FFFF_FFFF, 1)] = none ∧
      lapCode up false 0x5FF_FFFF_FFFF 1 = 0) ∧ hostLinkUp State.reset = false := by
  refine ⟨?_, ?_, ?_⟩ <;> decide +kernel


/-! ### Commands that are not well formed -/

def H : Hdr := ⟨0, 0, true⟩
def V : VR := ⟨0, 0, 0, 0, true, 0, 0, none⟩
def N : Nego := ⟨0, 0, 0, 0, 0⟩
def I : IdBlock := ⟨0, 0, 0, 0, 0, 0, 0, false, 0⟩
def TM : TimeMsg := ⟨0, 0, 0, 0, 0, 0, 0, 0, 0⟩
def RP : RelayPkt := ⟨0, 0, 0, 0, 0, 0, 0, 0, 0, 0, 0, [], [], []⟩
def WP : WritePkt := ⟨0, [], false, 0, 0⟩
def SM : SwlMsg := ⟨false, 0, 0, 0, 0, 0, 0, 0, 0, false, 0, 0, 0, 0, [], []⟩
def SI : SwlIn := ⟨SM, 0, 0, 1, none⟩

/-- The last operand of a command that has a width is checked (part 1). -/
theorem test_wf_refuses_1 : (
  [.registerWrite 0 9 0, .rcFieldRead 0 9, .stallTimeoutExpiry (.relay 4) 0, .memInterleaveWrite 16 0, .interleaveTakesEffect 16, .hostMemRead (2 ^ 64) 0,
    .hostMemWrite (2 ^ 64) [], .hostSnoop (2 ^ 64) true, .windowGrant H 0 0 0 0 0 (2 ^ 64), .windowRevoke H 256, .windowRevokeComplete 256, .nop 0 16, .add 0 0 0 0 64,
    .sub 0 0 0 0 64, .mul 0 0 0 0 64, .mulh 0 0 0 0 64, .mulhu 0 0 0 0 64, .div 0 0 0 0 64, .divu 0 0 0 0 64, .rem 0 0 0 0 64, .remu 0 0 0 0 64, .and 0 0 0 0 64, .or 0 0 0 0 64,
    .xor 0 0 0 0 64, .shl 0 0 0 0 64, .shr 0 0 0 0 64, .sra 0 0 0 0 64, .min 0 0 0 0 64, .max 0 0 0 0 64, .minu 0 0 0 0 64, .maxu 0 0 0 0 64, .clz 0 0 0 64, .ctz 0 0 0 64,
    .popc 0 0 0 64, .addi 0 0 0 64 0, .andi 0 0 0 64 0, .ori 0 0 0 64 0, .xori 0 0 0 64 0, .shli 0 0 0 64 0, .shri 0 0 0 64 0, .srai 0 0 0 64 0, .li 0 0 64 0, .cmpeq 0 0 0 0 64,
    .cmpne 0 0 0 0 64, .cmplt 0 0 0 0 64, .cmpltu 0 0 0 0 64, .cmple 0 0 0 0 64, .cmpleu 0 0 0 0 64, .pand 0 0 0 0 64, .por 0 0 0 0 64, .pxor 0 0 0 0 64, .pandn 0 0 0 0 64,
    .fadd 0 0 0 0 64, .fsub 0 0 0 0 64, .fmul 0 0 0 0 64, .ffma 0 0 0 0 0 64, .fdiv 0 0 0 0 64, .fsqrt 0 0 0 64, .fmin 0 0 0 0 64, .fmax 0 0 0 0 64] : List Instr).all (fun c => !c.wf) = true := by decide +kernel

/-- The last operand of a command that has a width is checked (part 2). -/
theorem test_wf_refuses_2 : (
  [.fcmpeq 0 0 0 0 64, .fcmplt 0 0 0 0 64, .fcmple 0 0 0 0 64, .fcvtif 0 0 0 64, .fcvtfi 0 0 0 64, .mova 0 0 0 64, .movs 0 0 0 64, .adda 0 0 0 0 64, .ld8 0 0 0 16 true 0,
    .ld8u 0 0 0 16 true 0, .ld16 0 0 0 16 true 0, .ld16u 0 0 0 16 true 0, .ld32 0 0 0 16 true 0, .ld32u 0 0 0 16 true 0, .ld64 0 0 0 16 true 0, .st8 0 0 0 16 true 0,
    .st16 0 0 0 16 true 0, .st32 0 0 0 16 true 0, .st64 0 0 0 16 true 0, .aadd32 0 0 0 0 64 0, .aadd64 0 0 0 0 64 0, .amin32 0 0 0 0 64 0, .amin64 0 0 0 0 64 0,
    .aminu32 0 0 0 0 64 0, .aminu64 0 0 0 0 64 0, .amax32 0 0 0 0 64 0, .amax64 0 0 0 0 64 0, .amaxu32 0 0 0 0 64 0, .amaxu64 0 0 0 0 64 0, .aswap32 0 0 0 0 64 0,
    .aswap64 0 0 0 0 64 0, .acas32 0 0 0 0 64 0, .acas64 0 0 0 0 64 0, .afadd32 0 0 0 0 64 0, .fence 0 0 0 16, .hurdle 0 0 0 0 64, .bwait 0 0 0 64, .btest 0 0 0 64,
    .hpost 0 0 64, .hnext 0 0 64, .hdone 0 0 64, .br 0 16 0, .call 0 16 0, .brx 0 0 64, .ret 0 16, .exit 0 16, .breakInstr 0 16, .rdsr 0 0 0 256, .wrsr 0 0 0 256,
    .vadd 0 0 { V with mask := 8 }, .vsub 0 0 { V with mask := 8 }, .vmul 0 0 { V with mask := 8 }, .vfma 0 0 { V with mask := 8 }, .vmin 0 0 { V with mask := 8 },
    .vmax 0 0 { V with mask := 8 }, .vabs 0 0 { V with mask := 8 }, .vneg 0 0 { V with mask := 8 }, .vdiv 0 0 { V with mask := 8 }, .vsqrt 0 0 { V with mask := 8 },
    .vrcp 0 0 { V with mask := 8 }] : List Instr).all (fun c => !c.wf) = true := by decide +kernel

/-- The last operand of a command that has a width is checked (part 3). -/
theorem test_wf_refuses_3 : (
  [.vrsqrt 0 0 { V with mask := 8 }, .vand 0 0 { V with mask := 8 }, .vor 0 0 { V with mask := 8 }, .vxor 0 0 { V with mask := 8 }, .vshl 0 0 { V with mask := 8 },
    .vshr 0 0 { V with mask := 8 }, .vsra 0 0 { V with mask := 8 }, .vcmpeq 0 0 { V with mask := 8 }, .vcmpne 0 0 { V with mask := 8 }, .vcmplt 0 0 { V with mask := 8 },
    .vcmple 0 0 { V with mask := 8 }, .vsel 0 0 { V with mask := 8 }, .vclass 0 0 { V with mask := 8 }, .vexp 0 0 { V with mask := 8 }, .vexp2 0 0 { V with mask := 8 },
    .vlog 0 0 { V with mask := 8 }, .vlog2 0 0 { V with mask := 8 }, .vsin 0 0 { V with mask := 8 }, .vcos 0 0 { V with mask := 8 }, .vtanh 0 0 { V with mask := 8 },
    .vsigm 0 0 { V with mask := 8 }, .verf 0 0 { V with mask := 8 }, .vcvt 0 0 { V with mask := 8 }, .vperm 0 0 { V with mask := 8 }, .vshuf 0 0 { V with mask := 8 },
    .vtrans 0 0 { V with mask := 8 }, .vpack 0 0 { V with mask := 8 }, .vunpack 0 0 { V with mask := 8 }, .vmxpack 0 0 { V with mask := 8 }, .vmxunpack 0 0 { V with mask := 8 },
    .vsoftmax 0 0 { V with mask := 8 }, .vred 0 0 { V with mask := 8 }, .mand 0 0 { V with mask := 8 }, .mor 0 0 { V with mask := 8 }, .mxor 0 0 { V with mask := 8 },
    .mnot 0 0 { V with mask := 8 }, .gensave 0 0 { V with mask := 8 }, .genload 0 0 { V with mask := 8 }, .gendraw 0 0 { V with mask := 8 }, .gendrop 0 0 { V with mask := 8 },
    .vsplat 0 0 0 0 16, .mmac 0 0 0 0 0 0 0 2 true, .kstep 1024, .msetp 0 0 4, .mscale 0 0 0 0 2, .mdrain 0 0 0 0 0 0 2 true, .drainExecute 1024, .mzero 0 0 2, .mwait 0 16,
    .dmcopy 0 0 0 0 0 64 true, .dm2d 0 0 0 64 true, .dmfill 0 0 0 0 0 64, .dmwait 0 0 64, .vld 0 0 0 0 64 true, .vst 0 0 0 0 64 true true, .tld 0 0 0 2, .tst 0 0 0 2 true,
    .rpost 0 0 0 0 64, .coreHalt 1024 0, .coreResume 1024 0] : List Instr).all (fun c => !c.wf) = true := by decide +kernel

/-- The last operand of a command that has a width is checked (part 4). -/
theorem test_wf_refuses_4 : (
  [.coreStep 1024 0, .stepDone 16384, .coreKill 1024 0, .runnerFreed 16384, .dbgDataWrite 1024 0, .odrainGo 1024 0, .odrainDone 1024, .loadProgram H 0 65536,
    .launch H 0 0 true 0 (2 ^ 64) 0, .launchShareStart 1024, .haltRunners H 0 0 0 (2 ^ 64), .heatAssign 16, .heatAutoPost 256, .farQueueSegmentCarry (2 ^ 64),
    .farQueueHeadAdvance (2 ^ 64), .farQueueTailCopy (2 ^ 64), .stageCfgWrite 0 0 6 0, .snapshotTake 1024, .snapshotWriteComplete 16, .generatorRestore 1024, .vecReseed 16 0,
    .vecSnapWrite 16 0, .censusRead H 0 0 0 (2 ^ 64) true, .lapRegionCfgWrite 64 0, .lapRegionBaseWrite 0 2 0, .lapBaseWrite 2 0, .lapOpen H (2 ^ 32), .lapVote H (2 ^ 32) true,
    .lapAbort H (2 ^ 32), .relay H 0 4, .mirror H 0 4, .restore H 0 4, .relayStart 4, .relaySend 0 0 65536, .relayPacketReceive 0 0 ⟨0, 0, 0⟩ { RP with kind := 16 },
    .contributionLanded 0 64, .relayComplete 0 64, .relayTimeout 0 64, .relayCancel 4 0, .layoutInstall H 65536, .copy H 0 0 (2 ^ 64), .fill H 0 0 (2 ^ 64),
    .nopDescriptor { H with q := 128 }, .fenceDescriptor { H with q := 128 }, .lanePlanInstall H (2 ^ 64), .coordAdopt H 0 0 256, .cablingPlanInstall H (2 ^ 64),
    .pacerSet H 0 65536, .lightDetected 768, .linkLightLost 768, .bringupTimeout 768, .bringupRetryTimer 768, .negotiation 0 { N with fec := 256 }, .fecChange 768,
    .identityBlock 0 { I with port := 256 }, .identitySendTimer 768, .channelOpen ⟨0, true⟩ 0 0 ⟨18, false⟩, .channelOpenTimer 0 64, .managementMessage ⟨768, true⟩ [],
    .timeMessage ⟨0, true⟩ { TM with hops := 256 }] : List Instr).all (fun c => !c.wf) = true := by decide +kernel

/-- The last operand of a command that has a width is checked (part 5). -/
theorem test_wf_refuses_5 : (
  [.linkAck 0 0 true 0 0 256, .writePacket 0 0 ⟨0, 65536, 0⟩ { WP with dest := 2 ^ 64 }, .packetForward 0 0 3, .packetSend 0 0 3, .linkAckTimer 0 64, .nakGapTimeout 0 64,
    .resendTimeout 0 64, .freeze 0 256, .thaw 768, .pause 0 8, .resume 0 8, .splitMarker 0 65536, .nibLeave 0 16, .nibJoin 0 16, .fibreHold 24, .fibreResume 24,
    .keepalive 0 true 8, .keepaliveTimer 768, .fibreThaw 24 0, .fibreAdopt 24 0, .fibreRetrain 24 0, .fibreFreeze 24 0, .fibrePause 24 0, .combPresentChange 2 true,
    .combReadyChange 2 true, .combFaultChange 2 true, .linePowerSample 0 0 72 0, .lineMeanUpdate 0 0 72, .slopeUpdate 0 0 72, .ringUnlock 0 16 true, .ringRelock 0 16 true,
    .read 0 { SI with seq := 256 }, .write 0 { SI with seq := 256 }, .atomic 0 { SI with seq := 256 }, .tallyAdd 0 { SI with seq := 256 },
    .readResp 0 { SI with seq := 256 }, .writeAck 0 { SI with seq := 256 }, .atomicResp 0 { SI with seq := 256 }, .tallyAck 0 { SI with seq := 256 },
    .packet 0 { SI with seq := 256 }, .notice 0 { SI with seq := 256 }, .credit 0 0 0 0 256 none, .nak 0 256, .sweyrSplitMarker 0 0 65536, .sweyrAckTimer 448,
    .sweyrCreditTimer 448, .sweyrResendTimeout 448, .cap 448 [], .capAck 448, .capResendTimer 448, .trainReq 0 256, .laneTestDone 448 0, .laneResult 448 0, .widthCheck 448 0,
    .active 448, .resetNotice 448, .retrainReq 448, .time 0 0 65536, .mgmt 448 [], .forwardedClockLoss 448] : List Instr).all (fun c => !c.wf) = true := by decide +kernel

/-- The last operand of a command that has a width is checked (part 6). -/
theorem test_wf_refuses_6 : (
  [.arbPriorityWrite (.swl 448) 0, .arbiterWatchdog (.swl 448), .swlRetrain 448 0, .swlRelearn 448 0, .swlDisable 448 0, .cxlLinkTrain 0 256 true true, .queueEnable 128 0,
    .queueDisable 128 0, .queueResume 128 0, .queueStopped 128, .submissionTailDoorbell 128 0, .completionHeadDoorbell 128 0, .descriptorFetch 128 true, .completionWrite 128,
    .mailboxPost 0 22 0 0, .legacyPost 0 22 0 0, .mailboxTagRead 0 22, .mailboxStateClear 0 22 true, .oscALoss 20, .bothRefLoss 20, .adaptiveClockAdjust 1024 0,
    .rateThrottle 20 0, .hotThrottle 20 ⟨0, false⟩, .hotThrottle 16 ⟨0, true⟩, .throttleRelease 0 4, .thermtrip 20 ⟨0, false⟩, .thermtrip 16 ⟨0, true⟩, .thermtripResume 20 0, .splitMeasure 768, .ppsInEdge (2 ^ 64), .moduleWarmReset 16,
    .dieWarmReset 0 16, .dieResetReady 20, .refresh 0 32 0, .pinCheck 0 0 24 true, .patrolScrubRead 20 ⟨0, 0⟩ true, .processorStartTimeout 20, .watchdogExpiry 20, .setdasa 128,
    .setCoord 65536, .getVersion 2, .getCapabilities 2, .negotiateAlgorithms 2, .getDigests 2, .getCertificate 0 0 0 65536, .challenge 0 256 [], .getMeasurements 0 256 true [],
    .numericSensorRead 65536, .watchWrite 16 0, .watchWindowClose 16, .coreIllegalInstruction 16384 0, .nibLock 0 16, .flitDelineation 0 ⟨16, []⟩, .negotiationRound 768,
    .flitCrcFail ⟨0, 0, 0, false, []⟩, .sweyrCrcFail ⟨0, []⟩, .generatorLoadComplete 1024, .reseedComplete 16, .referenceRestored 20, .setEndpointId 256] : List Instr).all (fun c => !c.wf) = true := by decide +kernel


/-- Each width of a part of a command is checked; the parts that these commands start from are well formed. -/
theorem test_wf_parts :
    ([{ V with vd := 32 }, { V with va := 32 }, { V with vb := 32 }, { V with func := 32 }, { V with mask := 8 }, { V with type := 16 }].all (fun o => !(Instr.vadd 0 0 o).wf) && [{ N with fec := 256 }, { N with features := 256 }, { N with credit := 256 }, { N with round := 256 }].all (fun n => !n.wf) &&
      [{ I with port := 256 }, { I with fibre := 256 }, { I with phys := 256 }, { I with level := 256 }, { I with coord := 65536 }, { I with job := 65536 },
        { I with planCrc := 2 ^ 32 }].all (fun i => !i.wf) &&
      [{ TM with hops := 256 }, { TM with state := 256 }, { TM with pacer := 65536 }, { TM with sent := 65536 }, { TM with sentFrac := 65536 }, { TM with seen := 65536 },
        { TM with seenFrac := 65536 }, { TM with sentNs := 2 ^ 64 }, { TM with seenNs := 2 ^ 64 }].all (fun m => !m.wf) &&
      [{ RP with tag := 2 ^ 32 }, { RP with lap := 2 ^ 32 }, { RP with crc := 2 ^ 32 }, { RP with blocks := [2 ^ 32] }, { RP with layout := 65536 }, { RP with sender := 65536 },
        { RP with residues := [65536] }, { RP with kind := 16 }, { RP with op := 16 }, { RP with type := 16 }, { RP with overflow := 32768 }, { RP with first := 2 ^ 64 },
        { RP with scale := 128 }, { RP with scale := -129 }, { RP with words := List.replicate 901 0 }, { RP with residues := List.replicate 16 0 },
        { RP with blocks := List.replicate 15 0 }].all (fun p => !p.wf) &&
      [{ WP with dest := 2 ^ 64 }, { WP with postAddr := 2 ^ 64 }, { WP with data := List.replicate 3809 0 }].all (fun p => !p.wf) &&
      [{ SM with src := 65536 }, { SM with dst := 65536 }, { SM with tag := 65536 }, { SM with residue := 65536 }, { SM with addr := 2 ^ 64 }, { SM with len := 3841 }, { SM with atomic := 256 },
        { SM with status := 256 }, { SM with master := 2 ^ 32 }, { SM with data := List.replicate 3841 0 }, { SM with poison := [33] }].all (fun m => !m.wf) &&
      [{ SI with msg := { SM with len := 3841 } }, { SI with seq := 256 }, { SI with count := 0 }, { SI with first := 33 }, { SI with ack := some 256 }].all (fun a => !a.wf) && !(SwlHeard.mk 448 []).wf &&
      [Pool.relay 4, .runner 1024].all (fun p => !p.wf) && [Arb.mesh 16 0 0, .mesh 0 16 0, .mesh 0 0 5, .swl 448].all (fun a => !a.wf) && !(Instr.add 16384 0 0 0 0).wf &&
      !(Instr.add 0 16 0 0 0).wf && (Instr.add 16383 15 63 63 63).wf && V.wf && N.wf && I.wf && TM.wf && RP.wf && WP.wf && SM.wf && SI.wf && H.wf) = true := by decide +kernel

/-! ### Cores, runners and the instruction set -/

/-- `run0` with debug access unlocked. -/
def open0 : State := { run0 with regs := [(.secDebugStatus, BitVec.allOnes 64)] }

/-- `run0` with an access of runner 0 in flight, a load into s5. -/
def flies : State := { run0 with nextId := 10, accesses := [⟨9, 0, 0, .load 5 8 true, [(0x40, 8)], [0], .unseen, none, false⟩] }

/-- Every instruction of one bundle can issue with the registers it names free. -/
theorem witness_Scalar : Clear run0 0 0 [.s 1, .s 2, .s 5] ∧ Clear run0 0 0 [.s 1, .s 5, .s 0] ∧ Clear run0 0 0 [.s 1, .s 2, .p 1, .p 2, .p 3] ∧
    Clear run0 0 0 [.s 1, .s 2, .s 3, .s 5, .s 0] ∧ Clear run0 0 0 [.s 1, .s 2, .s 5, .a 1, .a 5] ∧ (sReg run0 0 4 = 0 ∧ sReg run0 0 1 = 7) ∧
    ((f32 0x7FC00001).isNan = true ∧ f32 0x7F800000 = .inf false ∧ f32 0xFF800000 = .inf true ∧ (f32 0).isZero = true ∧ (f32 0x80000000).isZero = true) ∧
    (f32 0x3F800000).isNan = false :=
  ⟨run0_clear _ (by decide +kernel), run0_clear _ (by decide +kernel), run0_clear _ (by decide +kernel), run0_clear _ (by decide +kernel),
    run0_clear _ (by decide +kernel), by decide +kernel, by decide +kernel, by decide +kernel⟩

theorem witness_Branches : Clear run0 0 0 [.s 1, .s 63] ∧
    (guardOn run0 0 1 = false ∧ CanIssue run0 0 ∧ (runnerAt run0 0).pc + 1 < bundleCount run0 (dieOfRunner 0) ∧ (runnerAt run0 0).pc + 1 < 2 ^ 17) ∧
    (runnerBusy (moved run0 0) 0 = false ∧ debugOpen run0 0 = false) ∧ (Clear flies 0 0 [] ∧ runnerBusy (moved flies 0) 0 = true) ∧
    (Clear open0 0 0 [] ∧ debugOpen open0 0 = true) :=
  ⟨run0_clear _ (by decide +kernel), ⟨by decide +kernel, run0_can, by decide +kernel⟩, by decide +kernel,
    ⟨clear_of (canIssue_of (by decide +kernel)) (by decide +kernel), by decide +kernel⟩,
    ⟨clear_of (canIssue_of (by decide +kernel)) (by decide +kernel), by decide +kernel⟩⟩

/-- `run0` with lap 4 Writing; region 0 has a page each at 0x2000 (wet) and 0x3000 (dry). -/
def lapping : State :=
  { run0 with
    regs := [(.lapRegionCfg 0, 0x30_0000_0001), (.lapRegionBase 0 0, 0x2000), (.lapRegionBase 0 1, 0x3000)]
    lap := { run0.lap with state := 1, older := some ⟨4, 0, none, 0, 0, false, 0, none⟩ } }

theorem witness_ScalarLoadsAndStores : Clear run0 0 0 [.s 1, .a 0] ∧ Clear run0 0 0 [.s 1, .a 3] ∧ holdOwn 0 (fun _ => [((0x40 : Nat), 8)]) run0 = none ∧
    ((0x41 : Nat) % 8 ≠ 0 ∧ aReg run0 0 2 = 0x41) ∧ (permits run0 none .r 0x40 8 = true ∧ permits run0 none .w 0x40 8 = true ∧ lapCode run0 true 0x40 8 = 0) ∧
    (permits run0 none .r 0x50_0000 8 = false ∧ permits run0 none .w 0x50_0000 8 = false) ∧
    (Clear lapping 0 0 [.s 1, .a 0] ∧ permits lapping none .w 0x3000 8 = true ∧ lapCode lapping true 0x3000 8 = 0x0603 ∧ lapCode lapping true 0x2FF8 8 = 0) :=
  ⟨run0_clear _ (by decide +kernel), run0_clear _ (by decide +kernel), by decide +kernel, by decide +kernel, by decide +kernel, by decide +kernel,
    clear_of (canIssue_of (by decide +kernel)) (by decide +kernel), by decide +kernel⟩

theorem witness_AtomicsIssue : Clear run0 0 0 [.s 5, .s 2, .a 0] ∧ holdOwn 0 (fun _ => [((0x40 : Nat), 8)]) run0 = none ∧
    (0x44 % 8 ≠ 0 ∧ atomicPlace run0 0x40 = true ∧ permits run0 none .a 0x40 8 = true ∧ lapCode run0 true 0x40 8 = 0) ∧
    (atomicPlace run0 0x1000_0000_0000 = true ∧ atomicPlace run0 0x1100_0000_0000 = true ∧ permits run0 none .a 0x50_0000 8 = false) ∧
    (atomicPlace run0 0x1200_0000_0000 = false ∧ atomicPlace run0 0x8000_0000_0000 = false) :=
  ⟨run0_clear _ (by decide +kernel), by decide +kernel, by decide +kernel, by decide +kernel, by decide +kernel⟩

/-- `run0` with one access in flight. -/
def inFlightAt (k : AccKind) (x n : Nat) (wr : Bool) : State := { run0 with nextId := 10, accesses := [⟨9, 0, 0, k, [(x, n)], [0], .unseen, none, wr⟩] }

theorem quiet_of {s : State} {a : Access} (h : (decide (s.accesses.find? (fun b => b.id == a.id) = some a) && !accessBlocked s a &&
    decide (memoryRefuses s (dieOfRunner a.runner) a.reads a.written = none) && s.memp.faults.isEmpty && s.memp.poison.isEmpty && s.memp.dead.isEmpty &&
    (List.range 16).all (fun d => !flag s (.memDieInjectCtl d) F.memDieInjectCtl_arm) && decide (s.lap.state = 0) && a.seen.writing.isNone && a.seen.idle &&
    (coreAt s (coreOf a.runner)).array.isEmpty && !(runnerAt s a.runner).ending && s.runners.all (fun p => p.2.state != .waiting)) = true) : Quiet s a := by
  simp only [Bool.and_eq_true, decide_eq_true_eq, Bool.not_eq_true', List.isEmpty_iff, List.all_eq_true, List.mem_range, bne_iff_ne, Option.isNone_iff_eq_none] at h
  obtain ⟨⟨⟨⟨⟨⟨⟨⟨⟨⟨⟨⟨h1, h2⟩, h3⟩, h4⟩, h5⟩, h6⟩, h7⟩, h8⟩, h9⟩, h9b⟩, h10⟩, h11⟩, h12⟩ := h
  exact ⟨h1, h2, h3, ⟨h4, h5, h6⟩, h7, ⟨h8, h9, h9b⟩, h10, h11, h12⟩

theorem witness_AccessesPerformed :
    (∀ signed, Quiet (inFlightAt (.load 5 8 signed) 0x40 8 false) ⟨9, 0, 0, .load 5 8 signed, [(0x40, 8)], [0], .unseen, none, false⟩) ∧
    Quiet (inFlightAt (.store [1, 2]) 0x40 2 true) ⟨9, 0, 0, .store [1, 2], [(0x40, 2)], [0], .unseen, none, true⟩ ∧
    ∀ op ∈ [AtomOp.add, .min, .minu, .max, .maxu, .swap, .cas, .fadd],
      Quiet (inFlightAt (.atomic op 4 1 2 5) 0x40 4 true) ⟨9, 0, 0, .atomic op 4 1 2 5, [(0x40, 4)], [0], .unseen, none, true⟩ :=
  ⟨fun g => quiet_of (by revert g; decide +kernel), quiet_of (by decide +kernel), fun op h => quiet_of (by revert op; decide +kernel)⟩

theorem witness_VectorRegisterTransfers : Clear run0 0 0 [.v 1, .a 1, .s 4, .t 0] ∧ (runnerAt run0 0).census = 0xFFFF ∧
    (let rows := (List.range 32).map (fun i => ((aReg run0 0 1 + BitVec.ofNat 64 i * 128).toNat, 128))
     holdOwn 0 (fun _ => rows) run0 = none ∧ accessFault run0 .r rows = none ∧ accessFault run0 .w rows = none) ∧
    (aReg run0 0 1).toNat % 128 = 0 ∧ (aReg run0 0 2).toNat % 128 ≠ 0 ∧
    (let whole := [((aReg run0 0 1).toNat, 65536)]
     holdOwn 0 (fun _ => whole) run0 = none ∧ accessFault run0 .r whole = none ∧ accessFault run0 .w whole = none) :=
  ⟨run0_clear _ (by decide +kernel), by decide +kernel, by decide +kernel, by decide +kernel, by decide +kernel, by decide +kernel⟩

theorem witness_FencesAndHurdles : Clear run0 0 0 [.s 2] ∧ fenceIds run0 0 0 15 = [] ∧ fenceIds run0 0 2 15 = [] ∧
    (Clear flies 0 0 [.s 2] ∧ (fenceIds flies 0 4 3).any (outstanding flies) = true) ∧
    (sReg run0 0 0 = 0 ∧ (sReg run0 0 2).toNat = 3 ∧ (hurdleAt run0 (hurdleKey 0 0 5)).arrived = 0) ∧
    (let s := { run0 with hurdles := [(hurdleKey 0 0 5, ⟨4, 2, 3, false, [1, 2]⟩)] }
     (hurdleAt s (hurdleKey 0 0 5)).arrived ≠ 0 ∧ (hurdleAt s (hurdleKey 0 0 5)).need = 3 ∧ (hurdleAt s (hurdleKey 0 0 5)).arrived + 1 = 3) ∧
    (let s := { run0 with hurdles := [(hurdleKey 0 0 5, ⟨4, 2, 5, false, [1, 2]⟩)] }
     (hurdleAt s (hurdleKey 0 0 5)).arrived ≠ 0 ∧ (hurdleAt s (hurdleKey 0 0 5)).need = 5 ∧ (hurdleAt s (hurdleKey 0 0 5)).arrived + 1 < 5 ∧ (hurdleAt s (hurdleKey 0 0 5)).mismatch = false) :=
  ⟨run0_clear _ (by decide +kernel), by decide +kernel, by decide +kernel, ⟨clear_of (canIssue_of (by decide +kernel)) (by decide +kernel), by decide +kernel⟩,
    by decide +kernel⟩

/-- `run0` whose runner 0 holds two batons, one complete, and an assigned pair. -/
def batons0 : State :=
  { run0 with
    regs := [(.cmpStageCfg 0 1, BitVec.allOnes 64)]
    runners := [(0, { runnerAt run0 0 with s := [(1, 7), (6, 0x100)], batons := [⟨3, 0, none⟩, ⟨7, 0, some 7⟩], given := some 0x1234 })]
    heat := { run0.heat with entries := [(0, ⟨0, false, 0, 0, none, 1, [(0, 0)], [], none, false, 0⟩)] } }

theorem witness_BatonsAndHeatPairs : Clear batons0 0 0 [.s 5, .s 1] ∧
    (batonOf batons0 0 9 = none ∧ (batonOf batons0 0 7).elim none (·.status) = some 7 ∧ ((batonOf batons0 0 3).isSome = true ∧ (batonOf batons0 0 3).elim none (·.status) = none)) ∧
    (postable run0 0 (sReg run0 0 1) = false ∧ postable batons0 0 (sReg batons0 0 6) = true ∧ postRoom batons0 0 (sReg batons0 0 6) = true ∧ (freeEntry batons0).isSome = true) ∧
    ((runnerAt batons0 0).given = some 0x1234 ∧ (runnerAt run0 0).given = none ∧ (runnerAt batons0 0).posted = false) ∧
    (assignedTo batons0 0 0 = true ∧ assignedTo batons0 0 7 = false) :=
  ⟨clear_of (canIssue_of (by decide +kernel)) (by decide +kernel), by decide +kernel, by decide +kernel, by decide +kernel, by decide +kernel⟩

/-- Runner 0 Ready, 1 Waiting, 2 Halted with a wait, 3 Frozen, 4 ending, 5 after its step. -/
def mixed (regs : List (Reg × Word)) : State :=
  { run0 with
    regs := regs
    runners := [(0, { Runner.free with state := .ready }), (1, { Runner.free with state := .waiting, wait := some (.baton 4) }),
      (2, { Runner.free with state := .halted, cause := 12 }), (3, { Runner.free with state := .frozen }),
      (4, { Runner.free with state := .ready, ending := true }), (5, { Runner.free with state := .ready, stepIssued := true })] }

theorem witness_FreezingARunner : unwatched (mixed []) ∧ ((runnerAt (mixed []) 0).state = .ready ∧ (runnerAt (mixed []) 1).state = .waiting ∧
    (runnerAt (mixed []) 2).state = .halted) ∧ (∀ w < 6, (runnerAt (mixed []) w).pc < 2 ^ 17) ∧ (bundleIllegal 0 (BitVec.ofNat 128 (2 ^ 128 - 1)) = true ∧ CanIssue (mixed []) 0) ∧
    bundleIllegal 0 0 = false :=
  ⟨unwatched_of (by decide +kernel), by decide +kernel, by decide +kernel, ⟨by decide +kernel, canIssue_of (by decide +kernel)⟩, by decide +kernel⟩

theorem witness_HaltResumeStepKill : (∀ r ∈ [[], [(Reg.secDebugStatus, BitVec.allOnes 64)]], unwatched (mixed r)) ∧ inReset (mixed []) 0 = false ∧ (mixed []).halts = [] ∧
    flag (mixed []) .hifEmergencyHalt F.hifEmergencyHalt_active = false ∧ (coreAt (mixed []) 0).odrain = none ∧ debugOpen (mixed []) 0 = false ∧
    debugOpen (mixed [(.secDebugStatus, BitVec.allOnes 64)]) 0 = true ∧ ((runnerAt (mixed []) 2).state = .halted ∧ (runnerAt (mixed []) 2).ending = false ∧
      (runnerAt (mixed []) 2).pc < bundleCount (mixed []) 0) ∧ (∀ w < 6, runnerBusy (mixed []) w = false) ∧ ((runnerAt (mixed []) 4).ending = true) ∧
    ((runnerAt (mixed []) 5).stepIssued = true ∧ (runnerAt (mixed []) 5).ending = false) ∧ runnerBusy flies 0 = true :=
  ⟨fun r h => unwatched_of (by revert r; decide +kernel), by decide +kernel⟩

theorem witness_DebugAccess : ∀ r ∈ [0, 2, 3], ∀ c ∈ [(0, 5), (0, 0), (1, 15), (2, 7), (3, 0), (4, 7), (4, 8), (4, 9), (5, 0)],
    let s := mixed [(.cmpCoreDbgSel 0, BitVec.ofNat 64 (r + c.1 * 2 ^ 8 + c.2 * 2 ^ 16)), (.secDebugStatus, if c.2 = 0 then 0 else BitVec.allOnes 64)]
    dbgSel s 0 = (r, c.1, c.2) ∧ unwatched s ∧ inReset s 0 = false ∧ (debugOpen s 0 = decide (c.2 ≠ 0)) := by
  intro r hr c hc
  refine ⟨?_, unwatched_of ?_, ?_, ?_⟩ <;> (revert c; revert r; decide +kernel)

/-- A valid program of two entries on die 0, and two shares of core 0. -/
def shares0 : State :=
  { up with
    regs := [(.hifLinkStatus, 8), (.cmpProgStatus 0, BitVec.allOnes 64)]
    progs := [(0, ⟨[0, 3], List.replicate 8 0⟩)]
    shares := [⟨5, 0, 3, 1, 0x77, false, 0⟩], launches := [⟨5, 1, 0, false, 1, []⟩] }

theorem witness_LaunchedRunners :
    (Starts shares0 hd 0x11 ∧ unwatched shares0 ∧ bitsOf 16 1 ≠ [] ∧ bitsOf 64 3 ≠ [] ∧
      (∀ d ∈ bitsOf 16 1, flag shares0 (.cmpProgStatus d) F.cmpProgStatus_valid = true ∧ 1 < ((shares0.progs.get? d).elim [] (·.entries)).length) ∧
      (∃ d ∈ bitsOf 16 2, flag shares0 (.cmpProgStatus d) F.cmpProgStatus_valid = false)) ∧
    (∃ x, shares0.shares.find? (·.core == 0) = some x ∧ x.n ≤ ((List.range 16).filter (fun i => (runnerAt shares0 i).state == .free)).length) ∧
    (let s := { shares0 with runners := (List.range 14).map (fun i => (i, { Runner.free with state := .ready })) }
     ((List.range 16).filter (fun i => (runnerAt s i).state == .free)).length < 3) ∧
    inReset shares0 0 = false ∧ flag shares0 .hifEmergencyHalt F.hifEmergencyHalt_active = false ∧ shares0.power.resetCore = none :=
  ⟨⟨starts_of (by decide +kernel), unwatched_of (by decide +kernel), by decide +kernel⟩, ⟨_, rfl, by decide +kernel⟩, by decide +kernel⟩

/-- A program image of one entry and one bundle of zeros, laid out as Table 3.17 says. -/
def image1 : List Byte :=
  let body := List.replicate 32 (0 : Byte)
  bytesLE 4 0x47504B5A ++ bytesLE 2 1 ++ bytesLE 2 1 ++ bytesLE 4 1 ++ bytesLE 4 (crc32c body) ++ bytesLE 4 0x99 ++ List.replicate 44 0 ++ body

/-- `up` with that image at 0x1000, and with its checksum wrong. -/
def imaged (good : Bool) : State := { up with mem := Mem.write (Mem.write [] 0x1000 image1) 0x100C (if good then [] else [1, 2, 3, 4]) }

theorem witness_ProgramImages :
    (∀ g, Starts (imaged g) hd 0x10 ∧ unwatched (imaged g)) ∧ bitsOf 16 0 = [] ∧ (∃ d ∈ bitsOf 16 1, dieBusy shares0 d = true) ∧
    (∀ d ∈ bitsOf 16 5, dieBusy (imaged true) d = false ∧ cutOff (imaged true) 16 d = false) ∧
    (∀ g, Reaches (imaged g) 0 [(0x1000, 0x40)] [] ∧ Reaches (imaged g) 0 [(0x1000, 0x60)] []) ∧
    (∀ g, imageHeadBad (Mem.read (imaged g).mem 0x1000 0x40) = false ∧ imageBad (Mem.read (imaged g).mem 0x1000 0x60) = !g ∧
      field (Mem.read (imaged g).mem 0x1000 0x40) 6 2 = 1 ∧ field (Mem.read (imaged g).mem 0x1000 0x40) 8 4 = 1) ∧
    (Starts up hd 0x12 ∧ up.halts = []) := by
  refine ⟨fun g => ⟨starts_of ?_, unwatched_of ?_⟩, ?_, ?_, ?_, fun g => ⟨reaches_of ?_, reaches_of ?_⟩, ?_, up_starts _ (by decide), rfl⟩ <;> (try revert g) <;> decide +kernel

theorem witness_CopyAndFill : unwatched up ∧ up.lap.state = 0 ∧ (∀ d < 16, flag up (.memDieInjectCtl d) F.memDieInjectCtl_arm = false) ∧ Starts up hd 0x20 ∧ Starts up hd 0x21 ∧
    Reaches up 0 [(0x40, 64)] [(0x80, 64)] ∧ Reaches up 0 [(0x80, 64)] [(0x40, 64)] ∧ Reaches up 0 [] [(0x40, 13)] :=
  ⟨up_unwatched, by decide +kernel, by decide +kernel, up_starts _ (by decide), up_starts _ (by decide), reaches_of (by decide +kernel), reaches_of (by decide +kernel),
    reaches_of (by decide +kernel)⟩

/-- `run0` with a transfer record of 2 rows of 16 bytes at 0x40, and with `m` transfers in core 0's mover. -/
def mover0 (m : Nat) : State :=
  { run0 with
    mem := Mem.write [] 0x40 (bytesLE 8 0x200 ++ bytesLE 8 0x400 ++ bytesLE 4 2 ++ bytesLE 4 16 ++ bytesLE 4 0x20 ++ bytesLE 4 0x20)
    cores := [(0, { Core.cold with mover := (List.range m).map (fun i => ⟨i, 0, 0, i, 0x200 + 64 * i, 0x1000 + 64 * i, 1, 64, 0, 0, none, [], .unseen, none⟩) })]
    nextId := 40 }

theorem witness_DataMover : (∀ m ∈ [0, 1, 32], Clear (mover0 m) 0 0 [.a 0, .a 1, .s 2, .s 5] ∧ (runnerAt (mover0 m) 0).census = 0xFFFF ∧ (coreAt (mover0 m) 0).mover.length = m) ∧
    (holdOwn 0 (fun _ => [((0x1000_0000_0000 : Nat), 3), (0x40, 3)]) (mover0 0) = none ∧ accessFault (mover0 0) .r [(0x1000_0000_0000, 3)] = none ∧ accessFault (mover0 0) .w [(0x40, 3)] = none ∧
      (sReg (mover0 0) 0 2).toNat = 3 ∧ (sReg (mover0 0) 0 4).toNat = 0) ∧
    (let rd := recordRanges (mover0 0) 0x40
     earlierTo (mover0 0) 0 0x40 32 = [] ∧ holdOwn 0 (fun _ => (0x40, 32) :: (rd.1 ++ rd.2)) (mover0 0) = none ∧ accessFault (mover0 0) .r [(0x40, 32)] = none ∧
      targetReset (mover0 0) 0 0x40 = false ∧ poisonHit (mover0 0) 0x40 32 = none ∧ accessFault (mover0 0) .r rd.1 = none ∧ accessFault (mover0 0) .w rd.2 = none ∧ rd.1 ≠ []) ∧
    (((coreAt (mover0 0) 0).mover.filter (·.runner == 0)) = [] ∧ ((coreAt (mover0 1) 0).mover.filter (·.runner == 0)) ≠ []) ∧
    (let s := mover0 1
     ∃ x, transferAt s 0 = some (0, x) ∧ x.counted = none ∧ x.rows = 1 ∧ x.sstr = 0 ∧ x.dstr = 0 ∧ x.rowBytes = 64 ∧ x.id = 0 ∧
      (coreAt s 0).mover.any (fun u => u.runner == x.runner && decide (u.id < x.id) && meet u.ranges x.ranges) = false ∧ s.memp.faults = [] ∧ s.memp.dead = [] ∧
      memoryRefuses s 0 x.read x.written = none ∧ s.lap.state = 0 ∧ x.seen.writing = none ∧ x.seen.idle = true ∧ (coreAt s 0).array = []) :=
  ⟨fun m h => ⟨clear_of (canIssue_of (by revert m; decide +kernel)) (by revert m; decide +kernel), by revert m; decide +kernel⟩, by decide +kernel, by decide +kernel, by decide +kernel,
    ⟨_, rfl, by decide +kernel⟩⟩

/-! ### The matrix array and the vector engine -/

/-- `run0` with array operations queued on core 0; tile 0 holds a float partial. -/
def array0 (l : List ArrOp) (integer : Bool) : State :=
  { run0 with cores := [(0, { Core.cold with tiles := [(0, ⟨integer, if l.isEmpty then 1 else 0, [], [], 0x3F800000, 0x40000000⟩)], array := l })]
              runners := [(0, { runnerAt run0 0 with a := [(0, 0x40), (1, 0x1100_0000_0000), (2, 0x41), (3, 0x1000_0000_0000)] })] }

theorem witness_MatrixInstructions :
    (Clear (array0 [] false) 0 0 [.a 1, .a 3, .s 2, .s 5] ∧ (array0 [] false).accesses = [] ∧ (coreAt (array0 [] false) 0).mover = [] ∧
      (coreAt (array0 [] false) 0).odrain = none ∧ (runnerAt (array0 [] false) 0).census = 0xFFFF ∧ (coreAt (array0 [] false) 0).array = []) ∧
    (pairOk 3 4 = true ∧ pairOk 8 8 = true ∧ pairOk 8 3 = false) ∧ ((aReg (array0 [] false) 0 1).toNat = folioAddr 0 ∧ (aReg (array0 [] false) 0 2).toNat % 128 ≠ 0) ∧
    (sReg (array0 [] false) 0 0 = 0 ∧ (sReg (array0 [] false) 0 2).toNat = 3 ∧ folioAddr 0 + 3 * recordSize 3 ≤ folioAddr 0 + 0x20_0000 ∧
      accessFault (array0 [] false) .r [(folioAddr 0, 3 * recordSize 3), (folioAddr 0, 3 * recordSize 4)] = none) ∧
    ((tileCtl (array0 [] true) 0 0).pending ≠ 0 ∧ (tileCtl (array0 [] true) 0 0).integer = true ∧ (tileCtl (array0 [] false) 0 1).pending = 0) ∧
    (drainType 12 = false ∧ drainType 3 = true ∧ drainPlace (array0 [] false) 0x1000_0000_0000 (drainBytes 3) = true ∧ drainPlace (array0 [] false) 0x40 (drainBytes 3) = false ∧
      drainPlace (array0 [] false) 0x1200_0000_0000 (drainBytes 3) = false ∧
      accessFault (array0 [] false) .w [(0x1000_0000_0000, drainBytes 3)] = none ∧ holdOwn 0 (fun _ => [((0x41 : Nat), drainBytes 3)]) (array0 [] false) = none) ∧
    (let l : List ArrOp := (List.range 4).map (fun i => ⟨i, 0, 0, .zero 0, 0, [], .unseen⟩)
     Clear (array0 l false) 0 0 [.a 1, .a 3, .s 2, .s 5] ∧ (coreAt (array0 l false) 0).array.length = 4 ∧ (coreAt (array0 l false) 0).array.any (·.runner == 0) = true) :=
  ⟨⟨clear_of (canIssue_of (by decide +kernel)) (by decide +kernel), by decide +kernel⟩, by decide +kernel, by decide +kernel, by decide +kernel, by decide +kernel,
    by decide +kernel, clear_of (canIssue_of (by decide +kernel)) (by decide +kernel), by decide +kernel⟩

theorem witness_KStepsAndDrains :
    (∀ ty ∈ [0, 3, 8], let o : ArrOp := ⟨3, 0, 1, .mmac 0x1100_0000_0000 0x1100_0000_0000 3 ty ty 0 false, 1, [], .unseen⟩
      let s := array0 [o] (ty == 8)
      pairOk ty ty = true ∧ (coreAt s 0).array = [o] ∧ o.done + 1 < 3 ∧ 0 < o.done ∧ s.accesses = [] ∧ (coreAt s 0).mover = [] ∧ s.memp.faults = [] ∧ inReset s 0 = false ∧
      (∀ d < 16, flag s (.memDieInjectCtl d) F.memDieInjectCtl_arm = false) ∧ (tileCtl s 0 0).integer = (ty == 8) ∧ (tileCtl s 0 0).pending + 1 ≠ interval s 0) ∧
    (let o : ArrOp := ⟨3, 0, 1, .mmac 0x1100_0000_0000 0x1100_0000_0000 3 3 3 0 false, 1, [], .unseen⟩
     let s : State := { run0 with cores := [(0, { Core.cold with tiles := [(0, ⟨false, interval run0 0 - 1, [], [], 0x3F800000, 0x3F800000⟩)], array := [o] })] }
     (tileCtl s 0 0).pending + 1 = interval s 0) ∧
    (let o : ArrOp := ⟨3, 0, 1, .drain 0x1000_0000_0000 none 3 0 0 [] none, 0, [], .unseen⟩
     let s := array0 [o] false
     drainType 3 = true ∧ (coreAt s 0).array = [o] ∧ (tileCtl s 0 0).pending = 0 ∧ s.lap.state = 0 ∧ targetReset s 0 0x1000_0000_0000 = false ∧
      copiesAt s 0x1000_0000_0000 (drainBytes 3) = [] ∧ drainPlace s 0x1000_0000_0000 (drainBytes 3) = true) ∧
    (∀ open' : Bool, ∀ halted : Bool,
      let s : State := { State.reset with
        regs := [(.cmpCoreOdrainAddr 0, 0x1100_0001_0000), (.secDebugStatus, if open' then BitVec.allOnes 64 else 0)]
        runners := if halted then [] else [(0, { Runner.free with state := .ready })] }
      (∀ i < 16, flag s (.errWatchCfg i) F.errWatchCfg_enable = false) ∧ F.cmpCoreOdrainCtl_go.of 1 = 1 ∧ inReset s 0 = false ∧ debugOpen s 1 = open' ∧
      getF s (.cmpCoreOdrainCtl 0) F.cmpCoreOdrainCtl_status ≠ 1 ∧ coreHalted s 0 = halted ∧
      (drainType (F.cmpCoreOdrainCtl_type.of 1) = true ∧ F.cmpCoreOdrainCtl_rounding.of 1 < 2 ∧ (regVal s (.cmpCoreOdrainAddr 0)).toNat % 128 = 0 ∧
        drainPlace s 0x1100_0001_0000 (drainBytes 0) = true ∧ (tileCtl s 0 0).integer = false)) := by
  refine ⟨?_, ?_, ?_, ?_⟩ <;> decide +kernel

theorem witness_FpTwentyAdd : ((fp20Val 0x7FC00).isNan = true ∧ fp20Val 0x7F800 = .inf false ∧ fp20Val 0xFF800 = .inf true ∧ (fp20Val 0).isFin = true) ∧
    (let v := fp20Val 0x3F800
     let x : Val := .fin false 1 0
     v.isFin = true ∧ x.isFin = true ∧ (v.add x).lt (fp20Val 0x40000) = false ∧ (fp20Val 0x40000).lt (v.add x) = false ∧ (v.add (.fin true 1 0)).isZero = true) := by
  decide +kernel

theorem vready_of {s : State} {w g op : Nat} {o : VR} (c : Clear s w g [.v o.vd, .v o.va, .v o.vb])
    (h : (vLegal op o && s.memp.faults.isEmpty && (List.range 16).all (fun d => !flag s (.memDieInjectCtl d) F.memDieInjectCtl_arm) && !(coreAt s (coreOf w)).loading) = true) :
    VReady s w g op o := by
  simp only [Bool.and_eq_true, Bool.not_eq_true', List.isEmpty_iff, List.all_eq_true, List.mem_range] at h
  exact ⟨c, h.1.1.1, h.1.1.2, h.1.2, h.2⟩

theorem run0_vready (op : Nat) (o : VR) (h : (!busy run0 0 (.v o.vd) && !busy run0 0 (.v o.va) && !busy run0 0 (.v o.vb) && vLegal op o) = true) : VReady run0 0 0 op o := by
  simp only [Bool.and_eq_true, Bool.not_eq_true'] at h
  refine vready_of (run0_clear _ (by simp [h])) ?_
  have e : (run0.memp.faults.isEmpty && (List.range 16).all (fun d => !flag run0 (.memDieInjectCtl d) F.memDieInjectCtl_arm) && !(coreAt run0 (coreOf 0)).loading) = true := by decide +kernel
  simp only [Bool.and_eq_true] at e ⊢
  exact ⟨⟨⟨h.2, e.1.1⟩, e.1.2⟩, e.2⟩

/-- Every vector operation has a legal form. -/
theorem witness_Vector :
    (∀ op ∈ [0x01, 0x02, 0x03, 0x04, 0x05, 0x06, 0x07, 0x08, 0x09, 0x0A, 0x0B, 0x0C, 0x30, 0x31, 0x32, 0x33, 0x34, 0x35, 0x36, 0x37, 0x38, 0x20, 0x21, 0x22, 0x23, 0x50, 0x51, 0x52,
        0x70, 0x90, 0x91, 0x92, 0x93, 0xA0, 0xA1, 0xA2, 0xA3], VReady run0 0 0 op ⟨2, 1, 3, 1, false, 0, 0, none⟩) ∧
    (∀ op ∈ [0x10, 0x11, 0x12, 0x13, 0x14, 0x15], VReady run0 0 0 op ⟨2, 1, 3, 1, false, 9, 0, none⟩) ∧
    (VReady run0 0 0 0x01 ⟨2, 1, 3, 1, true, 8, 0, some 5⟩ ∧ VReady run0 0 0 0x24 ⟨2, 1, 3, 1, true, 0, 0, none⟩ ∧ VReady run0 0 0 0x25 ⟨2, 1, 3, 1, false, 0, 5, none⟩) ∧
    (VReady run0 0 0 0x40 ⟨2, 1, 9, 1, false, 0, 0, none⟩ ∧ VReady run0 0 0 0x40 ⟨2, 1, 0, 1, false, 3, 24, none⟩ ∧ VReady run0 0 0 0x60 ⟨2, 1, 3, 1, false, 5, 0, none⟩) ∧
    (VReady run0 0 0 0x61 ⟨2, 1, 3, 1, false, 6, 0, none⟩ ∧ VReady run0 0 0 0x62 ⟨2, 1, 3, 1, false, 3, 4, none⟩ ∧ VReady run0 0 0 0x63 ⟨2, 1, 3, 1, true, 7, 28, none⟩ ∧
      VReady run0 0 0 0x80 ⟨2, 1, 2, 1, true, 9, 4, none⟩) ∧
    (VReady run0 0 0 0x40 ⟨2, 1, 0, 1, false, 3, 26, none⟩ ∧ VReady run0 0 0 0x62 ⟨2, 1, 3, 1, false, 3, 6, none⟩ ∧ VReady run0 0 0 0x62 ⟨2, 1, 2, 1, false, 3, 4, none⟩) ∧
    (Clear run0 0 0 [.v 4, .s 1] ∧ dieAnswers run0 0 ∧ flag run0 (.cmpVecGenCtl 0) F.cmpVecGenCtl_busy = false) :=
  ⟨fun op h => run0_vready _ _ (by revert op; decide +kernel), fun op h => run0_vready _ _ (by revert op; decide +kernel),
    ⟨run0_vready _ _ (by decide +kernel), run0_vready _ _ (by decide +kernel), run0_vready _ _ (by decide +kernel)⟩,
    ⟨run0_vready _ _ (by decide +kernel), run0_vready _ _ (by decide +kernel), run0_vready _ _ (by decide +kernel)⟩,
    ⟨run0_vready _ _ (by decide +kernel), run0_vready _ _ (by decide +kernel), run0_vready _ _ (by decide +kernel), run0_vready _ _ (by decide +kernel)⟩,
    ⟨run0_vready _ _ (by decide +kernel), run0_vready _ _ (by decide +kernel), run0_vready _ _ (by decide +kernel)⟩,
    run0_clear _ (by decide +kernel), dieAnswers_of (by decide +kernel), by decide +kernel⟩

/-! ### The census and the lap block -/

/-- A region's registers. -/
def region (r kind pages more b0 b1 : Nat) : List (Reg × Word) :=
  [(.lapRegionCfg r, BitVec.ofNat 64 (pages + kind * 2 ^ 28 + 2 ^ 36 + more)), (.lapRegionBase r 0, BitVec.ofNat 64 b0), (.lapRegionBase r 1, BitVec.ofNat 64 b1)]

/-- `up` with everything that R210 asks for a lap: a scale state, snapshots, a record, a clip area and tables, and a carried region. -/
def laps : State :=
  { up with
    regs := region 4 5 33 0 0x800_0000 0x900_0000 ++ region 6 0 2 (2 ^ 35) 0x2_0000 0x3_0000 ++ region 8 4 64 0 0x400_0000 0x404_0000 ++
      [(.cmpVecSnap 0, 0x4000001), (.lapScaleTableBase, 0xA0_0000), (.lapRecordBase, 0xB0_0000), (.lapClipBase, 0xC0_0000), (.lapNext, 10), (.hifLinkStatus, 8)]
    census := { up.census with slots := [(2, ⟨1, true, true, -3, 77⟩), (4094, ⟨0, false, true, 0, 9⟩)], bankLap := [(0, 10), (1, 11)] }
    host := { up.host with descs := [⟨900, 0, 1, 5, false, 0x40⟩, ⟨901, 0, 2, 6, false, 0x41⟩] }
    nextId := 1000
    lap := { up.lap with newest := 9, wipes := 3, history := [(8, 1)] } }

/-- `laps` in a state of the lap block, with an older lap and its votes. -/
def lapsIn (state : Nat) (o : Option OpenLap) (v : List VoteReq) : State := { laps with lap := { laps.lap with state := state, older := o, votes := v } }

theorem witness_CensusSlots :
    (unwatched up ∧ getF up .lapCensusInstallCtl F.lapCensusInstallCtl_status ≠ 1 ∧
      (let s := { up with mem := Mem.write [] 0 [0x0B, 0xFD, 0, 0, 7], regs := [(.lapCensusInstallAddr, 0)] }
       let r := Mem.read s.mem 0 16
       s.memp.faults = [] ∧ mapped s 0 16 = true ∧ memoryRefuses s 16 [(0, 16)] [] = none ∧ field r 0 1 < 64 ∧ field r 2 2 = 0 ∧ field r 8 8 = 0 ∧ sint 8 (field r 1 1) = -3)) ∧
    (let l : List (Nat × Option SlotDef) := [(2, none), (3, some ⟨4, false, true, 2, 3⟩)]
     let s := { laps with census := { laps.census with install := some l } }
     (l.map (·.1)).Nodup ∧ (∀ p ∈ l, p.1 < 4096) ∧ countPending s (l.map (·.1)) = false ∧
      countPending { s with accesses := [⟨1, 0, 0, .store [], [], [], .unseen, some ⟨3, 9, 0⟩, true⟩] } (l.map (·.1)) = true) ∧
    (Starts up hd 0x70 ∧ unwatched up ∧ bankHolds laps 10 = true ∧ bankHolds laps 12 = false ∧ Starts laps hd 0x70 ∧ Reaches laps 0 [] [(0x40, 640 * 2)] ∧
      copiesAt laps 0x40 (640 * 2) = []) :=
  ⟨⟨up_unwatched, by decide +kernel⟩, by decide +kernel, up_starts _ (by decide), up_unwatched, by decide +kernel, by decide +kernel, starts_of (by decide +kernel),
    reaches_of (by decide +kernel), by decide +kernel⟩

theorem laps_unwatched (n : Nat) (o : Option OpenLap) (v : List VoteReq) : unwatched (lapsIn n o v) := by
  have h : unwatched laps := unwatched_of (by decide +kernel)
  exact fun i hi => h i hi

theorem witness_LapRegisters : unwatched laps ∧ (laps.lap.state = 0 ∧ (lapsIn 1 none []).lap.state ≠ 0) ∧
    (tableBase laps = 0xA0_0000 ∧ tableBase up = 0 ∧ scaleDry laps = some 0x800_0000) ∧
    (let val : BitVec 64 := regVal laps (.lapRegionCfg 6)
     let n := F.lapRegionCfg_pages.of val * 4096
     F.lapRegionCfg_kind.of val = 0 ∧ n = 0x2000 ∧ F.lapRegionCfg_valid.of val = 1 ∧ (∀ c < 2, (memoryOf laps (regionBase laps 6 c) n).any (fun m => decide (m < 16)) = true) ∧
      ((List.range 64).all (fun q => q == 6 || !regionValid laps q || [0, 1].all (fun c => [0, 1].all (fun c' => !overlap (regionBase laps 6 c) n (regionBase laps q c') (regionLen laps q))))) = true ∧
      regionValid laps 6 = true ∧ regionValid laps 7 = false) ∧
    (let val : BitVec 64 := regVal laps (.lapRegionCfg 8)
     F.lapRegionCfg_kind.of val = 4 ∧ regionBase laps 8 1 = regionBase laps 8 0 + 0x4_0000 ∧ (ownerOf laps (regionBase laps 8 0)).any (fun d => snapBase laps d == regionBase laps 8 0) = true) ∧
    ((memoryOf laps 0x40 64).isSome = true ∧ memoryOf laps 0x8000_0000_0000 0x1_0000 = none ∧ memoryOf laps 0x8_0000 0x8_0000 = some 0 ∧ lapInFlight laps = false ∧
      lapInFlight (lapsIn 1 (some ⟨9, 0, none, 0, 0, false, 0, none⟩) []) = true) ∧
    (let s (b : Boundary) (ready : Nat) := { laps with
       cores := [(0, { Core.cold with boundary := [b] })], regs := (.cmpVecGenCtl 0, BitVec.ofNat 64 ready) :: laps.regs, lap := { laps.lap with older := some ⟨9, 0, none, 0, 0, false, 0, none⟩ } }
     flag (s (.snapshot 9) 0) (.cmpVecSnap 0) F.cmpVecSnap_enable = true ∧ (coreAt (s (.snapshot 9) 0) 0).boundary = [.snapshot 9] ∧
      flag (s (.restore 9) 15) (snapValid 0 9).1 (snapValid 0 9).2 = true ∧ flag (s (.restore 9) 0) (snapValid 0 9).1 (snapValid 0 9).2 = false ∧
      inReset (s (.restore 9) 0) 0 = false) ∧
    (let s := { laps with cores := (List.range 64).map (fun k => (k, { Core.cold with snaps := [(1, 9)] })) }
     (∀ j < 64, (coreAt s j).snaps.get? (9 % 2) = some 9) ∧ (coreAt laps 0).snaps.get? 0 = none ∧ (coreAt laps 0).snaps.get? 1 = none) := by
  refine ⟨unwatched_of ?_, ?_, ?_, ?_, ?_, ?_, ?_, ?_⟩ <;> decide +kernel

theorem witness_LapsOpenAndVote :
    (Starts laps hd 0x40 ∧ unwatched laps ∧ getF laps .lapNext F.lapNext_next = 10 ∧ ((∃ r < 64, regionValid laps r = true ∧ regionKind laps r = 5) ∧
      getF laps .lapRecordBase F.lapRecordBase_base ≠ 0 ∧ getF laps .lapClipBase F.lapClipBase_base ≠ 0 ∧ tableBase laps ≠ 0 ∧
      ∀ d < 16, flag laps (.cmpVecSnap d) F.cmpVecSnap_enable = true → ∃ r < 64, regionValid laps r = true ∧ regionKind laps r = 4 ∧ ownerOf laps (regionBase laps r 0) = some d)) ∧
    (let s (w : Nat) : State := { laps with lap := { laps.lap with opens := [⟨900, 10, w, 0, false⟩] } }
     (s 3).lap.spec = none ∧ (s 3).relays.installs = [] ∧ (s 3).lap.wipes = 3 ∧ (s 2).lap.wipes ≠ 2 ∧ (descOf (s 3) 900).isSome = true ∧
      rdN laps (tableOf laps 10 + 0x4000) 4 ≠ 10) ∧
    (∀ cast ∈ [none, some false], (lapsIn 0 (some ⟨9, 0, cast, 0, 0, false, 0, none⟩) []).lap.state = 0 ∧ sendsState (lapsIn 0 (some ⟨9, 0, cast, 0, 0, false, 0, none⟩) []) 7 = false) ∧
    (Starts laps hd 0x41 ∧ isOpen (lapsIn 1 (some ⟨9, 0, none, 0, 0, false, 0, none⟩) []) 9 = true ∧ Starts (lapsIn 1 (some ⟨9, 0, none, 0, 0, false, 0, none⟩) []) hd 0x41 ∧ isOpen laps 8 = false ∧ laps.lap.history.get? 8 = some 1 ∧
      laps.lap.history.get? 7 = none) ∧
    (∀ vote : Bool, let s := lapsIn 1 (some ⟨9, 0, none, 0, 0, false, 0, none⟩) [⟨901, 9, vote, false⟩]
     s.lap.votes.find? (fun v => v.lap == 9 && !v.abort) = some ⟨901, 9, vote, false⟩ ∧ reportsPending s 9 = false ∧ relaysPending s 9 = false ∧ CanCommit s ∧ s.lap.spec = none) ∧
    (Starts laps hd 0x42 ∧ Starts (lapsIn 1 (some ⟨9, 0, none, 0, 0, false, 0, none⟩) []) hd 0x42 ∧ Starts (lapsIn 2 (some ⟨9, 0, some true, 0, 0, false, 0, none⟩) []) hd 0x42 ∧
      (openLaps (lapsIn 2 (some ⟨9, 0, some true, 0, 0, false, 0, none⟩) [])).find? (·.lap == 9) = some ⟨9, 0, some true, 0, 0, false, 0, none⟩) := by
  have cc : ∀ vote : Bool, CanCommit (lapsIn 1 (some ⟨9, 0, none, 0, 0, false, 0, none⟩) [⟨901, 9, vote, false⟩]) := by unfold CanCommit; decide +kernel
  refine ⟨⟨starts_of ?_, laps_unwatched 0 none [], ?_⟩, ?_, ?_, ⟨starts_of ?_, ?_, starts_of ?_, ?_⟩, fun vote => ⟨?_, ?_, ?_, cc vote, ?_⟩, starts_of ?_, starts_of ?_, starts_of ?_, ?_⟩ <;>
    (try revert vote) <;> decide +kernel

/-- Lap 9's commit relay, started with a vote and complete. -/
def settling (vote : Bool) : State :=
  let s := lapsIn 2 (some ⟨9, if vote then 0 else 1, some vote, 0, 0, false, 0, none⟩) [⟨901, 9, true, false⟩]
  startCommit 9 0 (exchangeOf 9 vote s) s

theorem witness_LapsSettle : ∀ vote : Bool, unwatched (settling vote) ∧ (settling vote).lap.spec = none ∧ (settling vote).lap.pendTable = none ∧ (∀ p ∈ (settling vote).census.slots, p.1 < 4096) ∧
    (settling vote).lap.older = some ⟨9, if vote then 0 else 1, some vote, 0, 0, false, 0, none⟩ ∧
    ∃ r, runAt (settling vote) 0 63 = some r ∧ r.post.ext.commits = true ∧ r.own.isSome = true ∧ r.error = 0 ∧ allLanded (settling vote) r = true ∧ r.post.ext.lap = 9 ∧
      r.outs.all (fun p => r.sent.contains p.1 && r.done.contains p.2.peer) = true ∧ (exchangeOfWords (settling vote) r.result).vote = vote := by
  intro vote
  have e : (match runAt (settling vote) 0 63 with
    | some r => r.post.ext.commits && r.own.isSome && r.error == 0 && allLanded (settling vote) r && r.post.ext.lap == 9 &&
        r.outs.all (fun p => r.sent.contains p.1 && r.done.contains p.2.peer) && (exchangeOfWords (settling vote) r.result).vote == vote
    | none => false) = true := by revert vote; decide +kernel
  refine ⟨unwatched_of (by revert vote; decide +kernel), by revert vote; decide +kernel, by revert vote; decide +kernel, by revert vote; decide +kernel, by revert vote; decide +kernel, ?_⟩
  split at e
  · rename_i r h
    simp only [Bool.and_eq_true, beq_iff_eq] at e
    exact ⟨r, h, e.1.1.1.1.1.1, e.1.1.1.1.1.2, e.1.1.1.1.2, e.1.1.1.2, e.1.1.2, e.1.2, e.2⟩
  · cases e

/-! ### Relays -/

/-- A relay extension's 64 bytes (Table 8.2): kind, operation, tag, layout id and length; lapless, one part a participant, a group list of two at 0x800. -/
def extBytes (kind op tag layout len : Nat) : List Byte :=
  bytesLE 1 kind ++ bytesLE 1 op ++ [1] ++ bytesLE 1 8 ++ bytesLE 4 0 ++ bytesLE 4 tag ++ bytesLE 2 layout ++ [3, 4] ++ bytesLE 8 0x100 ++ bytesLE 8 0x1000_0000_1000 ++
    bytesLE 8 0x1000_0000_2000 ++ bytesLE 8 0x800 ++ bytesLE 4 len ++ bytesLE 2 2 ++ bytesLE 10 0

/-- An edge die's section: three channels, the first to coordinate 0x35, which it reaches. -/
def sectionX : Section := ⟨(List.range 3).map (fun c => ⟨true, 0x34 + c, if c = 2 then 7 else 0, 1, 0xFFFF, [8, 8, 8, 0], 4⟩), [[⟨0, 4, 4, 0, 0⟩]], [⟨true, true, 0, 0, 0⟩, ⟨true, false, 0, 2, 5⟩], [⟨0x35, 0, 7⟩]⟩

/-- A lane plan of the job with two members. -/
def planX : LanePlan := ⟨5, 99, [0x34, 0x35], [sectionX, sectionX, sectionX, sectionX]⟩

/-- Module 0x34 with a plan, an extension at 0x40 and its group list at 0x800. -/
def relay0 (e : List Byte) : State :=
  { up with
    regs := [(.hifLinkStatus, 8), (.opxConfig, 0x1_0034)]
    fabric := { up.fabric with plan := some planX }
    nextId := 1000
    progs := [(0, ⟨[0], List.replicate 8 0⟩)]
    runners := [(0, { Runner.free with state := .ready, a := [(1, 0x40)], batons := [⟨1, 5, none⟩] })]
    windows := up.windows ++ [(2, ⟨0, 0x10_0000, 7, 0, 0, none, false, []⟩), (3, ⟨0x1000_0000_0000, 0x10_0000, 7, 0, 0, none, false, []⟩)]
    mem := Mem.write (Mem.write [] 0x40 e) 0x800 (bytesLE 2 0x34 ++ [0, 0] ++ bytesLE 4 0 ++ bytesLE 2 0x35 ++ [0, 0] ++ bytesLE 4 30) }

/-- `relay0` with two descriptors in flight. -/
def relay1 (e : List Byte) : State := { relay0 e with host := { up.host with descs := [⟨900, 0, 1, 5, false, 0x30⟩, ⟨901, 0, 2, 6, false, 0x31⟩] } }

/-- A post of queue 0 waiting on edge die 2. -/
def postX (e : List Byte) : Post := ⟨77, readExt e, .queue 900, 0, 0, false⟩

/-- `relay0` with it, and with `run` in the first slot. -/
def posted0 (e : List Byte) (run : List (Nat × RelayRun)) : State := { relay1 e with relays := ⟨[(2, ⟨run, [postX e], []⟩)], []⟩ }

/-- The relay of an extension, started, with both participants ready. -/
def runX (e : List Byte) : RelayRun :=
  let g := readGroup (Mem.read (relay0 e).mem 0x800 16) 2
  { post := postX e, group := g, me := 0, s := scaleOf (relay0 e) (readExt e), crc := crc32c (Mem.read (relay0 e).mem 0x800 16), own := some (List.replicate 120 1), kept := [], sent := [], got := [],
    ready := [0, 1], done := [], doneSent := [], part := [], flow := [], arrived := [], selfDone := false, saturated := false, error := 0, landed := [], started := 1000, timeout := 5000, timedOut := false }

/-- `relay0` running it in slot 3 of edge die 2. -/
def running0 (e : List Byte) (f : RelayRun → RelayRun) : State := { relay1 e with relays := ⟨[(2, ⟨[(3, f (runX e))], [], []⟩)], []⟩, clock := { up.clock with ns := 8000 } }

/-- A tally sum over 60 words, an all-gather, a mirror that restores, and one whose kind is reserved. -/
def sumE : List Byte := extBytes 2 0 0x11 0 60
def mirrorE (op : Nat) : List Byte := extBytes 6 op 0x11 0 90
def badE : List Byte := extBytes 9 0 0x11 0 60

theorem witness_RelaysPosted :
    (Clear (relay0 sumE) 0 0 [.s 5] ∧ waitingPosts (relay0 sumE) 2 < 1024 ∧ holdOwn 0 (fun _ => [((0x40 : Nat), 64)]) (relay0 sumE) = none ∧ permits (relay0 sumE) none .r 0x40 64 = true ∧
      memoryRefuses (relay0 sumE) 0 [(0x40, 64)] [] = none ∧ postPermitted (relay0 sumE) none (readExt sumE) = true) ∧
    (Starts (relay0 sumE) hd 0x30 ∧ Starts (relay0 (mirrorE 0)) hd 0x50 ∧ Starts (relay0 (mirrorE 3)) hd 0x51 ∧ unwatched (relay0 sumE) ∧ permits (relay0 sumE) (some 0) .r 0x40 64 = true ∧
      permits (relay0 sumE) (some 0) .r 0x5000_0000 64 = false ∧ memoryRefuses (relay0 sumE) 16 [(0x40, 64)] [] = none ∧ postPermitted (relay0 sumE) (some 0) (readExt sumE) = true ∧
      postPermitted { relay0 sumE with windows := [(1, ⟨0, 0x100, 7, 3, 0, none, false, []⟩)] } (some 0) (readExt sumE) = false ∧
      ((readExt (mirrorE 0)).kind = 6 ∧ (readExt (mirrorE 0)).op < 3 ∧ (readExt (mirrorE 3)).op = 3 ∧ (readExt sumE).kind < 6) ∧
      1024 ≤ waitingPosts { relay0 sumE with relays := ⟨[(1, ⟨[], List.replicate 1024 (postX sumE), []⟩)], []⟩ } 1) ∧
    (let s := posted0 sumE []
     inReset s 18 = false ∧ (engineAt s 2).posts = [postX sumE] ∧ runAt s 2 0 = none ∧ descOf s 900 = some ⟨900, 0, 1, 5, false, 0x30⟩ ∧ memoryRefuses s 18 [(0x800, 16)] [] = none ∧
      extBad s (readExt sumE) (readGroup (Mem.read s.mem 0x800 16) 2) false = false ∧
      extBad s (readExt badE) (readGroup (Mem.read s.mem 0x800 16) 2) false = true ∧ (readExt sumE).layout = 0 ∧ (readExt (extBytes 2 0 0x11 1 60)).layout ≠ 0 ∧ (readExt sumE).init = false ∧
      (∀ m ∈ readGroup (Mem.read s.mem 0x800 16) 2, m.coord ≠ coordOf s → (reachOf s 2 m.coord).isSome = true) ∧
      (allRuns (posted0 sumE [(0, runX sumE)])).any (fun q => q.2.2.post.ext.tag == 0x11 && q.2.2.post.ext.lap == 0) = true) ∧
    (Starts (relay0 sumE) hd 0x31 ∧ layoutNow (relay0 sumE) = 0) ∧
    (let s (p : List Post) := { relay1 sumE with relays := ⟨[(2, ⟨[], p, []⟩)], [(901, 4)]⟩ }
     let bound (s : State) := (openLaps s).any (·.layout == layoutNow s) || (allRuns s).any (·.2.2.post.bound == layoutNow s) || (List.range 4).any (fun e => (engineAt s e).posts.any (·.bound == layoutNow s))
     bound (s []) = false ∧ bound (s [postX sumE]) = true ∧ (descOf (s []) 901).isSome = true) :=
  ⟨⟨clear_of (canIssue_of (by decide +kernel)) (by decide +kernel), by decide +kernel⟩,
    ⟨starts_of (by decide +kernel), starts_of (by decide +kernel), starts_of (by decide +kernel), unwatched_of (by decide +kernel), by decide +kernel⟩, by decide +kernel,
    ⟨starts_of (by decide +kernel), by decide +kernel⟩, by decide +kernel⟩

/-- A contribution of participant 1 to the tally sum. -/
def pktX (scale : Int) : RelayPkt := ⟨0x11, 0, 0, 2, 0, scale, 1, 0, (runX sumE).crc, 0, 0, [], [], List.replicate 60 3⟩

theorem witness_RelaysRun :
    (∃ i x, nextOut (running0 sumE id) (runX sumE) 1 = some (i, x)) ∧ (runX sumE).own.isSome = true ∧ (reachOf (running0 sumE id) 2 ((runX sumE).coordAt 1)).isSome = true ∧
    (let r := { runX sumE with arrived := [pktX (runX sumE).s] }
     let s := running0 sumE (fun _ => r)
     runAt s 2 3 = some r ∧ r.post.ext.topo = 0 ∧ r.post.ext.lapless = true ∧ r.post.ext.thin = false ∧ r.post.ext.words = 60 ∧
      (r.xfers.filter (fun q => q.2.peer == 1 && !q.2.out)).map (fun q => (q.2.out, q.2.peer)) = [(false, 1)] ∧
      (let zone := [(r.post.ext.dst, 240), (r.post.ext.resid, 2)]
       r.post.ext.dst = 0x1000_0000_1000 ∧ memoryRefuses s 18 zone zone = none ∧ ∀ q ∈ zone, copiesAt s q.1 q.2 = []) ∧ r.post.ext.sums = true ∧
      (pktX (runX sumE).s).scale = r.s ∧ (pktX 9).scale ≠ r.s ∧ (pktX 9).crc = r.crc) ∧
    (let r := { runX sumE with got := [(0, 999), (1, 999), (2, 999), (3, 999)], sent := [0, 1, 2, 3], done := [1], selfDone := true }
     let s := running0 sumE (fun _ => r)
     runAt s 2 3 = some r ∧ r.post.ext.inEngine = false ∧ allLanded s r = true ∧ (∀ p ∈ r.outs, r.sent.contains p.1 = true ∧ r.done.contains p.2.peer = true) ∧
      allLanded (running0 sumE id) (runX sumE) = false ∧ allLanded s { r with error := 0x0508, sent := [] } = true) ∧
    (unwatched (running0 sumE id) ∧ (runX sumE).timeout ≠ 0 ∧ (runX sumE).started + (runX sumE).timeout ≤ nowNs (running0 sumE id) ∧ (runX sumE).post.ext.tag < 2 ^ 32) ∧
    (let s : State := { running0 sumE id with regs := (.colCancelTag 2, 0x11) :: (relay0 sumE).regs }
     ((engineAt s 2).slots.find? (fun q => q.2.post.ext.tag == getF s (.colCancelTag 2) F.colCancelTag_tag && q.2.post.ext.lap == getF s (.colCancelTag 2) F.colCancelTag_lap)) =
        some (3, runX sumE) ∧ runAt s 2 3 = some (runX sumE) ∧ (runX sumE).post.ext.commits = false ∧
      getF (running0 sumE id) (.colCancelTag 2) F.colCancelTag_tag ≠ 0x11) := by
  refine ⟨?_, ?_, ?_, ?_, ?_, ⟨unwatched_of ?_, ?_, ?_, ?_⟩, ?_⟩
  · have e : (nextOut (running0 sumE id) (runX sumE) 1).isSome = true := by decide +kernel
    obtain ⟨p, h⟩ := Option.isSome_iff_exists.mp e
    exact ⟨p.1, p.2, h⟩
  all_goals decide +kernel

/-! ### The heat scheduler and memory protection -/

/-- A queue header (R277): head, tail, slot bytes, slots; segments from 4,096 on; near, or the send half of a far queue. -/
def queueHdr (head tail far : Nat) : List Byte :=
  bytesLE 8 head ++ bytesLE 8 tail ++ bytesLE 4 4096 ++ bytesLE 4 4 ++ bytesLE 8 4096 ++ bytesLE 2 far ++ bytesLE 6 0x35 ++ bytesLE 8 0x1000_0040_0000

/-- Stage 1 of die 0 with a forward input queue at 0x1000_0000_8000. -/
def heat0 (head far : Nat) (waits : Bool) (h : Heat → Heat) : State :=
  { run0 with
    regs := [(.cmpStageCfg 0 1, BitVec.ofNat 64 (0x1 + 7 * 2 ^ 16 + 2 * 2 ^ 24 + 2 ^ 32)), (.cmpStageQueue 0 1 (if far = 1 then 1 else 0), 0x1000_0000_8000), (.opxConfig, 0x1_0034)]
    nextId := 1000
    fabric := { run0.fabric with plan := some planX }
    mem := Mem.write (Mem.write [] 0x1000_0000_8000 (queueHdr head 0 far)) 0x1000_0000_9000 (bytesLE 2 5 ++ bytesLE 2 6 ++ bytesLE 4 0 ++ bytesLE 4 64)
    runners := [(1, { Runner.free with state := .ready }), (2, { Runner.free with state := if waits then .waiting else .ready, wait := if waits then some .heatNext else none })]
    heat := h { run0.heat with waiters := [2, 1] } }

/-- An entry of the pair (1, forward). -/
def entryX : HeatEntry := ⟨1, false, 5, 6, some 0, 1, [], [], some 2, false, 30⟩

theorem witness_HeatScheduler :
    (let s := heat0 1 0 true (fun h => { h with entries := [(0, entryX)] })
     inReset s 0 = false ∧ (∀ p ∈ s.heat.entries, outQueue s 0 p.2.stage p.2.back = 0 ∨ badHeader s (outQueue s 0 p.2.stage p.2.back) = false) ∧ longestWaiter s 0 = some 2 ∧
      entryReady s 0 entryX = true ∧ (runnerAt s 2).state = .waiting ∧ (runnerAt s 2).wait = some .heatNext) ∧
    (let s := heat0 1 0 false id
     let b := inQueue s 0 1 false
     postingDie s 1 = some 0 ∧ inReset s 0 = false ∧ autoPosts s 0 1 false = true ∧ b = 0x1000_0000_8000 ∧ s.heat.bad.contains b = false ∧ badHeader s b = false ∧ rdN s b 8 = 1 ∧ rdN s (b + 0x10) 4 = 4096 ∧ rdN s 0x1000_0000_9008 4 = 64 ∧
      (poolFor s 0 2).isSome = true ∧ (freeEntry s).isSome = true ∧ badHeader { s with mem := [] } b = true) ∧
    unwatched (heat0 1 0 false id) ∧
    (let s := heat0 1 0 false id
     let val : BitVec 64 := regVal s (.cmpStageCfg 0 1)
     s.heat.entries = [] ∧ s.heat.posts = [] ∧ F.cmpStageCfg_valid.of val = 1 ∧ F.cmpStageCfg_dies.of val ≠ 0 ∧ F.cmpStageCfg_f_auto.of val = 1 ∧ F.cmpStageCfg_f_reserve.of val = 2 ∧
      F.cmpStageCfg_b_auto.of val = 1 ∧ F.cmpStageCfg_b_reserve.of val = 1) ∧
    (let s := heat0 1 1 false id
     let b := 0x1000_0000_8000
     badHeader s b = false ∧ farHalf s b 1 = true ∧ farHalf (heat0 1 0 false id) b 1 = false ∧ s.heat.carrying.contains b = false ∧ max (s.heat.carried.get b 0) (rdN s (b + 8) 8) < rdN s b 8 ∧
      (reachOf s (rdN s (b + 0x20) 1 / 2 % 4) (rdN s (b + 0x22) 2)).isSome = true) := by
  refine ⟨?_, ?_, unwatched_of ?_, ?_, ?_⟩ <;> decide +kernel

/-- The scrub is on, a unit is listed, and a pin has failed once. -/
def scrub0 : State :=
  { run0 with regs := [(.memScrubCfg, 0x0A18)], memp := { run0.memp with badPins := [5 * 24 + 3], poison := [(0, [0x1000])] } }

theorem witness_MemoryProtection : unwatched scrub0 ∧ (inReset scrub0 0 = false ∧ getF scrub0 .pwrState F.pwrState_state < 2) ∧
    (scrub0.memp.badPins.contains ((0 * 32 + 5) * 24 + 3) = true ∧ scrub0.memp.badPins.contains ((0 * 32 + 6) * 24 + 3) = false) ∧
    (scrub0.memp.faults = [] ∧ scrub0.memp.dead = [] ∧ scrub0.newMaps = [] ∧ unitOf scrub0 0x2020 = some (0x2020, 32) ∧ dieOfUnit scrub0 0x2020 = 0 ∧ unitOf scrub0 0x1000 = some (0x1000, 32) ∧
      dieOfUnit scrub0 0x1000 = 0 ∧ unitOf scrub0 0x1100_0000_0004 = some (0x1100_0000_0004, 4)) ∧
    (getF scrub0 .memScrubCfg F.memScrubCfg_dram_hours ≠ 0 ∧ getF scrub0 .memScrubCfg F.memScrubCfg_sram_minutes ≠ 0 ∧ getF { run0 with regs := [(.memScrubCfg, 0)] } .memScrubCfg F.memScrubCfg_dram_hours = 0) ∧
    ((scrub0.memp.poison.get 0 []).contains 0x1000 = true ∧ (scrub0.memp.poison.get 0 []).contains 0x2020 = false ∧ (scrub0.memp.poison.get 0 []).length < 256) ∧
    (hiddenOf 0x2020 = none ∧ hiddenOf 0x1000 = none ∧ hiddenOf 0x1100_0000_0004 = none ∧ decodeUnit scrub0 32 1 = .taken 1 0 ∧ decodeUnit scrub0 4 3 = .uncorrectable ∧
      decodeUnit { scrub0 with regs := [(.memEccCtl, 1)] } 32 0x101 = .uncorrectable ∧ 0x101 < 2 ^ codeBits 32) := by
  refine ⟨unwatched_of ?_, ?_, ?_, ?_, ?_, ?_, ?_⟩ <;> decide +kernel

/-- R292 and Table 10.3: two symbols in error are corrected in mode 0 and uncorrectable in mode 1, one is uncorrectable in mode 2, and the generator polynomial of R292, whose
coefficients are 1, 15, 54, 120, 64, is a code word, which no decoder tells from 0. -/
theorem test_burst_code :
    decodeBurst 0 (0xFF + 0x13 * 2 ^ 280) = .taken (0xFF + 0x13 * 2 ^ 280) 0 ∧ decodeBurst 1 (0xFF + 0x13 * 2 ^ 280) = .uncorrectable ∧ decodeBurst 2 1 = .uncorrectable ∧
    decodeBurst 0 (1 * 2 ^ 248 + 15 * 2 ^ 256 + 54 * 2 ^ 264 + 120 * 2 ^ 272 + 64 * 2 ^ 280) = .taken 0 (2 ^ 248) := by decide +kernel

/-! ### The optical fabric -/

/-- Sections whose fibres carry nibs, with a Z channel. -/
def sectionL : Section :=
  ⟨[⟨true, 0x34, 0, 1, 3, [8, 8, 8, 0], 4⟩, ⟨true, 0x36, 0, 2, 0xFFFF, [8, 8, 8, 0], 4⟩, ⟨true, 0x135, 7, 16, 0xFFFF, [8, 8, 8, 2], 4⟩],
    [[⟨0, 4, 4, 0, 0⟩, ⟨1, 8, 8, 0, 0⟩], [⟨0, 4, 4, 1, 1⟩], [], [], [⟨0, 8, 10, 2, 2⟩], []], [⟨true, true, 0, 0, 0⟩, ⟨true, false, 0, 2, 5⟩], [⟨0x35, 2, 7⟩]⟩

/-- What this module negotiates and the outcome that leaves every nib. -/
def negoX (short : Bool) : Nego := ⟨if short then 7 else 1, 7, 0x110, 16, 3⟩

/-- A peer's identity block for fibre 0. -/
def peerX (coord level : Nat) : IdBlock := ⟨7, 1, 0, coord, 3, level, 5, false, 0⟩

/-- Module 0x35 with lit fibres and link 0 as given; its cabling plan names module `c` there. -/
def fab (k : Link) (c : Nat) : State :=
  { up with
    regs := [(.hifLinkStatus, 8), (.opxConfig, BitVec.ofNat 64 (0x35 + 2 ^ 16 + 2 ^ 18 + 2 ^ 19 + 0x12 * 2 ^ 24 + 5 * 2 ^ 32))]
    fabric := { up.fabric with plan := some ⟨5, 99, [0x34, 0x35], [sectionL, sectionL, sectionL, sectionL]⟩, links := [(0, k)], cabling := (List.range 16).map (fun _ => ⟨c, 1, 0, true⟩) }
    light := { up.light with sources := [(0, ⟨true, true, true, true, true, false⟩), (1, ⟨true, true, true, true, true, false⟩)] } }

/-- A link in a state, with a lit fibre, two nibs delineated and the negotiation of three rounds sent. -/
def linkX (st : LState) : Link := { Link.cold with state := st, light := true, delin := 3, rxActive := 3, txActive := 3, round := 3, nego := some (negoX true) }

theorem witness_LinkBringUp :
    (∀ st ∈ [LState.dark, .lock, .align, .negotiate, .identify, .up, .quarantine], linkLive (fab (linkX st) 0x34) 0 = true ∧ (linkAt (fab (linkX st) 0x34) 0).state = st) ∧
    unwatched (fab (linkX .up) 0x34) ∧ (fibreLit (fab (linkX .dark) 0x34) 0 = true ∧ (fab (linkX .dark) 0x34).fabric.held.contains 0 = false ∧
      (fab (linkX .dark) 0x34).fabric.peerHeld.contains 0 = false ∧ (linkAt (fab (linkX .up) 0x34) 0).owed = false ∧ (∃ p ∈ rxNibs (fab (linkX .lock) 0x34) 0, p.1 = 1)) ∧
    ((linkAt (fab { linkX .negotiate with round := 1 } 0x34) 0).round < 2 ∧ (linkX .negotiate).nego.any (agreeShort (fab (linkX .negotiate) 0x34) 0) = true ∧
      ({ linkX .identify with peer := none }).peer = none) ∧
    (let s := fab (linkX .negotiate) 0x34
     (∃ p ∈ txNibs s 0, (negoX true).rx.getLsbD p.2 = true) ∧ (linkAt s 0).rxActive ≠ 0 ∧ (negoX true).fec.testBit 1 = true ∧ (negoX false).fec.testBit 1 = false ∧
      flag s .opxConfig F.opxConfig_short_fec = true ∧ flag s .opxConfig F.opxConfig_short_prefer = true ∧ (∀ p ∈ txNibs s 0, ({ negoX true with rx := 0 } : Nego).rx.getLsbD p.2 = false)) ∧
    (let s := fab (linkX .identify) 0x34
     let i := peerX (torusPeer 0x35 0) 0x12
     flag s .opxConfig F.opxConfig_coord_valid = true ∧ i.level / 16 = getF s .opxConfig F.opxConfig_level / 16 ∧ (peerX 0x34 0x22).level / 16 ≠ getF s .opxConfig F.opxConfig_level / 16 ∧
      i.port = [1, 0, 3, 2].getD 0 9 ∧ (∀ e ∈ (fab (linkX .identify) i.coord).fabric.cabling[0]?.toList, e.cabled = true ∧ e.coord = i.coord ∧ e.port = i.port ∧ e.fibre = i.fibre) ∧
      (∀ e ∈ (fab (linkX .identify) 0x44).fabric.cabling[0]?.toList, e.coord ≠ i.coord) ∧ swapPartner (fab (linkX .identify) 0x44) 0 i = none ∧ maySwap (fab (linkX .identify) 0x44) 0 i = false ∧
      maySwap (fab (linkX .identify) 0x34) 0 i = true) ∧
    (let i := peerX (torusPeer 0x35 0) 0x12
     (linkAt (fab { linkX .quarantine with peer := some i } 0x34) 0).peer = some i) := by
  refine ⟨?_, unwatched_of ?_, ?_, ?_, ?_, ?_, ?_⟩ <;> decide +kernel

/-- A cabling plan, and a lane plan that names nothing, as bytes. -/
def cablingX : List Byte :=
  let es := (List.range 16).flatMap (fun i => bytesLE 2 (0x34 + i) ++ bytesLE 1 (i % 6) ++ bytesLE 1 (i % 4) ++ bytesLE 4 (i % 2))
  [0x5A, 0x4B, 0x50, 0x43, 1, 0, 0, 0] ++ bytesLE 4 (crc32c es) ++ bytesLE 4 0 ++ es

/-- `fab` with bytes at 0x4000, in an idle module. -/
def planned (bs : List Byte) : State := { fab Link.cold 0x34 with mem := Mem.write [] 0x4000 bs }

theorem witness_LinkControlAndPlans :
    (let s := fab (linkX .up) 0x34
     carriesFlits s 0 = true ∧ unwatched s ∧ (linkAt s 0).frozenOut = false ∧ (linkAt s 0).txActive ≠ 0 ∧ s.fabric.held.contains (fibreOf 0) = false ∧ (∃ p ∈ rxNibs s 0, p.1 = 1) ∧
      (linkAt (fab { linkX .up with rxActive := 1 } 0x34) 0).rxActive < 2 ^ 16 ∧ inReset s 16 = false ∧ linkLive s 0 = true ∧ flag s .hifEmergencyHalt F.hifEmergencyHalt_active = false ∧
      (linkAt (fab { linkX .quarantine with peer := some (peerX 0x34 0x12) } 0x34) 0).peer.isSome = true) ∧
    (let s := planned []
     Starts s hd 0x60 ∧ unwatched s ∧ max 64 (rdN s (0x4000 + 12) 4) = 64 ∧ Reaches s 0 [(0x4000, 64)] [] ∧ planVerdict s (Mem.read s.mem 0x4000 64) ≠ 0) ∧
    (let s : State := { planned [] with
       host := { (planned []).host with descs := [⟨900, 0, 1, 5, false, 0x60⟩] }, fabric := { (planned []).fabric with installing := [(900, ⟨6, 98, [0x34], []⟩)] } }
     (descOf s 900).isSome = true ∧ s.light.change.busy = false) ∧
    (let s := planned cablingX
     Starts s hd 0x62 ∧ Reaches s 0 [(0x4000, 144)] [] ∧ cablingGood (Mem.read s.mem 0x4000 144) = true ∧ cablingGood (Mem.read (planned []).mem 0x4000 144) = false) ∧
    (let s := fab (linkX .up) 0x34
     Starts s hd 0x61 ∧ s.fabric.chans.all (fun c => c.2.state != .open) = true ∧ flag s .opxConfig F.opxConfig_mode = false) := by
  refine ⟨⟨?_, unwatched_of ?_, ?_⟩, ⟨starts_of ?_, unwatched_of ?_, ?_, reaches_of ?_, ?_⟩, ?_, ⟨starts_of ?_, reaches_of ?_, ?_⟩, starts_of ?_, ?_⟩ <;> decide +kernel

/-- A lane plan that Table 11.10 accepts: each section with one route, to its own module. -/
def planBytes : List Byte :=
  let sec : List Byte := List.replicate 7 0 ++ bytesLE 2 1 ++ List.replicate 7 0 ++ [3, 0, 0, 0]
  let body := List.replicate 512 (255 : Byte) ++ sec ++ sec ++ sec ++ sec
  bytesLE 4 0x4C504B5A ++ bytesLE 2 1 ++ bytesLE 2 9 ++ bytesLE 4 (crc32c body) ++ bytesLE 4 (64 + body.length) ++ List.replicate 48 0 ++ body

set_option maxRecDepth 20000 in
theorem witness_LanePlanAccepted : planVerdict (planned []) planBytes = 0 := by
  decide +kernel

/-- A write packet and a relay packet. -/
def writeX (dest : Nat) : WritePkt := ⟨dest, [1, 2, 3, 4], true, 0x1000_0000_2000, 5⟩
def relayX (layout type : Nat) : RelayPkt := ⟨0x11, 9, layout, 2, 0, 0, 1, type, 0, 0, 0, [], [], List.replicate 60 0⟩

/-- Channel 0 of edge die 0 over an Up link 0, with a packet to send, one on the way through and one unacknowledged. -/
def chan0 (f : Channel → Channel) : State :=
  let p : Packet := ⟨2, 3, 5, some 0x34, .write (writeX 0x1000_0000_1000)⟩
  let ch : Channel := ⟨.open, true, true, [p], [⟨65500, 3, 1, p⟩], 65503, 7, [2, 2, 2, 0], [1, 2, 3, 0], 5, false, 0, [(0 * 64 + 0, { p with cls := 1 })], 1, false, [], none, [], 0⟩
  let s := fab (linkX .up) 0x34
  { s with
    windows := [(3, ⟨0x1000_0000_0000, 0x10_0000, 7, 0, 0, none, false, []⟩)]
    fabric := { s.fabric with chans := [(0, f ch)] }
    relays := ⟨[(0, ⟨[(0, { runX sumE with post := { postX sumE with ext := { readExt sumE with tag := 0x11, lap := 9 } } })], [], []⟩)], []⟩ }

theorem witness_ChannelsAndPackets :
    (let s := chan0 id
     0 ∈ upLinks s 0 0 ∧ chanOf s 0 = some 0 ∧ edOf 0 = 0 ∧ unwatched s ∧ s.fabric.held.contains (fibreOf 0) = false ∧ (chanAt s 0 0).c3 = [] ∧ flitsOf ⟨2, 3, 5, none, .write (writeX 0)⟩ ≤ packetLimit s 0 0 ∧
      (∀ k < 3, waitingFor (chan0 (fun c => { c with queue := [], transit := [] })) 0 0 k = []) ∧ c3Waits s 0 0 = true ∧ (chanEntry s 0 0).any (·.coord == 0x34) = true ∧ getF s .opxConfig F.opxConfig_job = 5 ∧
      (chanAt s 0 0).queue.find? (·.cls == 2) = some ⟨2, 3, 5, some 0x34, .write (writeX 0x1000_0000_1000)⟩ ∧ (linkAt s 0).frozenOut = false ∧ (linkAt s 0).paused = 0 ∧
      (chanEntry s 0 0).any (fun n => decide (unacked (chanAt s 0 0) + 2 ≤ n.replay * 256)) = true ∧ turnOf s 0 0 2 = true ∧ turnOf s 0 0 1 = false ∧
      turnOf (chan0 (fun c => { c with queue := [], turn := 2 })) 0 0 1 = true ∧
      ((chan0 id).fabric.chans.find? (fun q => q.2.transit.any (fun t => t.1 == chanKey 0 0 && t.2.cls == 1))).isSome = true ∧ cutOff (chan0 id) 17 16 = false ∧ (chanAt (chan0 (fun c => { c with gap := true })) 0 0).gap = true) ∧
    (let ch := chanAt (chan0 id) 0 0
     unacked ch = 2 ∧ (65502 + 1 + 65536 - 65500) % 65536 ≤ sumOf (ch.replay.map (·.flits)) ∧ ch.resends < 8 ∧ (chanAt (chan0 (fun c => { c with resends := 8 })) 0 0).resends = 8 ∧
       (∀ m ∈ [0, 32], (linkAt (chan0 id) m).owed = false)) ∧
    (let s := chan0 id
     (linkAt s 0).frozenIn = false ∧ (chanAt s 0 0).state = .open ∧ (chanAt s 0 0).expect = 7 ∧ (chanAt s 0 0).early = [] ∧ (chanEntry s 0 0).elim 0 (fun en => 256 * en.replay) = 1024 ∧ (sectionOf s 0).bind (fun t => (t.routes[1]?).filter (·.valid)) = some ⟨true, false, 0, 2, 5⟩ ∧
      (sectionOf s 0).bind (fun t => (t.routes[9]?).filter (·.valid)) = none ∧ (sectionOf s 0).bind (fun t => t.routes[0]?) = some ⟨true, true, 0, 0, 0⟩ ∧
      (chanAt (chan0 (fun c => { c with state := .closed })) 0 0).state ≠ .open) ∧
    (let s := chan0 id
     let win := (chanEntry s 0 0).elim 0xFFFF (·.window)
     (∀ d < 16, inReset s d = false) ∧ landingGrants s win .w 0x1000_0000_1000 4 = true ∧ landingGrants s win .a 0x1000_0000_2000 8 = true ∧ landingGrants s win .w 0x60 4 = false ∧
      lapCode s false 0x1000_0000_1000 4 = 0 ∧ lapCode s false 0x1000_0000_2000 8 = 0 ∧ s.memp.faults = [] ∧ s.memp.poison = []) ∧
    (let s := chan0 id
     (matching s 0 (relayX 0 0)).isSome = true ∧ engineOf s 0 (relayX 0 0) = 0 ∧ matching s 0 { relayX 0 0 with lap := 8 } = none ∧ started s 0 { relayX 0 0 with lap := 8 } = false ∧
      (engineAt s 0).held.length < 16384) := by
  refine ⟨⟨?_, ?_, ?_, unwatched_of ?_, ?_⟩, ?_, ?_, ?_, ?_⟩ <;> decide +kernel

/-- Table 11.16 and R315: a freeze for reason 0 is the control field 0x1000, the keepalive of a frozen ingress 0xA001; the CRC of ASCII 1 to 9 is the check value published with
the ECMA-182 polynomial; a whole flit's CRC is 0; a flit with a bit wrong, a reserved type or another class does not read. -/
theorem test_flit :
    controlWord 1 0 = 0x1000 ∧ controlWord 10 1 = 0xA001 ∧ crc64 ((List.range 9).map (fun i => BitVec.ofNat 8 (0x31 + i))) = 0x6C40DF5F0B497347 ∧
    (let f := { ackFlit 0x1234 true 1 2 3 with control := 0x1000 }
     crc64 f.image = 0 ∧ readFlit f.image = some f ∧ readFlit (f.image.set 9 0) = none ∧ readFlit { f with type := 11 }.image = none ∧ readFlit { f with cls := 2 }.image = none ∧
      f.image.take 11 = [0x00, 0x10, 0x21, 0, 0, 0, 240, 0, 0x34, 0x12, 1]) ∧
    superframeFlits true = 2570 ∧ superframeFlits false = 2570 := by
  decide +kernel

/-- R311: α has order 1,023; a word of 0 is a codeword and one of a single symbol is not; a short codeword ends within flit 1 and a long one within flit 2. -/
theorem test_codewords :
    Nat.repeat tenDouble 1023 1 = 1 ∧ Nat.repeat tenDouble 341 1 ≠ 1 ∧ Nat.repeat tenDouble 93 1 ≠ 1 ∧ Nat.repeat tenDouble 33 1 ≠ 1 ∧
    (∀ i < 15, fecSyndrome (List.replicate 272 0) i = 0) ∧ fecSyndrome (7 :: List.replicate 271 0) 0 = 7 ∧
    flitWords true 0 = [0] ∧ flitWords true 1 = [0, 1] ∧ flitWords false 2 = [0, 1] ∧ flitWords true 2569 = [2047] := by
  decide +kernel

/-- R311: idle flits are zeros, whose CRC checks; nine of them confirm the first boundary. -/
theorem test_delineation : flitBoundary (List.replicate 2304 0) = some 0 ∧ flitBoundary (List.replicate 2303 0) = none := by
  decide +kernel

/-- R320, Table 8.7: a relay packet goes out as its header and data flits, and reads back from them. -/
theorem test_packet_flits :
    (let p : Packet := ⟨1, 3, 5, none, .relay { relayX 9 0 with residues := [7], blocks := List.replicate 14 0, scale := -3 }⟩
     (packetFlits 65535 p).map (fun f => (f.type, f.last, f.seq, f.valid)) = [(2, false, 65535, 240), (3, true, 0, 240)] ∧ readPacket (packetFlits 65535 p) = some p) ∧
    (let w : Packet := ⟨2, 3, 5, none, .write (writeX 0x1000_0000_1000)⟩
     readPacket (packetFlits 8 w) = some w) := by
  decide +kernel

/-! ### Light -/

/-- Two sources, line 4 of edge die 0 sampled, rings of fibre 0 locked. -/
def lit (a b : Source) (change : Changeover) (regs : List (Reg × Word)) : State :=
  let s := fab (linkX .up) 0x34
  { s with
    regs := regs ++ s.regs
    light := { s.light with
      sources := [(0, a), (1, b)], change := change, txLocked := [(0, 3)], rxLocked := [(0, 3)]
      lines := (List.range 2).map (fun c => (lineKey 0 c 4, ⟨[300, 301, 249], some 340, some 350, 0, 0, (List.range 400).map (fun i => (i, 300)), [300], none⟩)) } }

/-- A source at work, and the resting changeover. -/
def good : Source := ⟨true, true, true, true, true, false⟩
def rest : Changeover := ⟨false, false, 0, none, 0⟩

theorem witness_LightSources :
    (unwatched (lit good good rest []) ∧ getF (lit good good rest []) .lgtCombStatus F.lgtCombStatus_active = 0 ∧ someBelow (lit good good rest []) 1 = false ∧
      (lit good good rest []).light.change.due = false ∧ (lit { good with fitted := false } good rest []).light.sources.get 0 good ≠ good ∧ (liveLinks (lit good good rest [])).contains 0 = true) ∧
    (inReset (lit good good rest []) 16 = false ∧ (lineAt (lit good good rest []) 0 0 4).samples ≠ [] ∧ (lineAt (lit good good rest []) 0 0 4).p0 = some 350 ∧
      lineInUse (lit good good rest []) 0 4 = true ∧ eligible (lit good good rest []) 1 = true ∧ (lit good good rest []).fabric.installing = [] ∧
      flag (lit good good rest [(.lgtCombCtl, 1)]) .lgtCombCtl F.lgtCombCtl_auto = true ∧
      getF (lit good good rest []) .lgtThresh F.lgtThresh_amber < getF (lit good good rest []) .lgtThresh F.lgtThresh_red) ∧
    (let s := { lit good good rest [] with light := { (lit good good rest []).light with lines := (List.range 4).flatMap (fun e => (List.range 72).map (fun w => (lineKey e 0 w, { Line.cold with mean := some 300 }))) } }
     (∀ e < 4, ∀ w < 72, ∃ v ∈ (lineAt s e 0 w).mean.toList, 300 ≤ v) ∧ (lineAt (lit good good rest []) 0 0 5).mean = none) ∧
    (F.lgtThresh_amber.of 0x302010 < F.lgtThresh_red.of 0x302010 ∧ F.lgtThresh_red.of 0x302010 < F.lgtThresh_floor.of 0x302010 ∧ ¬F.lgtThresh_amber.of 0x30 < F.lgtThresh_red.of 0x30) ∧
    ((lit good good ⟨true, false, 1, none, 5⟩ []).light.change.busy = true ∧ inReset (lit good good rest []) (16 + 5 / 6) = false ∧ (∃ g < 24, 6 ≤ g ∧ inReset (lit good good rest []) (16 + g / 6) = false)) ∧
    ((sourceAt (lit { good with rdy := false } good rest []) 0).rdy = false ∧ (sourceAt (lit { good with rdy := false } { good with faded := true } rest []) 1).faded = true) ∧
    (((lit good good rest []).light.txLocked.get 0 0).testBit 1 = true ∧ ((lit good good rest []).light.txLocked.get 0 0).testBit 5 = false ∧ (lit good good rest []).fabric.held.contains 0 = false) := by
  refine ⟨⟨unwatched_of ?_, ?_⟩, ?_, ?_, ?_, ?_, ?_, ?_⟩ <;> decide +kernel

/-! ### The die mesh and the Sweyr links -/

/-- A message of runner 3 to a die. -/
def msgX (dst len : Nat) (data : List Byte) : SwlMsg := ⟨false, 0, dst, 7, 0x1000_0800_0040, len, 0, 0, 0, false, 5, 6, 1 + 2 ^ 16 * 3, 4, data, []⟩

/-- Link end `x` as given; die 5 in reset where asked. -/
def swl (x : Nat) (k : SwlEnd) (dark : Bool) (arbs : Tab Arbiter) : State :=
  { run0 with
    runners := [(3, { Runner.free with state := .ready })]
    power := { run0.power with resets := if dark then [(1, ⟨6, false⟩)] else [] }
    sweyr := ⟨[(x, k)], arbs, [], [], [], []⟩ }

/-- An Active end. -/
def activeX : SwlEnd := { SwlEnd.cold with state := .active, credits := [9, 9, 9, 9], freed := [1, 0, 0, 0], replay := [⟨4, msgX 1 0 [], 2, 0⟩] }

theorem witness_SweyrMessages :
    (let s := swl 0 activeX false []
     endLive s 0 = true ∧ (endAt s 0).state = .active ∧ unwatched s ∧ s.sweyr.merges = [] ∧ swlEndDie 0 = 0 ∧ cutOff s 0 1 = false ∧ (nextArb s 0 (endRouter 0) (msgX 1 8 [])).isSome = true ∧
      (endAt s 0).parts = [] ∧ optionOn (endAt s 0) 0 = false ∧ ((endAt (swl 0 { activeX with parts := [⟨0, 2, msgX 1 100 (List.replicate 100 0), 1⟩] } false []) 0).parts.find? (·.vc == 0)).isSome = true ∧
      cutOff (swl 0 activeX true []) 0 1 = true ∧ cutOff (swl 0 activeX true []) 0 0 = false ∧ (nextArb s 0 (endRouter 0) (responseTo (msgX 1 8 []) 1 0 [])).isSome = true) ∧
    ((∃ x ∈ [384, 385, 386, 387], 16 ≤ swlEndDie x ∧ endLive (swl x activeX false []) x = true) ∧ freezable (runnerAt (swl 0 activeX false []) 3) = true) ∧
    (let s := swl 0 activeX false []
     inReset s 1 = false ∧ ownerOf s 0x1000_0800_0040 = some 1 ∧ ownerOf s (0x1000_0800_0040 + 239) = some 1 ∧ ownerOf s 0x40 ≠ some 1 ∧ homeRouter s 0x1000_0800_0040 = some 4 ∧ homeRouter s 0x40 = some 0 ∧ lapCode s true 0x1000_0800_0040 240 = 0 ∧
      s.memp.faults = [] ∧ s.memp.poison = [] ∧ ∃ c < 64, (atomicCode c).isSome = true) ∧
    ((endAt (swl 0 activeX false []) 0).nakRun < 7 ∧ (endAt (swl 0 { activeX with nakRun := 7, nakSeq := 4 } false []) 0).nakRun = 7) ∧
    (let a : Arb := .mesh 0 2 1
     let s (h : Option (Nat × Nat × SwlMsg)) := swl 0 activeX false [(arbKey a, ⟨h, [3, 1], [(2, 1, msgX 1 8 []), (3, 1, msgX 1 9 [])]⟩)]
     (arbAt (s none) a).holder = none ∧ (arbAt (s none) a).requests.length = 2 ∧ (arbAt (s (some (2, 1, msgX 1 8 []))) a).holder = some (2, 1, msgX 1 8 [])) ∧
    (let m := msgX 1 8 []
     let s := swl 0 { activeX with state := .down } false [(arbKey (.swl 0), ⟨none, [], [(0, 3, m)]⟩)]
     (arbAt s (.swl 0)).requests = [(0, 3, m)] ∧ swlEndDie 0 = 0 ∧ cutOff s 0 (nodeDie m.dst) = false ∧ nextArb s 0 (endRouter 0) m = some (.swl 2)) ∧
    (let s := { swl 0 activeX false [] with sweyr := { (swl 0 activeX false []).sweyr with awaiting := [5] } }
     5 ∈ s.sweyr.awaiting ∧ (∃ x ∈ endsOf 5, (endAt s x).state ≠ .active ∧ linkOut s (x / 2) = false)) := by
  refine ⟨⟨?_, ?_, unwatched_of ?_, ?_⟩, ?_, ?_, ?_, ?_, ?_, ?_⟩ <;> decide +kernel

/-- Table 13.3 and R369 for the flit, R367 for the lanes: at 64 lanes bit 64 is lane 0 of the second unit interval; on the upper half lane 32 is the first. -/
theorem test_sweyr_flit :
    (let f : SwlFlit := ⟨2, 1, true, false, 0x5A, some 0x33, List.replicate 119 0 ++ [0x80]⟩
     f.image.take 4 = [0x52, 0x5A, 0x33, 1] ∧ f.image.length = 128 ∧ readSwlFlit false f.image = some f ∧ readSwlFlit true (f.image.set 50 1) = none ∧
     readSwlFlit false ({ f with type := 4 } : SwlFlit).image = none ∧ readSwlFlit true ({ f with type := 5 } : SwlFlit).image = none ∧
     laneBit 0 1 0 f.image = some true ∧ laneBit 0 8 0 f.image = some false ∧ laneBit 5 33 0 f.image = some true ∧ laneBit 5 1 0 f.image = none ∧ laneBit 0 59 15 f.image = (some ((f.image.getD 127 0).toNat.testBit 3))) ∧
    readFrame (frameBytes 7 []) = some (7, []) ∧ readFrame ((frameBytes 7 []).set 0 8) = none ∧ (frameBytes 3 [2]).take 3 = [3, 1, 2] := by decide +kernel

/-- Tables 13.6 and 13.7 and R370: a WRITE of 130 bytes is a head and two data flits. -/
theorem test_sweyr_message :
    let m := msgX 1 130 ((List.range 130).map (BitVec.ofNat 8))
    let fs := swlFlits 2 254 (some 9) m
    fs.length = 3 ∧ (fs.map (·.seq)) = [254, 255, 0] ∧ (fs.map (·.last)) = [false, false, true] ∧ (fs.map (·.type)) = [1, 2, 2] ∧ readMessage fs = some (2, m) ∧
    ((fs.headD ⟨0, 0, false, false, 0, none, []⟩).payload.take 8) = [2, 0, 0, 0, 1, 0, 7, 0] ∧
    readMessage (swlFlits 0x31 0 none (msgX 1 5 [1, 2, 3, 4, 5])) = some (0x31, msgX 1 5 [1, 2, 3, 4, 5]) := by decide +kernel

/-- Flits, a packet, a message and a frame that meet what the statement on encodings asks, and are read back. -/
theorem witness_encodings :
    (let f : Flit := ⟨0, 6, true, 3, 0, 0, 240, 0, List.replicate 240 7⟩
     f.fits ∧ f.typed = true) ∧
    (let q : RelayPkt := { RP with words := [1, 2, 3], residues := [9], blocks := List.replicate 14 5, type := 1, scale := -3, overflow := 1 }
     q.wf = true ∧ q.residues.length = relayFlits q ∧ q.blocks.length = 14 ∧ readPacket (packetFlits 65535 ⟨1, 3, 4, none, .relay q⟩) = some ⟨1, 3, 4, none, .relay q⟩ ∧
       readRelay ((payloads (.relay q)).flatMap (fun b => padTo b.1 b.2)) = q) ∧
    (let q : WritePkt := ⟨0x1000, List.replicate 300 9, true, 0x2000, 7⟩
     q.wf = true ∧ readPacket (packetFlits 0 ⟨2, 3, 4, none, .write q⟩) = some ⟨2, 3, 4, none, .write q⟩) ∧
    (let f : SwlFlit := ⟨4, 1, true, true, 3, some 2, List.replicate 120 7⟩
     f.fits) ∧
    (let m := msgX 1 130 (List.replicate 130 3)
     opKnown 2 = true ∧ m.wf = true ∧ opCarries 2 = true ∧ m.len = m.data.length ∧ m.poison.Pairwise (· < ·) ∧ laneGroup 14 = (48, 16)) := by
  refine ⟨⟨?_, ?_⟩, ?_, ?_, ?_, ?_⟩
  · unfold Flit.fits; decide +kernel
  · decide +kernel
  · decide +kernel
  · decide +kernel
  · unfold SwlFlit.fits; simp
  · decide +kernel

/-- R364 and Table 13.1: along the row, then along the column. -/
theorem test_paths :
    pathDies 0 5 = [0, 1, 5] ∧ pathDies 0 4 = [0, 4] ∧ pathDies 0 16 = [0, 16] ∧ pathDies 16 9 = [16, 1, 5, 9] ∧ pathDies 9 17 = [9, 10, 11, 17] ∧ pathDies 18 16 = [18, 13, 9, 5, 1, 16] := by decide +kernel

/-- A capability block of the newest version (Table 13.11). -/
def capX : List Byte :=
  let b := bytesLE 4 0x43424B5A ++ [0x12, 0x10, 3, 7, 3, 7] ++ bytesLE 2 33 ++ bytesLE 2 34 ++ bytesLE 2 35 ++ bytesLE 2 36 ++ [33, 128, 2, 3, 1, 2, 3, 4, 5, 1] ++ List.replicate 32 0
  b ++ bytesLE 4 (crc32c b)

theorem witness_SweyrTraining :
    (endLive (swl 0 activeX false []) 448 = false ∧ endLive (swl 1 activeX true []) 1 = false) ∧
    ({ activeX with state := .capability, cap := capX, gotCap := true }.gotCap = true ∧ 0x10 ≤ field capX 4 1 ∧ field [] 4 1 < 0x10 ∧
      (testing activeX = false) ∧ (endAt (swl 0 { activeX with freed := [0, 0, 0, 0] } false []) 0).freed = [0, 0, 0, 0] ∧
      endDisabled { swl 0 activeX false [] with regs := [(.swlCtl 0, 4)] } 0 = true ∧ dieAnswers (swl 0 activeX false []) (swlEndDie 0)) ∧
    (∀ st ∈ [SState.reset, .capability, .laneTest, .widthCheck, .active, .retrain, .down], endLive (swl 0 { activeX with state := st } false []) 0 = true ∧
      endDisabled (swl 0 { activeX with state := st } false []) 0 = false) ∧ unwatched (swl 0 activeX false []) ∧ (capBad capX = false ∧ capBad [] = true ∧ field capX 5 1 = 0x10) ∧
    (testing { activeX with state := .laneTest, cap := capX } = true ∧ ({ activeX with state := .laneTest } : SwlEnd).pass = none ∧ (field capX 7 1) = 7) ∧
    (let f (type seq op : Nat) : SwlFlit := ⟨type, 0, true, false, seq, none, padTo 120 [BitVec.ofNat 8 op]⟩
     featureOn activeX 1 = false ∧ activeX.expect = 0 ∧ readSwlFlit false (f 1 7 2).image = some (f 1 7 2) ∧ readSwlFlit false (f 1 0 9).image = some (f 1 0 9) ∧
       readSwlFlit false (f 0 0 0).image = some (f 0 0 0) ∧ readSwlFlit false (f 2 0 0).image = some (f 2 0 0) ∧ readSwlFlit false [] = none) ∧
    (let s := swl 0 { activeX with state := .widthCheck, pass := some (BitVec.allOnes 64), peerPass := some (BitVec.allOnes 64), version := 0x12 } false []
     (endAt s 0).pass = some (BitVec.allOnes 64) ∧ (endAt s 0).checked = false ∧ (arbAt s (.swl 0)).requests = [] ∧ quarter0 (BitVec.allOnes 64) = true ∧ quarter0 0xFFFF = true ∧ quarter0 0 = false) ∧
    ((∃ n ∈ (endAt (swl 0 activeX false []) 0).freed, n ≠ 0) ∧ linkOut (swl 0 activeX false []) 0 = false ∧ linkOut (swl 0 activeX false []) 1 = false ∧
      linkOut { swl 0 activeX false [] with regs := [(.swlCtl 2, 4)] } 1 = true) := by
  refine ⟨⟨?_, ?_⟩, ⟨?_, ?_, ?_, ?_, ?_, ?_, dieAnswers_of ?_⟩, ?_, unwatched_of ?_, ?_, ?_, ?_, ?_⟩ <;> decide +kernel

/-! ### The host attachment -/

/-- `up` with queue 3 in state `q`, a record for queue 5 at 0x4000 of LPDDR6 whose flags and reserved byte are as given, and the register values given. -/
def hostX (q : QState) (flags bad : Byte) (regs : List (Reg × Word)) : State :=
  { up with
    regs := regs ++ [(.hifQueueInstallAddr, 0x4000), (.hifLinkStatus, 8)]
    mem := Mem.write [] 0x4000 (bytesLE 8 0x3000 ++ bytesLE 8 0x5000 ++ [4, 5, 1, flags, bad])
    host := { up.host with queues := (3, { Queue.absent with state := q, sqLog := 4, cqLog := 4, sqTail := 2, cqTail := 1 }) :: up.host.queues } }

/-- The write of HIF_QUEUE_INSTALL_CTL that installs `count` records from queue `first` on. -/
def installX (first count : Nat) : BitVec 32 := BitVec.ofNat 32 (2 ^ 15 + count * 128 + first)

/-- `up` with a completion for queue 3 to write. -/
def doneX (status : Nat) (intEn : Bool) : State :=
  let s := hostX .running 0 0 []
  { s with
    blotter := { s.blotter with events := [] }
    host := { s.host with
      entries := [⟨⟨40, 3, 0, 0x99, true, 0x20⟩, status, 0x123, [1, 2]⟩]
      queues := (3, { queueAt s 3 with intEn := intEn }) :: s.host.queues } }

theorem witness_QueuesAndEmergencyHalt :
    (Starts up hd 0x01 ∧ Starts up hd 0x02) ∧
    (let s := hostX .running 0 0 [(.secBootStatus, 6)]
     5 ≤ getF s .secBootStatus F.secBootStatus_stage ∧ getF s .secBootStatus F.secBootStatus_stage ≠ 7 ∧ unwatched s) ∧
    ((∀ x ∈ [((5, 1), 1, 0), ((3, 1), 1, 0), ((5, 1), 1, 9), ((5, 0), 1, 0), ((127, 2), 1, 0), ((127, 1), 0, 0)],
      let s := hostX .running (BitVec.ofNat 8 x.2.1) (BitVec.ofNat 8 x.2.2) []
      setupLocked s = false ∧ F.hifQueueInstallCtl_go.of ((installX x.1.1 x.1.2).setWidth 64) = 1 ∧ (inReset s 16 || gatedNow s 16) = false ∧ s.memp.faults = [] ∧ mapped s 0x4000 64 = true ∧
        memoryRefuses s 16 [(0x4000, 64)] [] = none) ∧
     (let s := hostX .running 1 0 []
      let rec' := Mem.read s.mem (getF s .hifQueueInstallAddr F.hifQueueInstallAddr_addr * 32) 32
      field rec' 16 1 = 4 ∧ field rec' 17 1 = 5 ∧ field rec' 19 1 = 1 ∧ field rec' 20 12 = 0 ∧ field rec' 0 8 % 4096 = 0 ∧ field rec' 8 8 % 4096 = 0 ∧ (queueAt s 5).state = .absent ∧
      field (Mem.read (hostX .running 1 9 []).mem 0x4000 32) 20 12 ≠ 0)) ∧
    (∀ q ∈ [QState.absent, .disabled, .running, .frozen, .stopping], (queueAt (hostX q 0 0 []) 3).state = q ∧ (hostX q 0 0 []).host.descs = [] ∧
      (∀ e < 4, (engineAt (hostX q 0 0 []) e).posts = []) ∧ (hostX q 0 0 []).launches = [] ∧ (hostX q 0 0 []).lap.opens = [] ∧ inFlight (hostX q 0 0 []) 3 = 0) ∧
    (let r := queueAt (hostX .running 0 0 []) 3
     let passes (v : Nat) : Bool := decide ((r.cqTail + 2 ^ r.cqLog - r.cqHead) % 2 ^ r.cqLog < (v + 2 ^ r.cqLog - r.cqHead) % 2 ^ r.cqLog)
     2 ^ r.sqLog = 16 ∧ 2 ^ r.cqLog = 16 ∧ passes 1 = false ∧ passes 2 = true ∧ passes 15 = true) ∧
    (∀ st ∈ [0, 4], ∀ i ∈ [true, false], let s := doneX st i
      s.blotter.events = [] ∧ (s.host.entries.find? (fun x => x.desc.q == 3)).any (fun e => e.result.length ≤ 48 && e.status == st) = true ∧ (queueAt s 3).cqLog ≤ 16 ∧
      (queueAt s 3).cqTail < 2 ^ (queueAt s 3).cqLog ∧ (queueAt s 3).sqHead < 65536 ∧ ((queueAt s 3).cqTail + 1) % 2 ^ (queueAt s 3).cqLog ≠ (queueAt s 3).cqHead) ∧
    (let s := { up with host := { up.host with queues := (9, { queueAt up 0 with sqBase := 0x9000 }) :: up.host.queues } }
     s.host.served = 127 ∧ wantsTurn s 0 = true ∧ inTurn s 0 = true ∧ inTurn s 9 = false ∧
      (let t := { s with host := { s.host with served := 0 } }
       wantsTurn t 9 = true ∧ inTurn t 0 = false ∧ inTurn t 9 = true)) ∧
    (mayStart up 0 0x01 = true ∧ mayStart up 0 0x77 = true ∧ (∀ d ∈ up.host.descs, d.id ≠ up.nextId) ∧ badDescriptor (0x01 :: List.replicate 63 0) = false ∧ badDescriptor (0x77 :: List.replicate 63 0) = true ∧
      badDescriptor (0x01 :: 2 :: List.replicate 62 0) = true) ∧
    (let s := hostX .running 0 0 [(.hifEmergencyHalt, 4)]
     flag s .hifEmergencyHalt F.hifEmergencyHalt_active = true ∧ flag up .hifEmergencyHalt F.hifEmergencyHalt_active = false ∧ s.runners = [] ∧ s.relays.engines = [] ∧
      ∃ w < 8, (runnerAt run0 w).state = .ready) := by
  refine ⟨⟨up_starts _ (by decide), up_starts _ (by decide)⟩, ⟨?_, ?_, unwatched_of ?_⟩, ⟨?_, ?_⟩, ?_, ?_, ?_, ?_, ?_, ?_⟩ <;> decide +kernel

/-- Mailbox channels from agent 0 with contents `box`, the legacy mailboxes with `old`, agent 7 (compute die 1) in reset where asked. -/
def mbxX (box old : Mailbox) (sent : Nat) (dark : Bool) : State :=
  { up with
    host := { up.host with mbx := ⟨[(0 * 32 + 7, box)], [(7, old)], [(7, ⟨1, 2, sent⟩)], [(7, ⟨1, 2, sent⟩)], [(7, 2)], [(7, 0xFFFFFFF0)]⟩ }
    power := { up.power with resets := if dark then [(1, ⟨6, false⟩)] else [] } }

/-- A full mailbox of a sender. -/
def fullX (a : Nat) : Mailbox := ⟨0x40, 9, a, true, false, false⟩

theorem witness_Mailboxes :
    (∀ dark ∈ [true, false], unwatched (mbxX (fullX 0) (fullX 3) 2 dark)) ∧
    (inReset (mbxX (fullX 0) (fullX 3) 2 true) (7 - 6) = true ∧ inReset (mbxX (fullX 0) (fullX 3) 2 false) (7 - 6) = false) ∧
    (∀ full ∈ [true, false], ((mbxX { fullX 0 with full := full } (fullX 3) 2 false).host.mbx.chan.get (0 * 32 + 7) Mailbox.empty).full = full ∧
      ((mbxX (fullX 0) { fullX 3 with full := full } 2 false).host.mbx.legacy.get 7 Mailbox.empty).full = full) ∧
    (∀ n < 4, ((mbxX (fullX 0) (fullX 3) n false).host.mbx.sent.get (0 * 32 + 7) SendState.none).state = n) ∧
    ((up.host.mbx.masks.get 7 0xFFFFFFFF).getLsbD 0 = true ∧ ((mbxX (fullX 0) (fullX 3) 0 false).host.mbx.masks.get 7 0xFFFFFFFF).getLsbD 0 = false) := by
  refine ⟨fun dark _ => unwatched_of ?_, ?_, ?_, ?_, ?_⟩ <;> first | decide +kernel | (revert dark; decide +kernel)

/-! ### Clocks, supplies and fabric time -/

/-- `up` with the register values and the power and clock state given. -/
def withX (regs : List (Reg × Word)) (p : Power → Power) (c : Clock → Clock) : State := { up with regs := regs ++ (.pwrMode, 0) :: up.regs, power := p up.power, clock := c up.clock }

theorem witness_ModesThrottleAndSupplies :
    (unwatched up ∧ getF (withX [] id id) .pwrMode F.pwrMode_current = 0 ∧ getF (withX [] id id) .pwrMode F.pwrMode_changing = 0 ∧ up.power.nextMode = none ∧
      (∃ n < 4, (withX [] (fun p => { p with nextMode := some 1 }) id).power.nextMode = some n)) ∧
    ((∃ r ∈ (List.range 4).map (fun c => up.power.rungs.get (0 / 64 * 4 + c) 0), ∀ x ∈ (List.range 4).map (fun c => up.power.rungs.get (0 / 64 * 4 + c) 0), x ≤ r) ∧
      (∃ r ∈ (List.range 4).map (fun c => (withX [] (fun p => { p with rungs := [(1, 4)] }) id).power.rungs.get (0 * 4 + c) 0), r = 4)) ∧
    (up.power.onB.contains 3 = false ∧ (withX [] (fun p => { p with onB := [3] }) id).power.onB.contains 3 = true) ∧
    ((∀ d < 20, inReset up d = false) ∧ inReset (withX [] (fun p => { p with resets := [(17, ⟨5, true⟩)] }) id) 17 = true ∧ (∃ t : Int, (getF up .pwrThermCfg F.pwrThermCfg_hot : Int) ≤ t ∧ t < 115) ∧
      up.power.noted.get? (3 * 4) = none ∧ (let s := withX [] (fun p => { p with noted := [(12, 5)] }) (fun c => { c with ns := 9 })
        (s.power.noted.get? (3 * 4)).any (fun u => decide (s.clock.ns < u + 10 ^ 9)) = true)) ∧
    ([14500, 11500, 8000, 8000].getD (getF (withX [] id id) .pwrMode F.pwrMode_current) 0 * 98 < 14211 * 100 ∧ ¬[14500, 11500, 8000, 8000].getD (getF (withX [] id id) .pwrMode F.pwrMode_current) 0 * 98 < 14210 * 100 ∧
      (∀ d < 16, up.power.rungs.get (d * 4 + 2) 0 = 0)) ∧
    (up.power.tripped.contains 4 = false ∧ (let s := withX [] (fun p => { p with tripped := [4], resets := [(4, ⟨5, true⟩)] }) id
      s.power.tripped.contains 4 = true ∧ s.power.resets.get? 4 = some ⟨5, true⟩ ∧ mustStay s 4 = true ∧ mustStay up 4 = false ∧
      (withX [] (fun p => { p with noRef := [4], resets := [(4, ⟨4, true⟩)] }) id).power.noRef.contains 4 = true ∧ getF s .pwrThermCfg F.pwrThermCfg_resume < 115)) ∧
    (getF up .pwrState F.pwrState_state ≠ 3 ∧ getF (withX [(.pwrState, 12)] id id) .pwrState F.pwrState_state = 3 ∧ up.power.ovAt = none ∧
      (let s := withX [] (fun p => { p with ovAt := some 5 }) (fun c => { c with ns := 9 })
       s.power.ovAt.any (fun u => decide (s.clock.ns < u + 3600 * 10 ^ 9)) = true) ∧ (withX [] (fun p => { p with switchOpen := true }) id).power.switchOpen = true ∧
      up.power.switchOpen = false ∧ up.power.auxNoted = false ∧ 4000 ≤ up.power.volts ∧ 1100 ≤ up.power.auxVolts) := by
  refine ⟨⟨unwatched_of ?_, ?_⟩, ?_, ?_, ⟨?_, ?_, ⟨100, ?_⟩, ?_⟩, ?_, ?_, ?_⟩ <;> decide +kernel

/-- A module of coordinate 0x34 and a lane plan of two members; fibre 0's link is Up at level 1.2 with its channel Open; the pacer is `pacer`. -/
def timeX (pacer : Nat) (regs : List (Reg × Word)) (c : Clock → Clock) : State :=
  { up with
    regs := regs ++ [(.opxConfig, 0x34 + 0x10000), (.timPacer, BitVec.ofNat 64 (0x20000 + pacer))] ++ up.regs
    clock := c up.clock
    fabric := { up.fabric with
      links := [(0, { Link.cold with state := .up, minor := 2, peer := some (peerX 0x35 0x12) })]
      chans := [(0, { Channel.fresh [1, 1, 1, 1] with state := .open })]
      plan := some ⟨5, 99, [0x34, 0x35], [⟨[⟨true, 0x34, 0, 1, 1, [8, 8, 8, 0], 4⟩], [], [], []⟩, ⟨[⟨true, 0x35, 0, 1, 1, [8, 8, 8, 0], 4⟩], [], [], []⟩]⟩ } }

/-- A time message of the peer on that link, over marker numbers 7 and 9. -/
def tmX (hops : Nat) : TimeMsg := ⟨hops, 0x35, 9, 1000, 0, 7, 900, 0, 2⟩

theorem witness_FabricTime :
    (Starts (timeX 0x35 [] id) hd 0x90 ∧ unwatched (timeX 0x35 [] id) ∧ (∀ c ∈ (timeX 0x35 [] id).fabric.plan.elim [] (·.members), c < 65536) ∧
      hasCoord (timeX 0x35 [] id) = true ∧ coordOf (timeX 0x35 [] id) = 0x34 ∧ 0x35 ∈ (timeX 0x35 [] id).fabric.plan.elim [] (·.members) ∧ (∀ x ∈ (timeX 0x35 [] id).fabric.plan.elim [] (·.members), coordOrder 0x34 ≤ coordOrder x ∧
        (coordOrder x = coordOrder 0x34 → x = 0x34))) ∧
    (measures up 0 = false ∧ measures (timeX 0x35 [] id) 0 = true ∧ isPacer (timeX 0x34 [] id) = true ∧ isPacer (timeX 0x35 [] id) = false ∧
      flag (timeX 0x35 [] id) .timPacer F.timPacer_valid = true ∧ (linkAt (timeX 0x35 [] id) 0).marker = none ∧
      (timeX 0x35 [] id).fabric.held.contains (fibreOf 0) = false ∧ (∀ c ∈ (chanOf (timeX 0x35 [] id) 0).toList, (chanAt (timeX 0x35 [] id) (edOf 0) c).c3 = [] ∧
        ∀ j < 3, waitingFor (timeX 0x35 [] id) (edOf 0) c j = [])) ∧
    (let s := timeX 0x35 [] (fun c => { c with splits := [(0, ⟨7, 890 * 65536, 9, 1010 * 65536⟩)] })
     ∃ t ∈ (match execTimeMessage ⟨0, true⟩ (tmX 2) s with | .next t => [t] | _ => []), t.clock.parent = some 0 ∧ (tmX 2).seen = (splitOf s 0).sent ∧ (tmX 2).sent = (splitOf s 0).seen) ∧
    (∃ t ∈ (match execTimeMessage ⟨0, true⟩ { tmX 2 with pacer := 0x99 } (timeX 0x35 [] id) with | .next t => [t] | _ => []), t.clock.parent = none) ∧
    (endLive (swl 0 activeX false []) 0 = true ∧ (endAt (swl 0 activeX false []) 0).state = .active ∧ swlEndDie 0 ≠ 16 ∧ featureOn (endAt (swl 0 activeX false []) 0) 1 = false ∧
      featureOn (endAt (swl 0 { activeX with version := 0x12, cap := List.replicate 16 0xFF } false []) 0) 1 = true) ∧
    (∀ lk ∈ [0, 8], let s := timeX 0x34 [(.timCtl, 8), (.timStatus, BitVec.ofNat 64 lk)] id
      isPacer s = true ∧ flag s .timCtl F.timCtl_pps_in = true ∧ (flag s .timStatus F.timStatus_pps_locked = decide (lk = 8))) ∧
    (flag (timeX 0x34 [(.timCtl, 15)] id) .timCtl F.timCtl_tod_out = true ∧ flag (timeX 0x34 [(.timCtl, 15)] id) .timCtl F.timCtl_pps_out = true ∧
      (timeX 0x34 [] (fun c => { c with ppsNamed := some (7 * 10 ^ 9) })).clock.ppsNamed = some (7 * 10 ^ 9)) := by
  refine ⟨⟨starts_of ?_, unwatched_of ?_, ?_⟩, ?_, ?_, ?_, ?_, ?_, ?_⟩ <;> decide +kernel

/-! ### Resets, boot, firmware and management -/

theorem witness_ResetsAndPowerStates :
    (up.newMaps = [] ∧ up.power.saved = [] ∧ (∀ d < 16, regVal up (.cmpMemInterleave d) = coldOf (.cmpMemInterleave d)) ∧
      ([Reg.pwrMode, .lapRecordBase, .errRingStatus, .cmpVecSeed 1].all (fun r => r.fields.all (fun f => decide (f.lo + f.width ≤ 64) && decide (f.cold < 2 ^ f.width))) = true)) ∧
    (let s := withX [] (fun p => { p with resets := [(5, ⟨5, true⟩), (7, ⟨4, false⟩)] }) id
     unwatched s ∧ s.power.resets.get? 5 = some ⟨5, true⟩ ∧ s.power.resets.get? 7 = some ⟨4, false⟩ ∧ s.power.resets.get? 16 = none ∧ s.power.resets.get? 3 = none) ∧
    (up.power.resets = [] ∧ up.memp.dead = [] ∧ up.lap = State.reset.lap ∧ up.relays = State.reset.relays ∧ up.launches = [] ∧ up.shares = [] ∧ up.halts = [] ∧ up.accesses = [] ∧
      up.cores = [] ∧ up.heat.entries = [] ∧ up.blotter.events = [] ∧ up.relays.installs = [] ∧ dieOfRunner 3 = 0 ∧ dieOfRunner 3 ≠ 1) ∧
    (run0.halts = [] ∧ run0.launches = [] ∧ run0.heat = Heat.cold ∧ (∀ p ∈ run0.runners, p.2.state ≠ .waiting) ∧ run0.power.resetCore = none ∧ coreReg 0 (.cmpCoreCtl 0) = true ∧ coreReg 0 .pwrMode = false) ∧
    (∀ n < 5, getF (withX [(.pwrState, BitVec.ofNat 64 (n * 4))] id id) .pwrState F.pwrState_state = n) ∧
    (up.lap.state = 0 ∧ openLaps up = [] ∧ up.runners = [] ∧ up.relays.engines = [] ∧ (∀ d < 20, inReset up d = false) ∧ installing up = false ∧ 1140 ≤ up.power.auxVolts ∧
      (withX [(.pwrState, 4)] (fun p => { p with target := 3 }) id).power.target = 3 ∧ up.memp.marked = [] ∧ (∀ l ∈ liveLinks up, (linkAt up l).state = .dark) ∧ up.power.saved = [] ∧
      4400 ≤ up.power.volts) := by
  refine ⟨?_, ⟨unwatched_of ?_, ?_⟩, ?_, ?_, ?_, ?_⟩ <;> decide +kernel

/-- `up` with ED0 in a module warm reset where asked and the register values given. -/
def bootX (held : Option Bool) (regs : List (Reg × Word)) : State :=
  withX regs (fun p => { p with pwrgd := true, resets := held.elim [] (fun h => [(16, ⟨5, h⟩)]) }) id

/-- Hashes and signatures are constants of the configuration that nothing fixes, so no image and no token can be shown that passes them; images and tokens that fail are shown. -/
theorem witness_BootFirmwareAndManagement :
    (∀ h ∈ [none, some true, some false], unwatched (bootX h []) ∧ (bootX h []).power.ovAtBoot = false ∧ (bootX h []).power.pwrgd = true ∧ run0.power.pwrgd = false ∧ (bootX h []).memp.marked = [] ∧
      getF (bootX h []) .secBootStatus F.secBootStatus_stage = 0 ∧ ((bootX h []).power.resets.get? 16).any (·.held) = h.getD false) ∧
    ((imageFault up []).isSome = true ∧ (imageFault up (List.replicate 0x3000 0)).isSome = true ∧ tokenGood up (List.replicate 5389 0) = false) ∧
    (inRecovery up = false ∧ inRecovery (bootX none [(.secBootStatus, F.secBootStatus_stage.into 0 7)]) = true ∧ up.sec.retried.contains 3 = false ∧
      ({ up with sec := { up.sec with retried := [3] } }).sec.retried.contains 3 = true) ∧
    (let asks : BitVec 32 := (F.secFwCtl_length_pages.into (F.secFwCtl_go.into 0 1) 3).setWidth 32
     F.secFwCtl_go.of (asks.setWidth 64) = 1 ∧ F.secFwCtl_length_pages.of (asks.setWidth 64) = 3 ∧ getF up .secFwCtl F.secFwCtl_status = 0 ∧
      getF (bootX none [(.secFwCtl, F.secFwCtl_status.into 0 3)]) .secFwCtl F.secFwCtl_status = 3 ∧ mapped up 0 (3 * 4096) = true ∧ memoryRefuses up 16 [(0, 3 * 4096)] [] = none ∧
      up.memp.faults = [] ∧ up.memp.dead = [] ∧ ∀ d < 16, flag up (.memDieInjectCtl d) F.memDieInjectCtl_arm = false) ∧
    (getF up .secRecoveryCtl F.secRecoveryCtl_status = 0 ∧ F.secRecoveryCtl_commit.of (F.secRecoveryCtl_commit.into 0 1) = 1) ∧
    (getF up .secSvn F.secSvn_image = 0 ∧ getF (bootX none [(.secSvn, F.secSvn_image.into 0 9)]) .secSvn F.secSvn_image = 9 ∧ up.sec.svn < 9 ∧
      F.secDebugToken_go.of (F.secDebugToken_go.into 0 1) = 1 ∧ mapped up 0 5389 = true ∧ memoryRefuses up 16 [(0, 5389)] [] = none) ∧
    (flag up .opxConfig F.opxConfig_mode = false ∧ flag (bootX none [(.opxConfig, F.opxConfig_mode.into 0 1)]) .opxConfig F.opxConfig_mode = true) ∧
    (∀ k < 4, ({ up with sec := { up.sec with spdm := [(1, k)], measured := [[1]] } }).sec.spdm.get 1 0 = k) ∧ up.sec.measured = [] := by
  refine ⟨?_, ?_, ?_, ?_, ?_, ?_, ?_, ?_⟩
  · intro h hh
    refine ⟨unwatched_of ?_, ?_⟩ <;> (revert h; decide +kernel)
  all_goals decide +kernel

/-! ### The spec's worked examples -/

/-- 03_cores_runners.md, Worked example: two bundles. The first, issued with s5 0 and a2 at the folio, gives s5 64, sends the load and moves a2 on by 4,096; the second is LI's encoding, and
its slots decode; the three slots' values are the encodings of the three instructions. -/
theorem test_two_bundles :
    (match coreIssue 0 { run0 with
        progs := [(0, ⟨[0], [0x0020_0145_0040_0401_8440_0040_0090_1000, 0]⟩)]
        runners := [(0, { Runner.free with state := .ready, census := 0xFFFF, a := [(2, 0x1100_0000_0000)] })] } with
      | t => sReg t 0 5 == 64 && t.accesses.map (fun x => (x.chunks.map (·.2)).foldl (· + ·) 0) == [4096] && aReg t 0 2 == 0x1100_0000_1000 && (runnerAt t 0).pc == 1) = true ∧
      bundleOf (.vfma 0 0 ⟨3, 1, 2, 0, false, 0, 0, none⟩) = some ((0x04_0184_4000 : BitVec 128) <<< 40) ∧ bundleOf (.vld 0 0 1 2 0 true) = some 0x40_0090_1000 ∧
      bundleOf (.li 0 2 10 0x1000_3200_0000) = some 0x0127_2280_0000_0010_0032_0000_0000_0000 ∧
      (bundleSlots 0 0x0127_2280_0000_0010_0032_0000_0000_0000).all (fun p => p.2.isSome) = true ∧ (bundleSlots 0 0x0120_0145_0040_0000_0000_0040_0000_0001).any (fun p => p.2.isNone) = true :=
  by decide +kernel

/-- 02_address_space.md, R50's table of windows, and the well of (CD6, cluster 2). -/
theorem test_addresses : ownerOf up 0x60_0012_3456 = some 1 ∧ ownerOf up 0x180_0000_0000 = some 4 ∧ ownerOf up 0x2A0_BFFF_FFFF = some 7 ∧
    placeOf up 0x1000_3200_0008 = .well 6 2 8 := by decide +kernel

/-- Table 4.9: the tie of K-step 1 in FP20, the promotion and the two drains. -/
theorem test_fp20_tie :
    fp20Add 0 (.pow2 0) = 0x3_F800 ∧ fp20Add 0x3_F800 (.fin false 3 (-12)) = 0x3_F802 ∧
      rne32 ((f32 0x3E80_0000).add (((f32 0x3F00_0000).mul (f32 0x3F80_0000)).mul (fp20Val 0x3_F802))) = 0x3F40_2000 ∧
      (drainElem false none 1 0 0x3F40_2000 0).code = 0x3F40 ∧ (drainElem false none 0 0 0x3F40_2000 0).code = 0x3F40_2000 := by decide +kernel

/-- Table 4.10: 61,440 drained to E5M2, by RNE, RTZ and SR with the least and the greatest draw. -/
theorem test_e5m2_edges :
    (drainElem false none 4 0 0x4770_0000 0).code = 0x7C ∧ (drainElem false none 4 0 0x4770_0000 0).bad = true ∧ (drainElem false none 4 1 0x4770_0000 0).code = 0x7B ∧
      (drainElem false none 4 2 0x4770_0000 0).code ≠ (drainElem false none 4 2 0x4770_0000 0xFFFF_FFFF).code := by decide +kernel

/-- 05_vector_engine.md, Worked example: one FP4 block. -/
theorem test_fp4_block :
    mxScale 7 [0x4040_0000, 0xC120_0000, 0x3F00_0000, 0] = 0x80 ∧ [0x4040_0000, 0xC120_0000, 0x3F00_0000, 0].map (fun x => mxElem 7 0 0x80 x 0) = [0x3, 0xE, 0, 0] ∧
      [0x3, 0xE, 0, 0].map (mxExpand 7 0x80) = [0x4040_0000, 0xC100_0000, 0, 0] := by decide +kernel

/-- 05_vector_engine.md, Worked example: five rows: rows 1 to 4 of VSOFTMAX (row 0 is free within the accuracy of R158). -/
theorem test_softmax_rows :
    let one (l : List Nat) (n : Nat) := softmaxRow ((List.range 32).map (· < n)) (l ++ List.replicate (32 - l.length) 0x3F80_0000)
    one [] 0 = (List.replicate 32 0, 0xFF80_0000) ∧
      one [0, 0, 0, 0, 0, 0x7F80_0000, 0xFF80_0000, 0, 0, 0x7F80_0000] 32 = ((List.range 32).map (fun i => if i = 5 ∨ i = 9 then 0x3F00_0000 else 0), 0x7F80_0000) ∧
      one [0x3F80_0000, 0x7F80_0001] 2 = (List.replicate 32 0x7FC0_0000, 0x7FC0_0000) ∧ one [0xFF80_0000, 0xFF80_0000] 2 = (List.replicate 32 0, 0xFF80_0000) := by decide +kernel

/-- 07_laps.md, Worked example: one clip factor. -/
theorem test_clip_factor : clipResult 0x1900_0000_0000 (-20) 0 0x3F80_0000 = (0x40A0_0000, 0x3E4C_CCCD, false) := by decide +kernel

/-- Table 8.8 and the landings after it: conversion of 0.1 at 2^-25, the residues, the clamp. -/
theorem test_four_contributors :
    toInteger .rne (-tallyTop) tallyTop ((f32 0x3DCC_CCCD).mul (.pow2 25)) = (0x33_3333, false) ∧ rne32 ((f32 0x3DCC_CCCD).add ((Val.ofInt 0x33_3333).mul (.pow2 (-25))).neg) = 0x3200_0000 ∧
      [[0x2800_0000, 0x0180_0000], [0x2800_0000, 0xFF00_0000], [0x2800_0000, 0x0080_0000], [0x2800_0000, 0x0033_3333], [0x7FFF_FFFF, 0x0133_3333]].map residueOf =
        [28318, 18718, 24478, 36430, 50584] ∧
      tallyWord 0x7800_0000 0x2800_0000 = (0x7FFF_FFFF, true) ∧ tallyWord 0x0180_0000 0xFF00_0000 = (0x0080_0000, false) := by decide +kernel

/-- Queue 3 of the grant's worked example (14_host.md): its descriptor 17 in the ring, or its completion to write. -/
def grantX (entry : Bool) : State :=
  { up with
    blotter := { up.blotter with events := [] }
    mem := Mem.write [] (hostBase + 0x4_0000 + 17 * 64) ([0x80, 1, 0, 0, 0x42, 0, 0, 0, 0x10, 7, 0, 0, 0, 0, 0, 0, 0, 0, 0, 0, 0x80, 1, 0, 0, 0, 0, 0, 0xC0] : List Byte)
    host := { up.host with
      queues := [(3, { Queue.absent with state := .running, sqBase := 0x4_0000, cqBase := 0x8_0000, sqLog := 10, cqLog := 10, priv := true, sqHead := if entry then 18 else 17, sqTail := 18, cqTail := 5 })]
      entries := if entry then [⟨⟨9, 3, 17, 0x42, true, 0x80⟩, 0, 0, []⟩] else [] } }

/-- The fetch of descriptor 17 installs window 16 (R51, R53). -/
theorem test_grant : (match exec (.descriptorFetch 3 true) (grantX false) with
    | .next t => t.windows.get? 16 == some ⟨0x180_0000_0000, 0xC000_0000, 7, 0, 0, some 1, false, []⟩ && t.host.entries.length == 1 && (queueAt t 3).sqHead == 18
    | _ => false) = true := by decide +kernel

/-- The completion goes to index 5 with the bytes of the example. -/
theorem test_grant_completion : (match exec (.completionWrite 3) (grantX true) with
    | .next t => Mem.read t.mem (hostBase + 0x8_0000 + 5 * 64) 12 == [0x42, 0, 0, 0, 3, 0, 18, 0, 1, 0, 0, 0] && (queueAt t 3).cqTail == 6
    | _ => false) = true := by decide +kernel

/-- Table 15.2: at Stride a die at rung 4 runs its cores at 0.75 GHz, at rung 3 at 0.9375 GHz. -/
theorem test_thermal_step :
    (match exec (.rateThrottle 9 78) { up with runners := [] } with | .next t => t.power.rungs.get 36 0 == 4 && (viewReg t (.pwrDieThrottle 9)).toNat % 8 == 4 | _ => false) = true ∧
    ([3, 4].map (fun r => match exec (.adaptiveClockAdjust (9 * 64) 2000000) { up with power := { up.power with rungs := [(36, r)] } } with
      | .next t => t.power.islands.get (9 * 64) 0 | _ => 0)) = [937500, 750000] := by decide +kernel

/-- 15_clocks_resets.md, after R435: d is 110 ns and θ is −10 ns. -/
theorem test_split : (match exec (.timeMessage ⟨0, true⟩ ⟨0, 0x35, 9, 2000000500, 0, 7, 2000000120, 0, 2⟩)
      (timeX 0x35 [] (fun c => { c with splits := [(0, ⟨7, 2000000000 * 65536, 9, 2000000600 * 65536⟩)] })) with
    | .next t => getF t .timStatus F.timStatus_delay == 110 && getF t .timStatus F.timStatus_offset == 65526 && t.clock.steer == 10 * 65536
    | _ => false) = true := by decide +kernel

/-- R159: a generator of state 1, 2, 3, 4 draws rotl(1 + 4, 7) + 1. -/
theorem test_draw : (draw 0x00000004_00000003_00000002_00000001).1 = 641 := by decide +kernel

/-- A step takes the command in front, here a NOP descriptor of queue 0, and leaves the next. -/
theorem test_step : (match step { up with pending := [.nopDescriptor hd, .coreResetComplete] } with
    | .next t => t.pending.length == 1 && t.host.entries.length == 1 | _ => false) = true := by decide +kernel

/-- The worked example of R490. -/
theorem test_label : String.ofList (labelSymbol { State.reset with sec := { State.reset.sec with part := ⟨0, 0, 1, 0, 0x1F3D_2416_0000_0A2C⟩ } } 2026 14) =
    "ZK2416-GA|1F3D_2416_0000_0A2C|B0|2614" := by
  decide +kernel

/-- Table 17.9: booting blinks the status indicator; recovery turns it off and blinks the fault indicator. -/
theorem test_indicators : indicators State.reset = (.blink, .off) ∧ indicators { State.reset with regs := [(.secBootStatus, F.secBootStatus_stage.into 0 7)] } = (.off, .blink) := by
  decide +kernel
end Sys2Proof.Tests
end

section
/-! SUPPORT. The fields of the registers share no bit, and what a fold over the fields of a register leaves in each of them. -/

open Sys2Proof Sys2Proof.Machine

namespace Sys2Proof.Machine

/-! ### Fields of one register -/

/-- Every field of the setup window lies within 64 bits, and its cold value within its width. -/
theorem Reg.fields_fit {r : Reg} {f : Fld} (h : f ∈ r.fields) : f.lo + f.width ≤ 64 ∧ f.cold < 2 ^ f.width := by
  have e : r.fields.all (fun f => decide (f.lo + f.width ≤ 64 ∧ f.cold < 2 ^ f.width)) = true := by cases r <;> rfl
  exact of_decide_eq_true (List.all_eq_true.mp e f h)

/-- Two fields of one register share no bit. -/
theorem Reg.fields_apart (r : Reg) : r.fields.Pairwise (fun f g => f.apart g = true) :=
  of_decide_eq_true (by cases r <;> rfl)

/-- The fields of a 32-bit register start in its 32 bits. -/
theorem Reg.narrow_fields {r : Reg} (hr : r.wide = false) {f : Fld} (h : f ∈ r.fields) : f.lo < 32 := by
  have e : (r.wide || r.fields.all (fun f => decide (f.lo < 32))) = true := by cases r <;> rfl
  rw [hr, Bool.false_or] at e
  exact of_decide_eq_true (List.all_eq_true.mp e f h)

theorem Fld.apart_comm (f g : Fld) : f.apart g = g.apart f := by
  simp only [Fld.apart, or_comm]

/-- Two different fields of one register share no bit, whichever stands first. -/
theorem Reg.fields_apart_of_ne {r : Reg} {f g : Fld} (hf : f ∈ r.fields) (hg : g ∈ r.fields) (h : f ≠ g) : f.apart g = true := by
  have hp : r.fields.Pairwise (fun f g => f ≠ g → f.apart g = true) := r.fields_apart.imp (by intro f g ha _; exact ha)
  have hq : r.fields.Pairwise (fun f g => g ≠ f → g.apart f = true) := r.fields_apart.imp (by intro f g ha _; exact (Fld.apart_comm g f).trans ha)
  exact hp.forall_of_forall_of_flip (fun f _ hne => absurd rfl hne) hq hf hg h

theorem Fld.of_lt (f : Fld) (w : Word) : f.of w < 2 ^ f.width := Nat.mod_lt _ (Nat.two_pow_pos _)

/-- A fold keeps what each of its steps keeps. -/
theorem foldl_keeps {α β γ : Type} (p : β → γ) {step : β → α → β} {l : List α} (h : ∀ x ∈ l, ∀ b, p (step b x) = p b) (b : β) :
    p (l.foldl step b) = p b := by
  induction l generalizing b with
  | nil => rfl
  | cons x l ih => rw [List.foldl_cons, ih (fun y hy => h y (List.mem_cons_of_mem _ hy)), h x List.mem_cons_self]

/-- A fold over fields that share no bit leaves in one of them what its own step makes of it. -/
theorem Fld.of_foldl_mem {f : Fld} {step : Word → Fld → Word} {l : List Fld} {x : Nat} (hp : l.Pairwise (fun f g => f.apart g = true)) (hf : f ∈ l)
    (ha : ∀ g ∈ l, f.apart g = true → ∀ w, f.of (step w g) = f.of w) (w : Word) (hx : ∀ w', f.of w' = f.of w → f.of (step w' f) = x) :
    f.of (l.foldl step w) = x := by
  induction l generalizing w with
  | nil => cases hf
  | cons g l ih =>
    obtain ⟨hg, hl⟩ := List.pairwise_cons.mp hp
    rcases List.mem_cons.mp hf with rfl | hf
    · rw [List.foldl_cons, foldl_keeps f.of (fun k hk => ha k (List.mem_cons_of_mem _ hk) (hg k hk)), hx w rfl]
    · have e : f.of (step w g) = f.of w := ha g List.mem_cons_self (by rw [Fld.apart_comm]; exact hg f hf) w
      rw [List.foldl_cons]
      exact ih hl hf (fun k hk => ha k (List.mem_cons_of_mem _ hk)) _ (fun w' h => hx w' (h.trans e))

/-! ### Cold values -/

/-- A field that is 0 in a word takes its cold value where that is put in, and a field apart from it keeps its own. -/
theorem Fld.of_or_cold (f g : Fld) (w : Word) (hc : g.cold < 2 ^ g.width) (ha : f.apart g = true) :
    f.of (w ||| (BitVec.ofNat 64 g.cold <<< g.lo)) = f.of w := by
  apply Nat.eq_of_testBit_eq
  intro i
  simp only [Fld.of_bit, BitVec.getLsbD_or, BitVec.getLsbD_shiftLeft, BitVec.getLsbD_ofNat]
  by_cases hi : i < f.width ∧ g.lo ≤ f.lo + i
  · have hw : g.width ≤ f.lo + i - g.lo := by
      simp only [Fld.apart, decide_eq_true_eq] at ha
      omega
    simp [Nat.testBit_lt_two_pow (Nat.lt_of_lt_of_le hc (Nat.pow_le_pow_right (by omega) hw))]
  · by_cases h1 : i < f.width
    · have h2 : f.lo + i < g.lo := by omega
      simp [h2]
    · simp [h1]

theorem Fld.of_or_cold_self (f : Fld) (w : Word) (hf : f.lo + f.width ≤ 64) (hc : f.cold < 2 ^ f.width) (hw : f.of w = 0) :
    f.of (w ||| (BitVec.ofNat 64 f.cold <<< f.lo)) = f.cold := by
  apply Nat.eq_of_testBit_eq
  intro i
  have h0 : (f.of w).testBit i = false := by rw [hw, Nat.zero_testBit]
  rw [Fld.of_bit] at h0
  simp only [Fld.of_bit, BitVec.getLsbD_or, BitVec.getLsbD_shiftLeft, BitVec.getLsbD_ofNat]
  by_cases hi : i < f.width
  · have h1 : f.lo + i < 64 := by omega
    have h2 : i < 64 := by omega
    rw [decide_eq_true hi, Bool.true_and] at h0
    rw [h0]
    simp [hi, h1, h2]
  · simp [hi, Nat.testBit_lt_two_pow (Nat.lt_of_lt_of_le hc (Nat.pow_le_pow_right (by omega) (Nat.le_of_not_lt hi)))]

/-- A register's cold value holds the cold value of each of its fields. -/
theorem Fld.of_coldOf {r : Reg} {f : Fld} (h : f ∈ r.fields) : f.of (coldOf r) = f.cold := by
  obtain ⟨hf, hc⟩ := Reg.fields_fit h
  refine Fld.of_foldl_mem r.fields_apart h (fun g hg ha w => ?_) 0 (fun w' hw => Fld.of_or_cold_self f w' hf hc ?_)
  · exact Fld.of_or_cold f g w (Reg.fields_fit hg).2 ha
  · simpa [Fld.of] using hw

/-! ### What a write by the access codes leaves -/

/-- What a write of `v` makes of a field by its access code (Table 0.3). -/
def Fld.after (f : Fld) (old v : Word) : Nat :=
  match f.acc with
  | .rw => f.of v
  | .rwl => f.of v
  | .w1c => f.of old ^^^ (f.of old &&& f.of v)
  | .w1s => f.of old ||| f.of v
  | .ro => f.of old
  | .wo => f.of old
  | .rc => f.of old

/-- A write leaves each field of its register as the field's access code gives. -/
theorem Fld.of_written {r : Reg} {f : Fld} (h : f ∈ r.fields) (old v : Word) : f.of (written r old v) = f.after old v := by
  have hf := (Reg.fields_fit h).1
  have hv := f.of_lt v
  have ho := f.of_lt old
  refine Fld.of_foldl_mem r.fields_apart h (fun g hg ha w => ?_) old (fun w' hw => ?_)
  · have hfit := (Reg.fields_fit hg).1
    cases g.acc <;> simp only [Fld.of_into_apart f g w _ hfit ha]
  · cases hacc : f.acc <;> simp only [Fld.after, hacc]
    case rw => exact Fld.of_into_self f w' _ hf hv
    case rwl => exact Fld.of_into_self f w' _ hf hv
    case w1c => exact Fld.of_into_self f w' _ hf (Nat.xor_lt_two_pow ho (Nat.and_lt_two_pow _ hv))
    case w1s => exact Fld.of_into_self f w' _ hf (Nat.or_lt_two_pow ho hv)
    all_goals exact hw

/-- A write leaves the bits outside the fields of its register (R12). -/
theorem written_bit_outside (r : Reg) (old v : Word) (i : Nat) (h : ∀ g ∈ r.fields, ¬(g.lo ≤ i ∧ i < g.lo + g.width)) :
    (written r old v).getLsbD i = old.getLsbD i := by
  refine foldl_keeps (fun w : Word => w.getLsbD i) (fun g hg w => ?_) old
  have step : ∀ x, (g.into w x).getLsbD i = w.getLsbD i := fun x => by
    rw [Fld.into_bit g w x i (Reg.fields_fit hg).1, if_neg (h g hg)]
  cases g.acc <;> simp only [step]

/-- A write of a register whose every bit is in an RW field leaves the value written. -/
theorem written_full {r : Reg} (h : ∀ i < 64, ∃ f ∈ r.fields, f.acc = .rw ∧ f.lo ≤ i ∧ i < f.lo + f.width) (old v : Word) : written r old v = v := by
  apply BitVec.eq_of_getLsbD_eq
  intro i hi
  obtain ⟨f, hf, hacc, hlo, hhi⟩ := h i hi
  have e : (f.of (written r old v)).testBit (i - f.lo) = (f.of v).testBit (i - f.lo) := by
    rw [Fld.of_written hf, Fld.after, hacc]
  have hw : i - f.lo < f.width := by omega
  have hi' : f.lo + (i - f.lo) = i := by omega
  simpa only [Fld.of_bit, hw, decide_true, Bool.true_and, hi'] using e

end Sys2Proof.Machine
end

section
/-! PROOFS. The machine as a whole: a step takes the command at the front, and the state after a cold reset. -/

open Sys2Proof Sys2Proof.Machine

namespace Sys2Proof.Machine

/-- After a cold reset a field holds its cold value (R13). -/
theorem getF_reset {r : Reg} {f : Fld} (h : f ∈ r.fields) : getF State.reset r f = f.cold := Fld.of_coldOf h

end Sys2Proof.Machine

namespace Sys2Proof.Proofs

/-- Settles O1: `step` matches on the queue, and each of its two forms is the arm taken. -/
theorem stepTakesFrontCommand : Obligations.StepTakesFrontCommand := fun _ _ _ => ⟨rfl, rfl⟩

/-- Settles O3: no register is listed after a cold reset, so that each field holds its cold value; the rest are the empty tables of `State.reset`. -/
theorem resetState : Obligations.ResetState :=
  ⟨reset_mem_wf, rfl, rfl, fun _ _ h _ _ => getF_reset h, fun _ => rfl, fun _ => rfl, rfl, rfl, rfl,
    getF_reset (r := .devScratch) (by simp [Reg.fields]), getF_reset (r := .devSetupLock) (by simp [Reg.fields]),
    getF_reset (r := .devStallTimeout) (by simp [Reg.fields]), getF_reset (r := .devStallTimeout) (by simp [Reg.fields]),
    getF_reset (r := .devStallTimeout) (by simp [Reg.fields]), getF_reset (r := .devStallTimeout) (by simp [Reg.fields])⟩

end Sys2Proof.Proofs
end

section
/-! SUPPORT. Accesses of BAR0: which register, half or nothing an access of each size and offset meets, and what a read leaves (R9, R10, R12, R39, R40). -/

open Sys2Proof Sys2Proof.Machine

namespace Sys2Proof.Machine

/-! ### The registers that a write acts on -/

/-- An offset at which a write is one of registers: outside the MSI-X table and the recovery window. -/
def writesReg (off : Nat) : Prop := ¬(0x18000 ≤ off ∧ off < 0x19000) ∧ ¬(0xC0000 ≤ off ∧ off < 0x100000)

/-- An offset at which a read is one of registers: outside the MSI-X table and its pending bits. -/
def readsReg (off : Nat) : Prop := ¬(0x18000 ≤ off ∧ off < 0x1A000)

/-- The value that a 32-bit write at a register's offset gives it. -/
def lowVal (s : State) (r : Reg) (n : Nat) : Word := if r.wide then halfWord s r false n else BitVec.ofNat 64 (n % 2 ^ 32)

theorem writeWord_low {off : Nat} {r : Reg} (n : Nat) (s : State) (ho : writesReg off) (h : regAt off = some r) :
    writeWord off n s = regWrite r (fun s => writeAt r (lowVal s r n) s) s := by
  simp only [writeWord, if_neg ho.1, if_neg ho.2, h, lowVal]

theorem writeWord_high {off : Nat} {r : Reg} (n : Nat) (s : State) (ho : writesReg off) (h : regAt off = none) (hr : regAt (off - 4) = some r)
    (h8 : off % 8 = 4) (hw : r.wide = true) : writeWord off n s = regWrite r (fun s => writeAt r (halfWord s r true n) s) s := by
  simp only [writeWord, if_neg ho.1, if_neg ho.2, h, hr, h8, hw, and_self, if_true]

theorem writeWord_unassigned {off : Nat} (n : Nat) (s : State) (ho : writesReg off) (h : regAt off = none) (hr : regAt (off - 4) = none) :
    writeWord off n s = s := by
  simp only [writeWord, if_neg ho.1, if_neg ho.2, h, hr]

theorem barWrite_four {off : Nat} (v : Word) (s : State) (h : off % 4 = 0) : barWrite off 4 v s = writeWord off (v.toNat % 2 ^ 32) s := by
  simp [barWrite, h]

theorem barWrite_wide {off : Nat} {r : Reg} (v : Word) (s : State) (h8 : off % 8 = 0) (h : regAt off = some r) (hw : r.wide = true) :
    barWrite off 8 v s = regWrite r (writeAt r v) s := by
  simp [barWrite, h8, h, hw]

theorem barWrite_pair {off : Nat} (v : Word) (s : State) (h8 : off % 8 = 0) (h : regAt off = none) :
    barWrite off 8 v s = writeWord (off + 4) (v.toNat / 2 ^ 32) (writeWord off (v.toNat % 2 ^ 32) s) := by
  simp [barWrite, h8, h]

/-- A write of another size or alignment is ignored (R9). -/
theorem barWrite_misfit {off size : Nat} (v : Word) (s : State) (h4 : ¬(size = 4 ∧ off % 4 = 0)) (h8 : ¬(size = 8 ∧ off % 8 = 0)) :
    barWrite off size v s = s := by
  simp only [barWrite, if_neg h4, if_neg h8]

/-- A write of an ordinary register acts by the access codes of its fields alone. -/
theorem writeAt_ordinary {r : Reg} (h : ordinary r = true) (v : Word) (s : State) : writeAt r v s = fieldsWrite r v s := by
  cases r <;> simp only [ordinary, Bool.false_eq_true] at h <;> rfl

/-- The setup lock says nothing to a register without RWL fields (R501). -/
theorem fieldsWrite_unlocked {r : Reg} (h : ∀ f ∈ r.fields, f.acc ≠ .rwl) (v : Word) (s : State) :
    fieldsWrite r v s = setReg s r (written r (regVal s r) v) := by
  have e : r.fields.filter (·.acc == .rwl) = [] := List.filter_eq_nil_iff.mpr (fun f hf => by simpa using h f hf)
  simp [fieldsWrite, lockNote, changesLocked, lockedVal, e]

/-! ### The registers that a read meets -/

theorem readWord_low {off : Nat} {r : Reg} (s : State) (ho : readsReg off) (h : regAt off = some r) :
    readWord off s = ((readReg r true false s).1.toNat % 2 ^ 32, (readReg r true false s).2) := by
  simp only [readWord, if_neg ho, h]

theorem readWord_high {off : Nat} {r : Reg} (s : State) (ho : readsReg off) (h : regAt off = none) (hr : regAt (off - 4) = some r)
    (h8 : off % 8 = 4) (hw : r.wide = true) : readWord off s = ((readReg r false true s).1.toNat / 2 ^ 32, (readReg r false true s).2) := by
  simp only [readWord, if_neg ho, h, hr, h8, hw, and_self, if_true]

theorem readWord_unassigned {off : Nat} (s : State) (ho : readsReg off) (h : regAt off = none) (hr : regAt (off - 4) = none) : readWord off s = (0, s) := by
  simp only [readWord, if_neg ho, h, hr]

theorem barRead_four {off : Nat} (s : State) (h : off % 4 = 0) :
    barRead off 4 s = { (readWord off s).2 with resp := BitVec.ofNat 64 (readWord off s).1 } := by
  simp [barRead, h]

theorem barRead_wide {off : Nat} {r : Reg} (s : State) (h8 : off % 8 = 0) (h : regAt off = some r) (hw : r.wide = true) :
    barRead off 8 s = { (readReg r true true s).2 with resp := (readReg r true true s).1 } := by
  simp [barRead, h8, h, hw]

theorem barRead_pair {off : Nat} (s : State) (h8 : off % 8 = 0) (h : regAt off = none) :
    barRead off 8 s = { (readWord (off + 4) (readWord off s).2).2 with
      resp := BitVec.ofNat 64 ((readWord off s).1 + (readWord (off + 4) (readWord off s).2).1 * 2 ^ 32) } := by
  simp [barRead, h8, h]

/-- A read of another size or alignment returns 0 (R9). -/
theorem barRead_misfit {off size : Nat} (s : State) (h4 : ¬(size = 4 ∧ off % 4 = 0)) (h8 : ¬(size = 8 ∧ off % 8 = 0)) :
    barRead off size s = { s with resp := 0 } := by
  simp only [barRead, if_neg h4, if_neg h8]

theorem readReg_inReset {r : Reg} (low high : Bool) {s : State} (h : inReset s r.holder = true) : readReg r low high s = (allOnes r, s) := by
  simp only [readReg, h, if_true]

theorem readReg_answers {r : Reg} (low high : Bool) {s : State} (h : dieAnswers s r.holder) :
    readReg r low high s = (viewReg s r, readEffect r low high s) := by
  simp [readReg, h.1, h.2]

theorem allOnes_low (r : Reg) : (allOnes r).toNat % 2 ^ 32 = 0xFFFFFFFF := by
  cases h : r.wide <;> simp [allOnes, h]

theorem allOnes_high {r : Reg} (h : r.wide = true) : (allOnes r).toNat / 2 ^ 32 = 0xFFFFFFFF := by
  simp [allOnes, h]

/-! ### What a read does to its register -/

theorem regVal_foldl_setF (r : Reg) (v : Fld → Nat) (l : List Fld) (s : State) :
    regVal (l.foldl (fun s f => setF s r f (v f)) s) r = l.foldl (fun w f => f.into w (v f)) (regVal s r) := by
  induction l generalizing s with
  | nil => rfl
  | cons f l ih => rw [List.foldl_cons, ih, setF, regVal_setReg_self, List.foldl_cons]

/-- What a read clears: the RC fields of the halves that are read. -/
def readClears (r : Reg) (low high : Bool) : List Fld := r.fields.filter (fun f => f.acc == .rc && (if f.lo < 32 then low else high))

/-- The first part of a read's effect: the RC fields that it clears take their cold values. -/
def clearRc (r : Reg) (low high : Bool) (s : State) : State := (readClears r low high).foldl (fun s f => setF s r f f.cold) s

theorem tagRead_keeps (p q : Nat) (s : State) : (tagRead p q s).regs = s.regs ∧ (tagRead p q s).mem = s.mem ∧ (tagRead p q s).runners = s.runners := by
  have key (w : Word) (f : Mbx → Mbx) (b : Bool) (t : State) (h : t = if b then modMbx f { s with resp := w } else { s with resp := w }) :
      t.regs = s.regs ∧ t.mem = s.mem ∧ t.runners = s.runners := by
    subst h
    cases b <;> exact ⟨rfl, rfl, rfl⟩
  unfold tagRead
  split
  · exact ⟨rfl, rfl, rfl⟩
  · split
    · exact key _ _ _ _ rfl
    · exact key _ _ _ _ rfl

/-- Beyond clearing fields, a read changes neither its own register nor memory nor runners. -/
theorem readEffect_keeps (r : Reg) (low high : Bool) (s : State) :
    regVal (readEffect r low high s) r = regVal (clearRc r low high s) r ∧ (readEffect r low high s).mem = (clearRc r low high s).mem ∧
      (readEffect r low high s).runners = (clearRc r low high s).runners := by
  unfold readEffect clearRc readClears
  dsimp only
  generalize List.foldl _ s _ = u
  have tag (q : Nat) : let t := if high then tagRead 0 q u else u
      regVal t r = regVal u r ∧ t.mem = u.mem ∧ t.runners = u.runners := by
    obtain ⟨hg, hm, hr⟩ := tagRead_keeps 0 q u
    cases high
    · exact ⟨rfl, rfl, rfl⟩
    · exact ⟨by simp only [regVal, if_true, hg], hm, hr⟩
  split
  · exact tag _
  · exact tag _
  · exact ⟨regVal_setF_ne u .timNowFrac .timNow _ _ (by decide), rfl, rfl⟩
  · exact ⟨rfl, rfl, rfl⟩

theorem readEffect_mem (r : Reg) (low high : Bool) (s : State) : (readEffect r low high s).mem = s.mem :=
  (readEffect_keeps r low high s).2.1.trans (foldl_keeps State.mem (step := fun s f => setF s r f f.cold) (fun _ _ _ => rfl) s)

theorem readEffect_runners (r : Reg) (low high : Bool) (s : State) : (readEffect r low high s).runners = s.runners :=
  (readEffect_keeps r low high s).2.2.trans (foldl_keeps State.runners (step := fun s f => setF s r f f.cold) (fun _ _ _ => rfl) s)

/-- An RC field in a half that is read takes its cold value (Table 0.3). -/
theorem getF_readEffect_rc {r : Reg} {f : Fld} {low high : Bool} (s : State) (h : f ∈ readClears r low high) : getF (readEffect r low high s) r f = f.cold := by
  have hr : ∀ g ∈ readClears r low high, g ∈ r.fields := fun g hg => (List.mem_filter.mp hg).1
  rw [getF, (readEffect_keeps r low high s).1, clearRc, regVal_foldl_setF]
  obtain ⟨hf, hc⟩ := Reg.fields_fit (hr f h)
  exact Fld.of_foldl_mem (r.fields_apart.filter _) h (fun g hg ha w => Fld.of_into_apart f g w _ (Reg.fields_fit (hr g hg)).1 ha) _
    (fun w' _ => Fld.of_into_self f w' _ hf hc)

/-- A read of a register as wide as itself clears every RC field of it. -/
theorem mem_readClears {r : Reg} {f : Fld} (hf : f ∈ r.fields) (ha : f.acc = .rc) : f ∈ readClears r true r.wide := by
  refine List.mem_filter.mpr ⟨hf, ?_⟩
  cases hw : r.wide
  · simp [ha, Reg.narrow_fields hw hf]
  · simp [ha]

end Sys2Proof.Machine
end


section
/-! PROOFS. BAR0 accesses and access codes. -/

open Sys2Proof Sys2Proof.Machine

namespace Sys2Proof.Machine

theorem exec_registerWrite (off size : Nat) (v : Word) (s : State) : exec (.registerWrite off size v) s = .next (barWrite off size v s) := rfl
theorem exec_rcFieldRead (off size : Nat) (s : State) : exec (.rcFieldRead off size) s = .next (barRead off size s) := rfl

/-- A register's die that answers is read whole: the view is returned, and the RC fields are cleared. -/
theorem barRead_register {off : Nat} {r : Reg} {s : State} (h4 : off % 4 = 0) (h : regAt off = some r) (h8 : r.wide = true → off % 8 = 0)
    (ho : readsReg off) (ha : dieAnswers s r.holder) :
    barRead off (if r.wide then 8 else 4) s = { readEffect r true r.wide s with
      resp := if r.wide then viewReg s r else BitVec.ofNat 64 ((viewReg s r).toNat % 2 ^ 32) } := by
  cases hw : r.wide
  · simp only [Bool.false_eq_true, if_false, barRead_four s h4, readWord_low s ho h, readReg_answers true false ha]
  · simp only [if_true, barRead_wide s (h8 hw) h hw, readReg_answers true true ha]

/-- An ordinary register without RWL fields whose die answers takes a write of its own size by its access codes. -/
theorem barWrite_register {off : Nat} {r : Reg} {s : State} (v : Word) (h4 : off % 4 = 0) (h : regAt off = some r) (h8 : r.wide = true → off % 8 = 0)
    (ho : writesReg off) (ha : dieAnswers s r.holder) (hr : ordinary r = true) (hl : ∀ f ∈ r.fields, f.acc ≠ .rwl) :
    barWrite off (if r.wide then 8 else 4) v s =
      setReg s r (written r (regVal s r) (if r.wide then v else BitVec.ofNat 64 (v.toNat % 2 ^ 32))) := by
  cases hw : r.wide
  · simp only [Bool.false_eq_true, if_false, barWrite_four v s h4, writeWord_low _ s ho h, regWrite_answers ha.1 ha.2, writeAt_ordinary hr,
      fieldsWrite_unlocked hl, lowVal, hw, Nat.mod_mod]
  · simp only [if_true, barWrite_wide v s (h8 hw) h hw, regWrite_answers ha.1 ha.2, writeAt_ordinary hr, fieldsWrite_unlocked hl]

/-- DEV_SCRATCH reports nothing but its own field. -/
theorem viewReg_devScratch (s : State) : viewReg s .devScratch = regVal s .devScratch := rfl

/-- A write of another register than PWR_STATE does not stop a die from answering. -/
theorem dieAnswers_setReg {s : State} {d : Nat} {r : Reg} (v : Word) (hr : r ≠ .pwrState) (h : dieAnswers s d) : dieAnswers (setReg s r v) d := by
  refine ⟨h.1, ?_⟩
  have e : getF (setReg s r v) .pwrState F.pwrState_state = getF s .pwrState F.pwrState_state := by
    rw [getF, regVal_setReg_ne s r .pwrState v hr.symm]; rfl
  simpa only [gatedNow, e] using h.2

/-- A 32-bit access at an unassigned offset reads 0 and writes nothing (R39). -/
theorem unassigned_four {s : State} {off : Nat} (v : Word) (h4 : off % 4 = 0) (hn : regAt off = none) (hp : regAt (off - 4) = none)
    (ox : readsReg off) (ow : writesReg off) :
    exec (.registerWrite off 4 v) s = .next s ∧ exec (.rcFieldRead off 4) s = .next { s with resp := 0 } := by
  rw [exec_registerWrite, exec_rcFieldRead, barWrite_four v s h4, barRead_four s h4, writeWord_unassigned _ s ow hn hp, readWord_unassigned s ox hn hp]
  exact ⟨rfl, rfl⟩

/-- So does a 64-bit access of which neither half is assigned. -/
theorem unassigned_eight {s : State} {off : Nat} (v : Word) (h8 : off % 8 = 0) (hn : regAt off = none) (hp : regAt (off - 4) = none)
    (hq : regAt (off + 4) = none) (ox : readsReg off) (ow : writesReg off) :
    exec (.registerWrite off 8 v) s = .next s ∧ exec (.rcFieldRead off 8) s = .next { s with resp := 0 } := by
  have ow' : writesReg (off + 4) := by unfold writesReg at *; omega
  have ox' : readsReg (off + 4) := by unfold readsReg at *; omega
  constructor
  · rw [exec_registerWrite, barWrite_pair v s h8 hn, writeWord_unassigned _ s ow hn hp, writeWord_unassigned _ s ow' hq hn]
  · simp only [exec_rcFieldRead, barRead_pair s h8 hn, readWord_unassigned s ox hn hp, readWord_unassigned s ox' hq hn]
    rfl

/-- A register of a die in reset reads all ones in its low 32 bits and ignores writes of them (R40). -/
theorem inReset_low {s : State} {off : Nat} {r : Reg} (v : Word) (h4 : off % 4 = 0) (h : regAt off = some r) (hres : inReset s r.holder = true)
    (ox : readsReg off) (ow : writesReg off) :
    exec (.registerWrite off 4 v) s = .next s ∧ exec (.rcFieldRead off 4) s = .next { s with resp := 0xFFFFFFFF } := by
  constructor
  · rw [exec_registerWrite, barWrite_four v s h4, writeWord_low _ s ow h, regWrite_away (.inl hres)]
  · simp only [exec_rcFieldRead, barRead_four s h4, readWord_low s ox h, readReg_inReset _ _ hres, allOnes_low]
    rfl

/-- So it does whole. -/
theorem inReset_whole {s : State} {off : Nat} {r : Reg} (v : Word) (h8 : off % 8 = 0) (h : regAt off = some r) (hw : r.wide = true)
    (hres : inReset s r.holder = true) :
    exec (.registerWrite off 8 v) s = .next s ∧ exec (.rcFieldRead off 8) s = .next { s with resp := BitVec.allOnes 64 } := by
  constructor
  · rw [exec_registerWrite, barWrite_wide v s h8 h hw, regWrite_away (.inl hres)]
  · simp only [exec_rcFieldRead, barRead_wide s h8 h hw, readReg_inReset _ _ hres, allOnes, hw, if_true]

/-- So it does in its high 32 bits. -/
theorem inReset_high {s : State} {off : Nat} {r : Reg} (v : Word) (h8 : off % 8 = 0) (h : regAt off = some r) (hw : r.wide = true)
    (hn : regAt (off + 4) = none) (hres : inReset s r.holder = true) (ox : readsReg off) (ow : writesReg off) :
    exec (.registerWrite (off + 4) 4 v) s = .next s ∧ exec (.rcFieldRead (off + 4) 4) s = .next { s with resp := 0xFFFFFFFF } := by
  have ow' : writesReg (off + 4) := by unfold writesReg at *; omega
  have ox' : readsReg (off + 4) := by unfold readsReg at *; omega
  have h4 : (off + 4) % 4 = 0 := by omega
  have hh : (off + 4) % 8 = 4 := by omega
  constructor
  · rw [exec_registerWrite, barWrite_four v s h4, writeWord_high _ s ow' hn h hh hw, regWrite_away (.inl hres)]
  · simp only [exec_rcFieldRead, barRead_four s h4, readWord_high s ox' hn h hh hw, readReg_inReset _ _ hres, allOnes_high hw]
    rfl

theorem regAt_devScratch : regAt 0x20 = some .devScratch := rfl

/-- A write of DEV_SCRATCH leaves the value written there. -/
theorem barWrite_devScratch {s : State} (v : Word) (ha : dieAnswers s 16) : barWrite 0x20 8 v s = setReg s .devScratch v := by
  have e : barWrite 0x20 8 v s = setReg s .devScratch (written .devScratch (regVal s .devScratch) v) :=
    barWrite_register (r := .devScratch) v rfl regAt_devScratch (fun _ => rfl) (by unfold writesReg; omega) ha rfl (by decide)
  rw [e, written_full (by decide)]

/-- A read of DEV_SCRATCH returns what it holds. -/
theorem barRead_devScratch {s : State} (ha : dieAnswers s 16) : (barRead 0x20 8 s).resp = regVal s .devScratch := by
  have e : barRead 0x20 8 s = { readEffect .devScratch true true s with resp := viewReg s .devScratch } :=
    barRead_register (r := .devScratch) rfl regAt_devScratch (fun _ => rfl) (by unfold readsReg; omega) ha
  rw [e]
  exact viewReg_devScratch s

end Sys2Proof.Machine

namespace Sys2Proof.Proofs

/-- Settles O6: each access is that of one register, of half of one, or of none; a register's fields share no bit, so that a write leaves each as its own code gives. -/
theorem registerAccess : Obligations.RegisterAccess := by
  unfold Obligations.RegisterAccess
  refine ⟨fun s off size v h4 h8 => ?_, fun s off v h4 hn hp ox hw => ?_, fun s off r v h4 h h8 hres ho => ?_, fun s off r h4 h h8 ha ho => ?_,
    fun r f old v hf => ?_, fun s off r v h4 h h8 ha hr hl ho => ?_, fun s off size v => ⟨⟨_, rfl⟩, _, rfl⟩, fun s v ha => ?_⟩
  · rw [exec_registerWrite, exec_rcFieldRead, barWrite_misfit v s h4 h8, barRead_misfit s h4 h8]
    exact ⟨rfl, rfl⟩
  · have ow : writesReg off := ⟨by omega, hw⟩
    obtain ⟨hwr, hrd⟩ := unassigned_four v h4 hn hp ox ow
    exact ⟨hwr, hrd, fun h8 hq => unassigned_eight v h8 hn hp hq ox ow⟩
  · have ow : writesReg off := by unfold writesReg; omega
    have ox : readsReg off := by unfold readsReg; omega
    obtain ⟨hwr, hrd⟩ := inReset_low v h4 h hres ox ow
    refine ⟨hwr, hrd, fun hw => ?_⟩
    obtain ⟨hwr8, hrd8⟩ := inReset_whole v (h8 hw) h hw hres
    exact ⟨hwr8, hrd8, fun hn => inReset_high v (h8 hw) h hw hn hres ox ow⟩
  · have ox : readsReg off := by unfold readsReg; omega
    refine ⟨_, congrArg Host.Outcome.next (barRead_register h4 h h8 ox ha), fun hw => ?_, fun hw => ?_, readEffect_mem r _ _ s, readEffect_runners r _ _ s,
      fun f hf hrc => getF_readEffect_rc s (mem_readClears hf hrc)⟩
    · simp only [hw, if_true]
    · simp only [hw, Bool.false_eq_true, if_false]
  · have e := Fld.of_written hf old v
    refine ⟨?_, ?_, fun ha i hi => ?_, fun ha i hi => ?_, fun i hi => written_bit_outside r old v i hi⟩
    · rintro (ha | ha) <;> rw [e, Fld.after, ha]
    · rintro (ha | ha | ha) <;> rw [e, Fld.after, ha]
    · rw [e, Fld.after, ha]
      cases hb : (f.of old).testBit i <;> simp [hb]
    · rw [e, Fld.after, ha, Nat.testBit_or]
  · have ow : writesReg off := by unfold writesReg; omega
    rw [exec_registerWrite, barWrite_register v h4 h h8 ow ha hr hl]
  · have hval : regVal (setReg s .devScratch v) .devScratch = v := regVal_setReg_self s _ v
    have hans : dieAnswers (setReg s .devScratch v) 16 := dieAnswers_setReg v (by decide) ha
    refine ⟨_, congrArg Host.Outcome.next (barWrite_devScratch v ha), ?_, rfl, rfl, fun r hr => regVal_setReg_ne s _ r v hr, _, rfl, ?_⟩
    · rw [getF, hval]
      exact Nat.mod_eq_of_lt v.isLt
    · rw [barRead_devScratch hans, hval]

end Sys2Proof.Proofs
end


section
/-! SUPPORT. What a raising leaves where no watch is enabled: one count more, a record unless suppressed, and nothing outside the registers and the blotter (R495, R496, R498). -/

open Sys2Proof Sys2Proof.Machine Sys2Proof.Claims

namespace Sys2Proof.Machine

theorem flag_congr {s t : State} {r : Reg} (h : regVal t r = regVal s r) (f : Fld) : flag t r f = flag s r f := by
  unfold flag getF
  rw [h]

/-- With no watch enabled a raising is its own record and no other. -/
theorem raise_unwatched {s : State} (e : Err) (h : unwatched s) : raise e s = record e s := by
  have hn : (List.range 16).filter (watches s e.code) = [] :=
    List.filter_eq_nil_iff.mpr (fun i hi => by simp [watches, h i (List.mem_range.mp hi)])
  simp only [raise, raiseN, hn, List.foldl_nil]

/-- A record changes registers and the blotter alone. -/
theorem record_frame (e : Err) (s : State) : ∃ g b, record e s = { s with regs := g, blotter := b } := by
  unfold record
  dsimp only
  split
  · exact ⟨_, s.blotter, rfl⟩
  · exact ⟨_, _, rfl⟩

/-- A record changes no register but its code's counter and ERR_RING_STATUS. -/
theorem regVal_record {r : Reg} (e : Err) (s : State) (hc : r ≠ .errCount (countIndex e.code)) (hr : r ≠ .errRingStatus) :
    regVal (record e s) r = regVal s r := by
  have hb := regVal_bumpF_ne s (.errCount (countIndex e.code)) r F.errCount_count 1 hc
  unfold record
  dsimp only
  split
  · rw [regVal_bumpF_ne _ _ _ _ _ hr, hb]
  · rw [regVal_setF_ne _ _ _ _ _ hr, regVal_setF_ne _ _ _ _ _ hr]
    exact hb

/-- A record adds one to its code's counter, which holds at its greatest value (R498). -/
theorem getF_record_count (e : Err) (s : State) : getF (record e s) (.errCount (countIndex e.code)) F.errCount_count =
    min (getF s (.errCount (countIndex e.code)) F.errCount_count + 1) (2 ^ F.errCount_count.width - 1) := by
  have hb : getF (bumpF s (.errCount (countIndex e.code)) F.errCount_count 1) (.errCount (countIndex e.code)) F.errCount_count =
      min (getF s (.errCount (countIndex e.code)) F.errCount_count + 1) (2 ^ F.errCount_count.width - 1) :=
    getF_setF_self s _ _ _ (by decide) (Nat.lt_of_le_of_lt (Nat.min_le_right _ _) (by decide))
  rw [← hb]
  unfold record
  dsimp only
  split
  · rw [bumpF, getF_setF_ne _ _ _ _ _ _ (by simp)]
  · rw [getF_setF_ne _ _ _ _ _ _ (by simp), getF_setF_ne _ _ _ _ _ _ (by simp)]
    rfl

/-- A raising in a state with the registers of an unwatched one: its code's counter is one higher, and nothing but registers and the blotter changes. -/
theorem raise_recorded {s u : State} {code : Nat} (e : Err) (h : unwatched s) (hg : u.regs = s.regs) (hc : e.code = code) :
    recorded s (raise e u) code ∧ ∃ g b, raise e u = { u with regs := g, blotter := b } := by
  have hv : ∀ r, regVal u r = regVal s r := fun r => by simp only [regVal, hg]
  have hu : unwatched u := fun i hi => (flag_congr (hv _) _).trans (h i hi)
  rw [raise_unwatched e hu]
  refine ⟨?_, record_frame e u⟩
  subst hc
  simpa only [recorded, getF, hv] using getF_record_count e u

/-- What a stall check leaves: one raising, in a state with the registers of an unwatched one, that changes no request that waits. -/
theorem raised_recorded {s t u : State} {code : Nat} (h : unwatched s) (ht : ∃ e : Err, e.code = code ∧ t = raise e u) (hg : u.regs = s.regs) :
    recorded s t code ∧ t.heat = u.heat ∧ t.relays = u.relays ∧ t.shares = u.shares ∧ t.lap = u.lap := by
  obtain ⟨e, hc, rfl⟩ := ht
  obtain ⟨hrec, g, b, hfr⟩ := raise_recorded e h hg hc
  rw [hfr] at hrec ⊢
  exact ⟨hrec, rfl, rfl, rfl, rfl⟩

end Sys2Proof.Machine
end

section
/-! SUPPORT. DEV_SETUP_LOCK and the stall timeouts: a locked write, a mapping's write, and one raising for each request that has waited (R36, R37, R41, R49, R501). -/

open Sys2Proof Sys2Proof.Machine Sys2Proof.Claims

namespace Sys2Proof.Machine

/-! ### Writes under DEV_SETUP_LOCK -/

/-- Under the lock the value that goes on to a register holds what its RWL fields hold, and in every other field the value written. -/
theorem of_lockedVal {s : State} {r : Reg} {f : Fld} (v : Word) (hl : setupLocked s = true) (hf : f ∈ r.fields) :
    f.of (lockedVal s r v) = if f.acc = .rwl then getF s r f else f.of v := by
  have hmem : ∀ g ∈ r.fields.filter (·.acc == .rwl), g ∈ r.fields := fun g hg => (List.mem_filter.mp hg).1
  rw [lockedVal, if_pos hl]
  split
  case isTrue ha =>
    refine Fld.of_foldl_mem (r.fields_apart.filter _) (List.mem_filter.mpr ⟨hf, by simp [ha]⟩)
      (fun g hg hap w => Fld.of_into_apart f g w _ (Reg.fields_fit (hmem g hg)).1 hap) v
      (fun w' _ => Fld.of_into_self f w' _ (Reg.fields_fit hf).1 (f.of_lt _))
  case isFalse ha =>
    refine foldl_keeps f.of (fun g hg w => Fld.of_into_apart f g w _ (Reg.fields_fit (hmem g hg)).1 ?_) v
    have hne : f ≠ g := fun e => by
      have := (List.mem_filter.mp hg).2
      rw [← e] at this
      exact ha (by simpa using this)
    exact Reg.fields_apart_of_ne hf (hmem g hg) hne

/-- The record of a refused change is made exactly where the value differs in an RWL field. -/
theorem lockNote_of_locked {s : State} {r : Reg} (v : Word) (hl : setupLocked s = true) :
    lockNote r v s = if (∃ g ∈ r.fields, g.acc = .rwl ∧ g.of v ≠ getF s r g) then note 0x0A19 s else s := by
  have e : changesLocked s r v = true ↔ ∃ g ∈ r.fields, g.acc = .rwl ∧ g.of v ≠ getF s r g := by
    simp [changesLocked, List.any_eq_true]
  simp only [lockNote, hl, Bool.true_and, e]

/-- What a record of the lock leaves alone: every register but a counter of errors and ERR_RING_STATUS. -/
theorem regVal_lockNote {s : State} {r q : Reg} (v : Word) (hu : unwatched s) (hc : ∀ n, q ≠ .errCount n) (hr : q ≠ .errRingStatus) :
    regVal (lockNote r v s) q = regVal s q := by
  unfold lockNote
  split
  · rw [note, raise_unwatched _ hu, regVal_record _ _ (hc _) hr]
  · rfl

/-- A register with an RWL field is neither a counter of errors nor ERR_RING_STATUS. -/
theorem ne_record_of_rwl {r : Reg} (h : ∃ g ∈ r.fields, g.acc = .rwl) : (∀ n, r ≠ .errCount n) ∧ r ≠ .errRingStatus := by
  obtain ⟨g, hg, ha⟩ := h
  constructor
  · rintro n rfl
    simp [Reg.fields] at hg
    subst hg
    cases ha
  · rintro rfl
    simp [Reg.fields] at hg
    rcases hg with rfl | rfl | rfl <;> cases ha

/-- A write by the access codes under the lock, of a register with RWL fields. -/
theorem fieldsWrite_locked {s : State} {r : Reg} (v : Word) (hu : unwatched s) (hw : ∃ g ∈ r.fields, g.acc = .rwl) :
    fieldsWrite r v s = setReg (lockNote r v s) r (written r (regVal s r) (lockedVal s r v)) := by
  obtain ⟨hc, hr⟩ := ne_record_of_rwl hw
  have hv := regVal_lockNote (r := r) v hu hc hr
  have hl : setupLocked (lockNote r v s) = setupLocked s :=
    flag_congr (regVal_lockNote (q := .devSetupLock) v hu (by simp) (by simp)) _
  have e : lockedVal (lockNote r v s) r v = lockedVal s r v := by simp only [lockedVal, hl, getF, hv]
  simp only [fieldsWrite, hv, e]

/-! ### Stall timeouts -/

theorem stalls_not {s : State} {timeout : Nat} {done : Bool} (h : timeout = 0 ∨ done = true ∨ nowNs s < timeout) : stalls s timeout done = false := by
  rcases h with h | h | h
  · simp [stalls, h]
  · simp [stalls, h]
  · simp [stalls, h]

theorem stalls_due {s : State} {timeout : Nat} {done : Bool} (h0 : timeout ≠ 0) (hd : done = false) (hn : timeout ≤ nowNs s) : stalls s timeout done = true := by
  simp [stalls, h0, hd, hn]

theorem getElem?_set_of_some {α : Type} {l : List α} {i : Nat} {x : α} (y : α) (h : l[i]? = some x) : (l.set i y)[i]? = some y :=
  List.getElem?_set_self (List.getElem?_eq_some_iff.mp h).1

theorem heatStall_quiet {s : State} {req : Nat} {p : HeatPost} (h : s.heat.posts[req]? = some p) (hs : stalls s p.timeout p.stalled = false) :
    heatStall req s = s := by
  simp [heatStall, h, hs]

/-- A post to the heat table that has waited to its timeout is marked and recorded. -/
theorem heatStall_due {s : State} {req : Nat} {p : HeatPost} (h : s.heat.posts[req]? = some p) (hs : stalls s p.timeout p.stalled = true) :
    ∃ e : Err, e.code = 0x01F2 ∧
      heatStall req s = raise e { s with heat := { s.heat with posts := s.heat.posts.set req { p with stalled := true } } } := by
  simp only [heatStall, h, hs, if_true]
  refine ⟨_, ?_, rfl⟩
  cases p.runner <;> rfl

theorem engineAt_congr {s t : State} (h : t.relays = s.relays) (e : Nat) : engineAt t e = engineAt s e := by
  simp only [engineAt, h]

theorem relayStall_quiet {s : State} {e req : Nat} {p : Post} (h : (engineAt s e).posts[req]? = some p) (hs : stalls s p.timeout p.stalled = false) :
    relayStall e req s = s := by
  simp [relayStall, h, hs]

/-- A post that has waited for a relay slot to its timeout is marked and recorded. -/
theorem relayStall_due {s : State} {e req : Nat} {p : Post} (h : (engineAt s e).posts[req]? = some p) (hs : stalls s p.timeout p.stalled = true) :
    ∃ x : Err, x.code = 0x05F2 ∧
      relayStall e req s = raise x (modEngine e (fun g => { g with posts := g.posts.set req { p with stalled := true } }) s) := by
  simp only [relayStall, h, hs, if_true]
  exact ⟨_, rfl, rfl⟩

/-- A share with its stall record made. -/
def Share.marked (x y : Share) : Share := if y = x then { y with stalled := true } else y

theorem shareStall_quiet {s : State} {k req : Nat} {x : Share} (h : (s.shares.filter (·.core == k))[req]? = some x)
    (hs : stalls s x.timeout x.stalled = false) : shareStall k req s = s := by
  simp [shareStall, h, hs]

/-- A LAUNCH's share that has waited for runners to its timeout is marked and recorded. -/
theorem shareStall_due {s : State} {k req : Nat} {x : Share} (h : (s.shares.filter (·.core == k))[req]? = some x)
    (hs : stalls s x.timeout x.stalled = true) :
    ∃ e : Err, e.code = 0x01F2 ∧ shareStall k req s = raise e { s with shares := s.shares.map x.marked } := by
  simp only [shareStall, h, hs, if_true]
  exact ⟨_, rfl, rfl⟩

theorem Share.marked_core (x y : Share) : (x.marked y).core = y.core := by
  unfold Share.marked
  split <;> rfl

/-- A marked share keeps its place among those of its core. -/
theorem marked_place {l : List Share} {k req : Nat} {x : Share} (h : (l.filter (·.core == k))[req]? = some x) :
    ((l.map x.marked).filter (·.core == k))[req]? = some { x with stalled := true } := by
  have hc : ((·.core == k) ∘ x.marked : Share → Bool) = (·.core == k) := funext fun y => by
    simp only [Function.comp, Share.marked_core]
  rw [List.filter_map, hc, List.getElem?_map, h]
  simp [Share.marked]

theorem openStall_quiet {s : State} {req : Nat} {o : OpenReq} (h : s.lap.opens[req]? = some o) (hs : stalls s o.timeout o.stalled = false) :
    openStall req s = s := by
  simp [openStall, h, hs]

/-- A LAP_OPEN that has waited to its timeout is marked and recorded. -/
theorem openStall_due {s : State} {req : Nat} {o : OpenReq} (h : s.lap.opens[req]? = some o) (hs : stalls s o.timeout o.stalled = true) :
    ∃ e : Err, e.code = 0x06F2 ∧ openStall req s = raise e (modLap (fun l => { l with opens := l.opens.set req { o with stalled := true } }) s) := by
  simp only [openStall, h, hs, if_true]
  exact ⟨_, rfl, rfl⟩

/-! ### The interleave -/

theorem setReg_registers {s t : State} (r : Reg) (v : Word) (h : t.regs = (setReg s r v).regs) : regVal t r = v := by
  simp only [regVal, h]
  exact regVal_setReg_self s r v

/-- A change of mapping moves stored data and leaves the registers and the mappings that wait. -/
theorem remap_keeps (d : Nat) (old new : Word) (s : State) : (remap d old new s).regs = s.regs ∧ (remap d old new s).newMaps = s.newMaps := by
  unfold remap
  split <;> exact ⟨rfl, rfl⟩

end Sys2Proof.Machine
end


section
/-! PROOFS. DEV_SETUP_LOCK and the stall timeouts. -/

open Sys2Proof Sys2Proof.Machine Sys2Proof.Claims

namespace Sys2Proof.Machine

theorem flag_testBit {f : Fld} (h : f.width = 1) (s : State) (r : Reg) : flag s r f = (getF s r f).testBit 0 := by
  have hlt : getF s r f < 2 ^ f.width := f.of_lt _
  rw [h] at hlt
  have : getF s r f = 0 ∨ getF s r f = 1 := by omega
  unfold flag
  rcases this with e | e <;> rw [e] <;> rfl

/-- A register whose die answers takes a write by the access codes alone, where it has no RWL fields. -/
theorem regWrite_fields {s : State} {r : Reg} (v : Word) (ha : dieAnswers s r.holder) (hl : ∀ f ∈ r.fields, f.acc ≠ .rwl) :
    regWrite r (fieldsWrite r v) s = setReg s r (written r (regVal s r) v) := by
  rw [regWrite_answers ha.1 ha.2, fieldsWrite_unlocked hl]

/-- Writing DEV_SETUP_LOCK sets the lock where the value's bit is 1, and leaves it otherwise. -/
theorem flag_setupLock_written (s : State) (v : BitVec 32) :
    flag (setReg s .devSetupLock (written .devSetupLock (regVal s .devSetupLock) (v.setWidth 64))) .devSetupLock F.devSetupLock_lock =
      (setupLocked s || v.getLsbD 0) := by
  have hf : F.devSetupLock_lock ∈ Reg.devSetupLock.fields := by simp [Reg.fields]
  have hb : (F.devSetupLock_lock.of (v.setWidth 64)).testBit 0 = v.getLsbD 0 := by
    rw [Fld.of_bit]
    simp [F.devSetupLock_lock]
  rw [setupLocked, flag_testBit rfl, flag_testBit rfl, getF, regVal_setReg_self, Fld.of_written hf, ← hb, ← Nat.testBit_or]
  rfl

/-! ### The mapping register -/

/-- What a write of CMP_MEM_INTERLEAVE asks for. -/
def askedMap (d : Nat) (v : BitVec 32) : Word := written (.cmpMemInterleave d) 0 (v.setWidth 64)

theorem granule_askedMap (d : Nat) (v : BitVec 32) :
    F.cmpMemInterleave_granule.of (askedMap d v) = F.cmpMemInterleave_granule.of (v.setWidth 64) :=
  Fld.of_written (r := .cmpMemInterleave d) (by simp [Reg.fields]) 0 _

theorem pinned_askedMap (d : Nat) (v : BitVec 32) :
    F.cmpMemInterleave_pinned_channels.of (askedMap d v) = F.cmpMemInterleave_pinned_channels.of (v.setWidth 64) :=
  Fld.of_written (r := .cmpMemInterleave d) (by simp [Reg.fields]) 0 _

/-- A mapping is reserved by its granule or its count of pinned channels (R49). -/
theorem badMapping_askedMap (d : Nat) (v : BitVec 32) : badMapping (askedMap d v) = true ↔
    F.cmpMemInterleave_granule.of (v.setWidth 64) = 7 ∨ 32 < F.cmpMemInterleave_pinned_channels.of (v.setWidth 64) := by
  simp [badMapping, granule_askedMap, pinned_askedMap]

theorem exec_memInterleaveWrite {s : State} {d : Nat} (v : BitVec 32) (ha : dieAnswers s d) :
    exec (.memInterleaveWrite d v) s = .next (interleaveWrite d v s) :=
  congrArg Host.Outcome.next (regWrite_answers (r := .cmpMemInterleave d) ha.1 ha.2)

/-- A locked write of the mapping register changes no mapping. -/
theorem interleaveWrite_locked {s : State} {d : Nat} (v : BitVec 32) (hu : unwatched s) (hl : setupLocked s = true) :
    (interleaveWrite d v s).newMaps = s.newMaps ∧ regVal (interleaveWrite d v s) (.cmpMemInterleave d) = regVal s (.cmpMemInterleave d) := by
  unfold interleaveWrite
  dsimp only
  split
  · exact ⟨rfl, rfl⟩
  · split
    · exact ⟨rfl, rfl⟩
    · rw [note, raise_unwatched _ hu]
      obtain ⟨g, b, e⟩ := record_frame { code := 0x0A19, cont := contL } s
      exact ⟨by rw [e], regVal_record _ _ (by simp) (by simp)⟩

/-- A reserved mapping is refused with its record. -/
theorem interleaveWrite_bad {s : State} {d : Nat} (v : BitVec 32) (hd : d < 16) (ha : dieAnswers s d) (hl : setupLocked s = false)
    (hb : badMapping (askedMap d v) = true) : interleaveWrite d v s = raise { code := 0x0413, cont := contX, die := d } s := by
  have hn : ¬(16 ≤ d ∨ inReset s d = true) := by simp [ha.1]; omega
  rw [askedMap] at hb
  simp only [interleaveWrite, if_neg hn, hl, hb, Bool.false_eq_true, if_false, if_true]

/-- Any other mapping waits for the accesses in flight. -/
theorem interleaveWrite_good {s : State} {d : Nat} (v : BitVec 32) (hd : d < 16) (ha : dieAnswers s d) (hl : setupLocked s = false)
    (hb : badMapping (askedMap d v) = false) : interleaveWrite d v s = { s with newMaps := s.newMaps.set d (s.nextId, askedMap d v) } := by
  have hn : ¬(16 ≤ d ∨ inReset s d = true) := by simp [ha.1]; omega
  rw [askedMap] at hb
  simp only [interleaveWrite, if_neg hn, hl, hb, Bool.false_eq_true, if_false, askedMap]

/-- With nothing in flight a mapping that waits takes effect: the register holds it, and no mapping waits for the die. -/
theorem interleaveEffect_idle {s : State} {d n : Nat} {v : Word} (h : s.newMaps.get? d = some (n, v)) (ha : s.accesses = []) (hc : s.cores = []) :
    (interleaveEffect d s).newMaps.get? d = none ∧ regVal (interleaveEffect d s) (.cmpMemInterleave d) = v := by
  have hb : dramBusy s d n = false := by simp [dramBusy, ha, hc]
  obtain ⟨hg, hm⟩ := remap_keeps d (regVal s (.cmpMemInterleave d)) v (setReg { s with newMaps := s.newMaps.del d } (.cmpMemInterleave d) v)
  simp only [interleaveEffect, newMapping, h, hb, Bool.false_eq_true, if_false]
  exact ⟨by rw [hm]; exact Tab.get?_del_self _ _, setReg_registers _ _ hg⟩

theorem exec_relayExpiry {e req : Nat} (he : e < 4) (s : State) : exec (.stallTimeoutExpiry (.relay e) req) s = .next (relayStall e req s) :=
  congrArg Host.Outcome.next (if_pos he)

/-! ### One raising for each request that waits -/

/-- A post to the heat table that has waited to its timeout is raised once: the raising marks it, and a marked one is passed over. -/
theorem heatStall_once {s : State} {req : Nat} {p : HeatPost} (hu : unwatched s) (hp : s.heat.posts[req]? = some p) (hs : stalls s p.timeout p.stalled = true) :
    recorded s (heatStall req s) 0x01F2 ∧ (heatStall req s).heat.posts = s.heat.posts.set req { p with stalled := true } ∧
      heatStall req (heatStall req s) = heatStall req s := by
  obtain ⟨hrec, hw, -⟩ := raised_recorded hu (heatStall_due hp hs) rfl
  have hposts : (heatStall req s).heat.posts = s.heat.posts.set req { p with stalled := true } := congrArg Heat.posts hw
  refine ⟨hrec, hposts, heatStall_quiet (p := { p with stalled := true }) ?_ (stalls_not (.inr (.inl rfl)))⟩
  rw [hposts, getElem?_set_of_some _ hp]

/-- A post that has waited for a relay slot to its timeout is raised once. -/
theorem relayStall_once {s : State} {e req : Nat} {p : Post} (hu : unwatched s) (hp : (engineAt s e).posts[req]? = some p)
    (hs : stalls s p.timeout p.stalled = true) :
    recorded s (relayStall e req s) 0x05F2 ∧ (engineAt (relayStall e req s) e).posts = (engineAt s e).posts.set req { p with stalled := true } ∧
      relayStall e req (relayStall e req s) = relayStall e req s := by
  obtain ⟨hrec, -, hw, -⟩ := raised_recorded hu (relayStall_due hp hs) rfl
  have hposts : (engineAt (relayStall e req s) e).posts = (engineAt s e).posts.set req { p with stalled := true } := by
    rw [engineAt_congr hw, engineAt_modEngine_self]
  refine ⟨hrec, hposts, relayStall_quiet (p := { p with stalled := true }) ?_ (stalls_not (.inr (.inl rfl)))⟩
  rw [hposts, getElem?_set_of_some _ hp]

/-- A LAUNCH's share that has waited for runners to its timeout is raised once. -/
theorem shareStall_once {s : State} {k req : Nat} {x : Share} (hu : unwatched s) (hx : (s.shares.filter (·.core == k))[req]? = some x)
    (hs : stalls s x.timeout x.stalled = true) :
    recorded s (shareStall k req s) 0x01F2 ∧ (shareStall k req s).shares = s.shares.map x.marked ∧ shareStall k req (shareStall k req s) = shareStall k req s := by
  obtain ⟨hrec, -, -, hw, -⟩ := raised_recorded hu (shareStall_due hx hs) rfl
  have hshares : (shareStall k req s).shares = s.shares.map x.marked := hw
  refine ⟨hrec, hshares, shareStall_quiet (x := { x with stalled := true }) ?_ (stalls_not (.inr (.inl rfl)))⟩
  rw [hshares, marked_place hx]

/-- A LAP_OPEN that has waited to its timeout is raised once. -/
theorem openStall_once {s : State} {req : Nat} {o : OpenReq} (hu : unwatched s) (ho : s.lap.opens[req]? = some o) (hs : stalls s o.timeout o.stalled = true) :
    recorded s (openStall req s) 0x06F2 ∧ (openStall req s).lap.opens = s.lap.opens.set req { o with stalled := true } ∧
      openStall req (openStall req s) = openStall req s := by
  obtain ⟨hrec, -, -, -, hw⟩ := raised_recorded hu (openStall_due ho hs) rfl
  have hopens : (openStall req s).lap.opens = s.lap.opens.set req { o with stalled := true } := congrArg (·.opens) hw
  refine ⟨hrec, hopens, openStall_quiet (o := { o with stalled := true }) ?_ (stalls_not (.inr (.inl rfl)))⟩
  rw [hopens, getElem?_set_of_some _ ho]

end Sys2Proof.Machine

namespace Sys2Proof.Proofs

/-- Settles O7: a locked write keeps the RWL fields by way of the value it lets through, and a request that waits is raised once because its raising marks it. -/
theorem setupLockAndStallTimeouts : Obligations.SetupLockAndStallTimeouts := by
  unfold Obligations.SetupLockAndStallTimeouts
  refine ⟨fun s v ha => ?_, fun s r v f hl hu hf hw => ?_, fun s d v hd ha hu hn => ?_, fun s v ha => ?_, fun s req p hu hp => ⟨fun hs => ?_, fun h0 hm ht => ?_⟩,
    fun s e req p he hu hp => ⟨fun hs => ?_, fun h0 hm ht => ?_⟩, fun s k req x hu hx => ⟨fun hs => ?_, fun h0 hm ht => ?_⟩,
    fun s req o hu ho => ⟨fun hs => ?_, fun h0 hm ht => ?_⟩⟩
  · exact ⟨_, congrArg Host.Outcome.next (regWrite_fields (r := .devSetupLock) (v.setWidth 64) ha (by decide)), rfl, rfl, flag_setupLock_written s v,
      fun r hr => regVal_setReg_ne s _ r _ hr⟩
  · obtain ⟨hc, hr⟩ := ne_record_of_rwl hw
    have hof : getF (fieldsWrite r v s) r f = f.after (regVal s r) (lockedVal s r v) := by
      rw [fieldsWrite_locked v hu hw, getF, regVal_setReg_self, Fld.of_written hf]
    have hlv := of_lockedVal v hl hf
    dsimp only
    refine ⟨fun ha => ?_, fun ha => ?_, fun ha => ?_, fun hsame => ?_, fun hdiff => ?_⟩
    · exact hof.trans (by simp only [Fld.after, ha]; exact hlv.trans (if_pos ha))
    · exact hof.trans (by simp only [Fld.after, ha]; exact hlv.trans (if_neg (by simp [ha])))
    · rw [hof, Fld.after, ha]
      rfl
    · have hno : ¬∃ g ∈ r.fields, g.acc = .rwl ∧ g.of v ≠ getF s r g := fun ⟨g, hg, hga, hne⟩ => hne (hsame g hg hga)
      rw [fieldsWrite_locked v hu hw, lockNote_of_locked v hl, if_neg hno]
      rfl
    · obtain ⟨hrec, -⟩ := raise_recorded { code := 0x0A19, cont := contL } hu rfl rfl
      rw [fieldsWrite_locked v hu hw, lockNote_of_locked v hl, if_pos hdiff, recorded, getF, regVal_setReg_ne _ _ _ _ (hc _).symm]
      exact hrec
  · dsimp only
    refine ⟨fun hl => ?_, fun hl hb => ?_, fun hl hb => ?_⟩
    · obtain ⟨hm, hg⟩ := interleaveWrite_locked (d := d) v hu hl
      exact ⟨_, exec_memInterleaveWrite v ha, hm.trans hn, hg⟩
    · obtain ⟨hrec, g, b, e⟩ := raise_recorded { code := 0x0413, cont := contX, die := d } hu rfl rfl
      have hw := interleaveWrite_bad v hd ha hl ((badMapping_askedMap d v).mpr hb)
      refine ⟨_, (exec_memInterleaveWrite v ha).trans (congrArg _ hw), by rw [e]; exact hn, hrec, ?_, by rw [e]⟩
      rw [raise_unwatched _ hu, regVal_record _ _ (by simp) (by simp)]
    · have hw := interleaveWrite_good v hd ha hl (Bool.eq_false_iff.mpr (fun h => hb ((badMapping_askedMap d v).mp h)))
      refine ⟨_, (exec_memInterleaveWrite v ha).trans (congrArg _ hw), rfl, rfl, ?_, fun hacc hcores => ?_⟩
      · simp [granule_askedMap, pinned_askedMap]
      · obtain ⟨hm, hg⟩ := interleaveEffect_idle (s := { s with newMaps := s.newMaps.set d (s.nextId, askedMap d v) })
          (Tab.get?_set_self s.newMaps d (s.nextId, askedMap d v)) hacc hcores
        exact ⟨_, rfl, hm, by rw [getF, hg, granule_askedMap], by rw [getF, hg, pinned_askedMap]⟩
  · refine ⟨_, congrArg Host.Outcome.next (regWrite_fields (r := .devStallTimeout) v ha (by decide)), ?_, rfl, rfl, rfl, rfl, rfl⟩
    rw [regVal_setReg_self, written_full (by decide)]
  · exact congrArg Host.Outcome.next (heatStall_quiet hp (stalls_not hs))
  · obtain ⟨hrec, hposts, hagain⟩ := heatStall_once hu hp (stalls_due h0 hm ht)
    exact ⟨heatStall req s, rfl, hrec, hposts, congrArg Host.Outcome.next hagain⟩
  · rw [exec_relayExpiry he, relayStall_quiet hp (stalls_not hs)]
  · obtain ⟨hrec, hposts, hagain⟩ := relayStall_once hu hp (stalls_due h0 hm ht)
    exact ⟨relayStall e req s, exec_relayExpiry he s, hrec, hposts, (exec_relayExpiry he _).trans (congrArg _ hagain)⟩
  · exact congrArg Host.Outcome.next (shareStall_quiet hx (stalls_not hs))
  · obtain ⟨hrec, hshares, hagain⟩ := shareStall_once hu hx (stalls_due h0 hm ht)
    refine ⟨shareStall k req s, rfl, hrec, ?_, ?_, congrArg Host.Outcome.next hagain⟩
    · rw [hshares, List.map_map]
      exact List.map_congr_left (fun y _ => x.marked_core y)
    · rw [hshares, marked_place hx]
  · exact congrArg Host.Outcome.next (openStall_quiet ho (stalls_not hs))
  · obtain ⟨hrec, hopens, hagain⟩ := openStall_once hu ho (stalls_due h0 hm ht)
    exact ⟨openStall req s, rfl, hrec, hopens, congrArg Host.Outcome.next hagain⟩

end Sys2Proof.Proofs
end

section
/-! PROOFS. Resets and power states. -/

open Sys2Proof Sys2Proof.Machine Sys2Proof.Claims

namespace Sys2Proof.Proofs

/-- A state after reset in which runner 1024, of die 1, still waits by FENCE for access 1, which is no longer in flight. -/
def fenceDone : State :=
  { State.reset with runners := [(1024, { Runner.free with state := .waiting, wait := some (.fence [1]) })] }

theorem fenceDone_unwatched : unwatched fenceDone := by
  unfold unwatched
  decide +kernel

/-- A die warm reset of die 0 lets the runner of die 1 go on. -/
theorem dieWarmReset_wakes : (runnerAt (dieWarmReset 0 6 false fenceDone) 1024).state = .ready := by
  decide +kernel

/-- Refutes O59: the clause for a die with nothing in flight has no premise that no runner of another die waits, as the clause for a die in reset has. A die warm reset
lets every runner go on whose wait is over (`wakeAll`), so that of die 0 makes a Waiting runner of die 1 Ready. -/
theorem not_resetsAndPowerStates : ¬ Obligations.ResetsAndPowerStates := by
  unfold Obligations.ResetsAndPowerStates
  intro h
  obtain ⟨_, _, hdie, _⟩ := h
  obtain ⟨_, hidle, _⟩ := hdie fenceDone 0 6 (by decide) (by decide) fenceDone_unwatched
  obtain ⟨t, ht, _, _, _, _, hother, _⟩ := hidle (by decide) rfl rfl rfl rfl rfl rfl rfl rfl rfl rfl rfl rfl
  obtain rfl : dieWarmReset 0 6 false fenceDone = t := Host.Outcome.next.inj ht
  have hsame := congrArg Runner.state (hother 1024 (by decide))
  rw [dieWarmReset_wakes] at hsame
  exact absurd hsame (by decide)

end Sys2Proof.Proofs
end


section
/-! SUPPORT. The throttle ladder: what an engagement of a cause, a reading and a cause's record change, and what they leave (R427, R428). -/

open Sys2Proof Sys2Proof.Machine Sys2Proof.Claims

namespace Sys2Proof.Machine

theorem getF_congr {s t : State} {r : Reg} (h : regVal t r = regVal s r) (f : Fld) : getF t r f = getF s r f := congrArg f.of h

@[simp] theorem power_modPower (f : Power → Power) (s : State) : (modPower f s).power = f s.power := rfl

/-! ### What the ladder leaves before it makes a record -/

/-- What every step of the ladder keeps until it makes a record: all but the power state, PWR_INPUT and the dies' PWR_DIE_THROTTLE, and of the power state the times of the
last records. -/
structure Steady (s u : State) : Prop where
  mem : u.mem = s.mem
  runners : u.runners = s.runners
  blotter : u.blotter = s.blotter
  clock : u.clock = s.clock
  noted : u.power.noted = s.power.noted
  regs : ∀ r, r ≠ .pwrInput → (∀ d, r ≠ .pwrDieThrottle d) → regVal u r = regVal s r

theorem Steady.refl (s : State) : Steady s s := ⟨rfl, rfl, rfl, rfl, rfl, fun _ _ _ => rfl⟩

theorem Steady.trans {s u v : State} (h : Steady s u) (k : Steady u v) : Steady s v :=
  ⟨k.mem.trans h.mem, k.runners.trans h.runners, k.blotter.trans h.blotter, k.clock.trans h.clock, k.noted.trans h.noted,
    fun r hi hd => (k.regs r hi hd).trans (h.regs r hi hd)⟩

theorem Steady.unwatched {s u : State} (h : Steady s u) (hs : unwatched s) : unwatched u :=
  fun i hi => (flag_congr (h.regs _ (by simp) (by simp)) _).trans (hs i hi)

theorem steady_modPower {f : Power → Power} {s : State} (h : (f s.power).noted = s.power.noted) : Steady s (modPower f s) :=
  ⟨rfl, rfl, rfl, rfl, h, fun _ _ _ => rfl⟩

theorem steady_setF_dieThrottle (s : State) (d : Nat) (f : Fld) (v : Nat) : Steady s (setF s (.pwrDieThrottle d) f v) :=
  ⟨rfl, rfl, rfl, rfl, rfl, fun r _ hd => regVal_setF_ne s _ r f v (hd d)⟩

theorem steady_inputPower (watts : Nat) (s : State) : Steady s (inputPower watts s) := by
  refine ⟨rfl, rfl, rfl, rfl, rfl, fun r hi _ => ?_⟩
  rw [inputPower, regVal_setF_ne _ _ _ _ _ hi, regVal_setF_ne _ _ _ _ _ hi]

theorem steady_each {l : List Nat} {f : Nat → State → State} (h : ∀ d s, Steady s (f d s)) (s : State) : Steady s (each l f s) := by
  induction l generalizing s with
  | nil => exact Steady.refl s
  | cons d l ih => exact (h d s).trans (ih (f d s))

/-! ### Readings -/

theorem wrap_eight (temp : Int) : wrap 8 temp = (temp % 256).toNat := rfl

theorem wrap_eight_lt (temp : Int) : wrap 8 temp < 256 := by
  rw [wrap_eight]
  omega

theorem getF_setTemp_temp (d : Nat) (temp : Int) (s : State) : getF (setTemp d temp s) (.pwrDieThrottle d) F.pwrDieThrottle_temp = wrap 8 temp :=
  getF_setF_self s _ _ _ (by decide) (wrap_eight_lt temp)

theorem getF_setTemp_events (d : Nat) (temp : Int) (s : State) :
    getF (setTemp d temp s) (.pwrDieThrottle d) F.pwrDieThrottle_events = getF s (.pwrDieThrottle d) F.pwrDieThrottle_events :=
  getF_setF_apart s _ _ _ _ (by decide) rfl

@[simp] theorem readTemp_power (d : Nat) (r : Reading) (s : State) : (readTemp d r s).power = s.power := by
  unfold readTemp
  split <;> rfl

theorem steady_readTemp (d : Nat) (r : Reading) (s : State) : Steady s (readTemp d r s) := by
  unfold readTemp
  split
  · exact Steady.refl s
  · exact steady_setF_dieThrottle s d _ _

theorem getF_readTemp_temp (d : Nat) (r : Reading) (s : State) : getF (readTemp d r s) (.pwrDieThrottle d) F.pwrDieThrottle_temp =
    if r.package = true then getF s (.pwrDieThrottle d) F.pwrDieThrottle_temp else (r.temp % 256).toNat := by
  unfold readTemp
  split
  · rfl
  · exact getF_setTemp_temp d r.temp s

theorem getF_readTemp_events (d : Nat) (r : Reading) (s : State) :
    getF (readTemp d r s) (.pwrDieThrottle d) F.pwrDieThrottle_events = getF s (.pwrDieThrottle d) F.pwrDieThrottle_events := by
  unfold readTemp
  split
  · rfl
  · exact getF_setTemp_events d r.temp s

/-- A reading does not move the threshold that it is held against. -/
theorem hotAt_readTemp (d : Nat) (r : Reading) (s : State) : hotAt (readTemp d r s) r = hotAt s r := by
  simp only [hotAt, getF_congr ((steady_readTemp d r s).regs .pwrThermCfg (by simp) (by simp))]

/-- PWR_INPUT holds the input power, up to what its field can hold. -/
theorem getF_inputPower_power (watts : Nat) (s : State) : getF (inputPower watts s) .pwrInput F.pwrInput_power_w = min watts 65535 := by
  rw [inputPower, getF_setF_apart _ _ _ _ _ (by decide) rfl]
  exact getF_setF_self s _ _ _ (by decide) (Nat.lt_of_le_of_lt (Nat.min_le_right _ _) (by decide))

/-- PWR_INPUT holds the greatest input power since it was last read. -/
theorem getF_inputPower_peak (watts : Nat) (s : State) :
    getF (inputPower watts s) .pwrInput F.pwrInput_peak_w = max (min watts 65535) (getF s .pwrInput F.pwrInput_peak_w) := by
  have hpeak : getF s .pwrInput F.pwrInput_peak_w < 65536 := Fld.of_lt _ _
  rw [inputPower, getF_setF_apart s _ F.pwrInput_peak_w _ _ (by decide) rfl]
  exact getF_setF_self _ _ _ _ (by decide) (Nat.max_lt.mpr ⟨Nat.lt_of_le_of_lt (Nat.min_le_right _ _) (by decide), hpeak⟩)

/-! ### A cause demands a rung -/

/-- A cause that demanded no rung is counted as engaging (R428). -/
def engageCount (d cause : Nat) (s : State) : State :=
  if s.power.rungs.get (d * 4 + cause) 0 = 0 then bumpF s (.pwrDieThrottle d) F.pwrDieThrottle_events 1 else s

theorem engage_eq (d cause rung : Nat) (s : State) :
    engage d cause rung s = capIslands (modPower (fun p => { p with rungs := p.rungs.set (d * 4 + cause) (Nat.min 7 rung) }) (engageCount d cause s)) := rfl

@[simp] theorem engageCount_power (d cause : Nat) (s : State) : (engageCount d cause s).power = s.power := by
  unfold engageCount
  split <;> rfl

theorem steady_engageCount (d cause : Nat) (s : State) : Steady s (engageCount d cause s) := by
  unfold engageCount
  split
  · exact steady_setF_dieThrottle s d _ _
  · exact Steady.refl s

theorem steady_capIslands (s : State) : Steady s (capIslands s) := steady_modPower rfl

theorem steady_engage (d cause rung : Nat) (s : State) : Steady s (engage d cause rung s) := by
  rw [engage_eq]
  exact (steady_engageCount d cause s).trans ((steady_modPower rfl).trans (steady_capIslands _))

@[simp] theorem capIslands_rungs (s : State) : (capIslands s).power.rungs = s.power.rungs := rfl
@[simp] theorem capIslands_volts (s : State) : (capIslands s).power.volts = s.power.volts := rfl

@[simp] theorem engage_rungs (d cause rung : Nat) (s : State) :
    (engage d cause rung s).power.rungs = s.power.rungs.set (d * 4 + cause) (min 7 rung) := by
  simp only [engage_eq, capIslands_rungs, power_modPower, engageCount_power]

@[simp] theorem engage_volts (d cause rung : Nat) (s : State) : (engage d cause rung s).power.volts = s.power.volts := by
  simp only [engage_eq, capIslands_volts, power_modPower, engageCount_power]

/-- Of the registers an engagement changes no more than its count does. -/
theorem regVal_engage (d cause rung : Nat) (s : State) (q : Reg) : regVal (engage d cause rung s) q = regVal (engageCount d cause s) q := rfl

/-- An engagement counts in its own die's register and in no other. -/
theorem regVal_engage_ne {q : Reg} {d : Nat} (cause rung : Nat) (s : State) (h : q ≠ .pwrDieThrottle d) : regVal (engage d cause rung s) q = regVal s q := by
  rw [regVal_engage]
  unfold engageCount
  split
  · exact regVal_bumpF_ne s _ q _ _ h
  · rfl

theorem getF_engage_events (d cause rung : Nat) (s : State) : getF (engage d cause rung s) (.pwrDieThrottle d) F.pwrDieThrottle_events =
    if s.power.rungs.get (d * 4 + cause) 0 = 0 then min (getF s (.pwrDieThrottle d) F.pwrDieThrottle_events + 1) 65535
    else getF s (.pwrDieThrottle d) F.pwrDieThrottle_events := by
  rw [getF_congr (regVal_engage d cause rung s _)]
  unfold engageCount
  split
  · exact getF_setF_self s _ _ _ (by decide) (Nat.lt_of_le_of_lt (Nat.min_le_right _ _) (by decide))
  · rfl

theorem getF_engage_temp (d cause rung : Nat) (s : State) :
    getF (engage d cause rung s) (.pwrDieThrottle d) F.pwrDieThrottle_temp = getF s (.pwrDieThrottle d) F.pwrDieThrottle_temp := by
  rw [getF_congr (regVal_engage d cause rung s _)]
  unfold engageCount
  split
  · exact getF_setF_apart s _ _ _ _ (by decide) rfl
  · rfl

/-- What a cause demands of a die after engaging in turn on dies that are all different is what it makes of its demand before. -/
theorem rung_each {c : Nat} {f : Nat → State → State} {g : Nat → Nat}
    (h : ∀ d s, (f d s).power.rungs = s.power.rungs.set (d * 4 + c) (g (s.power.rungs.get (d * 4 + c) 0)))
    {l : List Nat} (hl : l.Nodup) {d : Nat} (hd : d ∈ l) (s : State) :
    (each l f s).power.rungs.get (d * 4 + c) 0 = g (s.power.rungs.get (d * 4 + c) 0) := by
  have other : ∀ x s, x ≠ d → (f x s).power.rungs.get (d * 4 + c) 0 = s.power.rungs.get (d * 4 + c) 0 := fun x s hx => by
    rw [h, Tab.get_set_ne _ _ _ _ _ (by omega)]
  induction l generalizing s with
  | nil => cases hd
  | cons x l ih =>
    obtain ⟨hx, hl⟩ := List.nodup_cons.mp hl
    show (each l f (f x s)).power.rungs.get (d * 4 + c) 0 = _
    rcases List.mem_cons.mp hd with rfl | hd
    · have keeps : (each l f (f d s)).power.rungs.get (d * 4 + c) 0 = (f d s).power.rungs.get (d * 4 + c) 0 :=
        foldl_keeps (fun t : State => t.power.rungs.get (d * 4 + c) 0) (fun y hy t => other y t (fun e => hx (e ▸ hy))) _
      rw [keeps, h, Tab.get_set_self]
    · rw [ih hl hd, other x s (fun e => hx (e ▸ hd))]

theorem mem_runningDies {s : State} {d : Nat} : d ∈ runningDies s ↔ d < 16 ∧ inReset s d = false := by
  simp [runningDies]

theorem runningDies_nodup (s : State) : (runningDies s).Nodup := List.nodup_range.filter _

/-! ### A cause's record -/

/-- A cause's record for a die: none within 1 s of the last, otherwise one, whose time is kept (R428). -/
def NotedOnce (d cause code : Nat) (s t : State) : Prop :=
  if (s.power.noted.get? (d * 4 + cause)).any (fun u => decide (s.clock.ns < u + 10 ^ 9)) = true then t.blotter = s.blotter
  else recorded s t code ∧ t.power.noted.get? (d * 4 + cause) = some s.clock.ns

/-- The state in which the time of a cause's record is kept. -/
def noteTimed (d cause : Nat) (s : State) : State := modPower (fun p => { p with noted := p.noted.set (d * 4 + cause) s.clock.ns }) s

theorem throttleNote_eq (d cause code : Nat) (s : State) : throttleNote d cause code s =
    if (s.power.noted.get? (d * 4 + cause)).any (fun u => decide (s.clock.ns < u + 10 ^ 9)) = true then s
    else raise { code := code, cont := contL, die := d } (noteTimed d cause s) := rfl

theorem throttleNote_notedOnce {s u : State} (d cause code : Nat) (hs : unwatched s) (h : Steady s u) :
    NotedOnce d cause code s (throttleNote d cause code u) := by
  rw [NotedOnce, throttleNote_eq, h.noted, h.clock]
  split
  · exact h.blotter
  · obtain ⟨hrec, g, b, e⟩ := raise_recorded (u := noteTimed d cause u) { code := code, cont := contL, die := d } (h.unwatched hs) rfl rfl
    refine ⟨?_, ?_⟩
    · simpa only [recorded, getF, h.regs (.errCount (countIndex code)) (by simp) (by simp)] using hrec
    · rw [e, ← h.clock]
      exact Tab.get?_set_self _ _ _

/-- A cause's record leaves memory, the runners, the rungs, the input voltage and every register but a counter of errors and ERR_RING_STATUS. -/
theorem throttleNote_keeps {u : State} (d cause code : Nat) (hu : unwatched u) :
    (throttleNote d cause code u).mem = u.mem ∧ (throttleNote d cause code u).runners = u.runners ∧
      (throttleNote d cause code u).power.rungs = u.power.rungs ∧ (throttleNote d cause code u).power.volts = u.power.volts ∧
      ∀ q, (∀ n, q ≠ .errCount n) → q ≠ .errRingStatus → regVal (throttleNote d cause code u) q = regVal u q := by
  have hv : unwatched (noteTimed d cause u) := hu
  rw [throttleNote_eq]
  split
  · exact ⟨rfl, rfl, rfl, rfl, fun _ _ _ => rfl⟩
  · rw [raise_unwatched _ hv]
    obtain ⟨g, b, e⟩ := record_frame { code := code, cont := contL, die := d } (noteTimed d cause u)
    exact ⟨by rw [e]; rfl, by rw [e]; rfl, by rw [e]; rfl, by rw [e]; rfl, fun q hc hr => regVal_record _ _ (hc _) hr⟩

/-! ### One cause engages on one die -/

/-- A cause demands a rung of a die: its other causes demand what they did, and the engagement is counted where it is one. -/
def Engaged (d cause rung : Nat) (s t : State) : Prop :=
  t.power.rungs.get (d * 4 + cause) 0 = rung ∧ (∀ c < 4, c ≠ cause → t.power.rungs.get (d * 4 + c) 0 = s.power.rungs.get (d * 4 + c) 0) ∧
    getF t (.pwrDieThrottle d) F.pwrDieThrottle_events = (if s.power.rungs.get (d * 4 + cause) 0 = 0 then
      min (getF s (.pwrDieThrottle d) F.pwrDieThrottle_events + 1) 65535 else getF s (.pwrDieThrottle d) F.pwrDieThrottle_events) ∧
    t.mem = s.mem ∧ t.runners = s.runners

/-- A cause engages after a reading. -/
theorem engaged_engage_readTemp (d cause rung : Nat) (r : Reading) (s : State) : Engaged d cause (min 7 rung) s (engage d cause rung (readTemp d r s)) := by
  have h := (steady_readTemp d r s).trans (steady_engage d cause rung _)
  refine ⟨?_, fun c _ hc => ?_, ?_, h.mem, h.runners⟩
  · rw [engage_rungs, Tab.get_set_self]
  · rw [engage_rungs, Tab.get_set_ne _ _ _ _ _ (by omega), readTemp_power]
  · rw [getF_engage_events, readTemp_power, getF_readTemp_events]

theorem Engaged.throttleNote {d cause rung : Nat} {s u : State} (h : Engaged d cause rung s u) (code : Nat) (hu : unwatched u) :
    Engaged d cause rung s (throttleNote d cause code u) := by
  obtain ⟨hm, hr, hg, -, hq⟩ := throttleNote_keeps d cause code hu
  simpa only [Engaged, hm, hr, hg, getF_congr (hq (.pwrDieThrottle d) (by simp) (by simp))] using h

/-- The reading stands after the cause has engaged and made its record. -/
theorem getF_throttleNote_temp {u : State} (d cause code : Nat) (hu : unwatched u) :
    getF (throttleNote d cause code u) (.pwrDieThrottle d) F.pwrDieThrottle_temp = getF u (.pwrDieThrottle d) F.pwrDieThrottle_temp := by
  obtain ⟨-, -, -, -, hq⟩ := throttleNote_keeps d cause code hu
  exact getF_congr (hq _ (by simp) (by simp)) _

/-! ### The commands of the ladder on one die -/

theorem rateThrottle_inReset {s : State} {d : Nat} (temp : Int) (h : inReset s d = true) : rateThrottle d temp s = s := by
  simp [rateThrottle, h]

theorem rateThrottle_running {s : State} {d : Nat} (temp : Int) (hd : d < 16) (h : inReset s d = false) :
    rateThrottle d temp s = throttleNote d 0 0x0C01 (engage d 0 4 (readTemp d ⟨temp, false⟩ s)) := by
  simp [rateThrottle, hd, h, readTemp]

/-- A die in reset, or one without packages asked for a package's reading, takes no reading. -/
theorem hotThrottle_away {s : State} {d : Nat} {r : Reading} (h : inReset s d = true ∨ ¬d < if r.package then 16 else 20) : hotThrottle d r s = s := by
  unfold hotThrottle
  rw [if_neg]
  rintro ⟨hd, hr⟩
  rcases h with h | h
  · simp [h] at hr
  · exact h hd

theorem hotThrottle_cool {s : State} {d : Nat} {r : Reading} (hd : d < if r.package then 16 else 20) (hr : inReset s d = false) (h : r.temp < hotAt s r) :
    hotThrottle d r s = readTemp d r s := by
  have hc : ¬hotAt (readTemp d r s) r ≤ r.temp := by
    rw [hotAt_readTemp]
    omega
  simp only [hotThrottle, hd, hr, Bool.not_false, and_self, if_true, if_neg hc]

theorem hotThrottle_hot {s : State} {d : Nat} {r : Reading} (hd : d < if r.package then 16 else 20) (hr : inReset s d = false) (h : hotAt s r ≤ r.temp) :
    hotThrottle d r s = if s.power.rungs.get (d * 4 + 1) 0 = 0
      then throttleNote d 1 0x0C03 (engage d 1 (s.power.rungs.get (d * 4 + 1) 0 + 1) (readTemp d r s))
      else engage d 1 (s.power.rungs.get (d * 4 + 1) 0 + 1) (readTemp d r s) := by
  simp only [hotThrottle, hd, hr, Bool.not_false, and_self, if_true, hotAt_readTemp, h, readTemp_power]

/-- A hot reading takes the cause one rung higher, and the cause is recorded where it demanded none before. -/
theorem hotThrottle_engages {s : State} {d : Nat} {r : Reading} (hs : unwatched s) (hd : d < if r.package then 16 else 20) (hr : inReset s d = false)
    (h : hotAt s r ≤ r.temp) :
    getF (hotThrottle d r s) (.pwrDieThrottle d) F.pwrDieThrottle_temp =
        (if r.package = true then getF s (.pwrDieThrottle d) F.pwrDieThrottle_temp else (r.temp % 256).toNat) ∧
      Engaged d 1 (min 7 (s.power.rungs.get (d * 4 + 1) 0 + 1)) s (hotThrottle d r s) ∧
      (s.power.rungs.get (d * 4 + 1) 0 = 0 → NotedOnce d 1 0x0C03 s (hotThrottle d r s)) ∧
      (s.power.rungs.get (d * 4 + 1) 0 ≠ 0 → (hotThrottle d r s).blotter = s.blotter) := by
  have hst : Steady s (engage d 1 (s.power.rungs.get (d * 4 + 1) 0 + 1) (readTemp d r s)) := (steady_readTemp d r s).trans (steady_engage _ _ _ _)
  have hen := engaged_engage_readTemp d 1 (s.power.rungs.get (d * 4 + 1) 0 + 1) r s
  have htemp := (getF_engage_temp d 1 (s.power.rungs.get (d * 4 + 1) 0 + 1) (readTemp d r s)).trans (getF_readTemp_temp d r s)
  rw [hotThrottle_hot hd hr h]
  split
  case isTrue h0 =>
    exact ⟨(getF_throttleNote_temp d 1 _ (hst.unwatched hs)).trans htemp, hen.throttleNote _ (hst.unwatched hs),
      fun _ => throttleNote_notedOnce d 1 _ hs hst, fun hne => absurd h0 hne⟩
  case isFalse h0 => exact ⟨htemp, hen, fun h => absurd h h0, fun _ => hst.blotter⟩

/-- A release takes one off what its cause demands of its die, and nothing else. -/
theorem throttleRelease_rungs {d c : Nat} (s : State) (hd : d < 20) (hc : c < 4) :
    (throttleRelease d c s).power.rungs.get (d * 4 + c) 0 = s.power.rungs.get (d * 4 + c) 0 - 1 ∧
      (∀ c' < 4, c' ≠ c → (throttleRelease d c s).power.rungs.get (d * 4 + c') 0 = s.power.rungs.get (d * 4 + c') 0) ∧
      (throttleRelease d c s).regs = s.regs ∧ (throttleRelease d c s).mem = s.mem := by
  simp only [throttleRelease, hd, hc, and_self, if_true, power_modPower, Tab.get_set_self, modPower_regs, modPower_mem, and_true, true_and]
  exact fun c' _ hne => Tab.get_set_ne _ _ _ _ _ (by omega)

/-! ### The commands of the ladder on every compute die -/

theorem modeCeiling_eq {m : Nat} (h : m < 4) : modeCeiling m = [14500, 11500, 8000, 8000].getD m 0 := by
  revert m
  decide

theorem modeClock_eq {m : Nat} (h : m < 4) : modeClock m = [1800000, 1500000, 1100000, 1100000].getD m 0 := by
  revert m
  decide

theorem pwrMode_current_lt (s : State) : getF s .pwrMode F.pwrMode_current < 4 := Fld.of_lt _ _

/-- The input power is beyond what the mode allows (R428). -/
def Beyond (s : State) (watts : Nat) : Prop := [14500, 11500, 8000, 8000].getD (getF s .pwrMode F.pwrMode_current) 0 * 98 < watts * 100

/-- Every running die is taken one rung higher by the ceiling. -/
def ceilingRaised (watts : Nat) (s : State) : State :=
  each (runningDies s) (fun d s => engage d 2 (s.power.rungs.get (d * 4 + 2) 0 + 1) s) (inputPower watts s)

theorem beyond_iff (s : State) (watts : Nat) :
    modeCeiling (getF (inputPower watts s) .pwrMode F.pwrMode_current) * 98 < watts * 100 ↔ Beyond s watts := by
  rw [getF_congr ((steady_inputPower watts s).regs .pwrMode (by simp) (by simp)), modeCeiling_eq (pwrMode_current_lt s)]
  rfl

theorem ceilingThrottle_within {s : State} {watts : Nat} (h : ¬Beyond s watts) : ceilingThrottle watts s = inputPower watts s := by
  simp only [ceilingThrottle, if_neg (mt (beyond_iff s watts).mp h)]

/-- No running die is throttled by the ceiling. -/
def ceilingFree (s : State) : Bool := (runningDies s).all (fun d => s.power.rungs.get (d * 4 + 2) 0 == 0)

theorem ceilingFree_iff (s : State) : ceilingFree s = true ↔ ∀ d, d < 16 ∧ inReset s d = false → s.power.rungs.get (d * 4 + 2) 0 = 0 := by
  simp only [ceilingFree, List.all_eq_true, beq_iff_eq, mem_runningDies]

theorem ceilingThrottle_beyond {s : State} {watts : Nat} (h : Beyond s watts) : ceilingThrottle watts s =
    if ceilingFree s then throttleNote 16 2 0x0C02 (ceilingRaised watts s) else ceilingRaised watts s :=
  if_pos ((beyond_iff s watts).mpr h)

theorem steady_ceilingRaised (watts : Nat) (s : State) : Steady s (ceilingRaised watts s) :=
  (steady_inputPower watts s).trans (steady_each (fun d _ => steady_engage d _ _ _) _)

theorem regVal_ceilingRaised_pwrInput (watts : Nat) (s : State) : regVal (ceilingRaised watts s) .pwrInput = regVal (inputPower watts s) .pwrInput :=
  foldl_keeps (fun t : State => regVal t .pwrInput) (fun _ _ _ => regVal_engage_ne _ _ _ (by simp)) _

theorem rung_ceilingRaised {watts d : Nat} {s : State} (h : d < 16 ∧ inReset s d = false) :
    (ceilingRaised watts s).power.rungs.get (d * 4 + 2) 0 = min 7 (s.power.rungs.get (d * 4 + 2) 0 + 1) :=
  rung_each (f := fun d s => engage d 2 (s.power.rungs.get (d * 4 + 2) 0 + 1) s) (g := fun n => min 7 (n + 1)) (fun _ _ => engage_rungs _ _ _ _)
    (runningDies_nodup s) (mem_runningDies.mpr h) (inputPower watts s)

/-- CEILING_THROTTLE leaves PWR_INPUT as the reading does, and memory and the runners as they were. -/
theorem ceilingThrottle_keeps {s : State} (watts : Nat) (hs : unwatched s) :
    regVal (ceilingThrottle watts s) .pwrInput = regVal (inputPower watts s) .pwrInput ∧ (ceilingThrottle watts s).mem = s.mem ∧
      (ceilingThrottle watts s).runners = s.runners := by
  by_cases h : Beyond s watts
  case neg =>
    rw [ceilingThrottle_within h]
    exact ⟨rfl, rfl, rfl⟩
  case pos =>
    have hst := steady_ceilingRaised watts s
    obtain ⟨hm, hr, -, -, hq⟩ := throttleNote_keeps 16 2 0x0C02 (hst.unwatched hs)
    have hp := regVal_ceilingRaised_pwrInput watts s
    rw [ceilingThrottle_beyond h]
    split
    · exact ⟨(hq .pwrInput (by simp) (by simp)).trans hp, hm.trans hst.mem, hr.trans hst.runners⟩
    · exact ⟨hp, hst.mem, hst.runners⟩

/-- Beyond the ceiling every running die is taken one rung higher; the record is ED0's, and made where no die was throttled by it before. -/
theorem ceilingThrottle_raises {s : State} {watts : Nat} (hs : unwatched s) (h : Beyond s watts) :
    (∀ d, d < 16 ∧ inReset s d = false → (ceilingThrottle watts s).power.rungs.get (d * 4 + 2) 0 = min 7 (s.power.rungs.get (d * 4 + 2) 0 + 1)) ∧
      ((∀ d, d < 16 ∧ inReset s d = false → s.power.rungs.get (d * 4 + 2) 0 = 0) → NotedOnce 16 2 0x0C02 s (ceilingThrottle watts s)) ∧
      ((∃ d, (d < 16 ∧ inReset s d = false) ∧ s.power.rungs.get (d * 4 + 2) 0 ≠ 0) → (ceilingThrottle watts s).blotter = s.blotter) := by
  have hst := steady_ceilingRaised watts s
  rw [ceilingThrottle_beyond h]
  split
  case isTrue hfree =>
    have h0 := (ceilingFree_iff s).mp hfree
    obtain ⟨-, -, hg, -, -⟩ := throttleNote_keeps 16 2 0x0C02 (hst.unwatched hs)
    refine ⟨fun d hd => ?_, fun _ => throttleNote_notedOnce 16 2 _ hs hst, fun ⟨d, hd, hne⟩ => absurd (h0 d hd) hne⟩
    rw [hg]
    exact rung_ceilingRaised hd
  case isFalse hfree =>
    exact ⟨fun d hd => rung_ceilingRaised hd, fun h0 => absurd ((ceilingFree_iff s).mpr h0) hfree, fun _ => hst.blotter⟩

/-- Every running die is taken to rung 4 by the supply. -/
def supplyRaised (volts : Nat) (s : State) : State := each (runningDies s) (fun d => engage d 3 4) (modPower (fun p => { p with volts := volts }) s)

theorem supplyLow_enough {volts : Nat} (s : State) (h : 4400 ≤ volts) : supplyLow volts s = modPower (fun p => { p with volts := volts }) s :=
  if_neg (by omega)

theorem supplyLow_low {volts : Nat} (s : State) (h : volts < 4400) : supplyLow volts s = throttleNote 16 3 0x0C05 (supplyRaised volts s) := if_pos h

theorem steady_supplyRaised (volts : Nat) (s : State) : Steady s (supplyRaised volts s) :=
  (steady_modPower rfl).trans (steady_each (fun d _ => steady_engage d _ _ _) _)

theorem volts_supplyRaised (volts : Nat) (s : State) : (supplyRaised volts s).power.volts = volts :=
  foldl_keeps (fun t : State => t.power.volts) (step := fun s d => engage d 3 4 s) (fun _ _ _ => engage_volts _ _ _ _) _

theorem rung_supplyRaised {volts d : Nat} {s : State} (h : d < 16 ∧ inReset s d = false) : (supplyRaised volts s).power.rungs.get (d * 4 + 3) 0 = 4 :=
  rung_each (f := fun d => engage d 3 4) (g := fun _ => 4) (fun _ _ => engage_rungs _ _ _ _) (runningDies_nodup s) (mem_runningDies.mpr h) _

/-- SUPPLY_LOW: every running die is taken to rung 4; the record is ED0's. -/
theorem supplyLow_spec {s : State} (volts : Nat) (hs : unwatched s) :
    let t := supplyLow volts s
    t.power.volts = volts ∧ t.mem = s.mem ∧ t.runners = s.runners ∧ (volts < 4400 →
      (∀ d, d < 16 ∧ inReset s d = false → t.power.rungs.get (d * 4 + 3) 0 = 4) ∧ NotedOnce 16 3 0x0C05 s t) := by
  by_cases h : volts < 4400
  case pos =>
    have hst := steady_supplyRaised volts s
    obtain ⟨hm, hr, hg, hv, -⟩ := throttleNote_keeps 16 3 0x0C05 (hst.unwatched hs)
    rw [supplyLow_low s h]
    refine ⟨hv.trans (volts_supplyRaised volts s), hm.trans hst.mem, hr.trans hst.runners, fun _ => ⟨fun d hd => ?_, throttleNote_notedOnce 16 3 _ hs hst⟩⟩
    rw [hg]
    exact rung_supplyRaised hd
  case neg =>
    rw [supplyLow_enough s (by omega)]
    exact ⟨rfl, rfl, rfl, fun hlow => absurd hlow h⟩

end Sys2Proof.Machine
end

section
/-! SUPPORT. Power modes, island clocks, the reading of a die's throttle state, trips and references, and the supplies (R31, R425, R429, R443, R477, R479). -/

open Sys2Proof Sys2Proof.Machine Sys2Proof.Claims

namespace Sys2Proof

/-- A key's value is listed under the key. -/
theorem Tab.mem_of_get? {α : Type} {t : Tab α} {k : Nat} {v : α} (h : t.get? k = some v) : (k, v) ∈ t := by
  obtain ⟨p, hp, rfl⟩ := Option.map_eq_some_iff.mp h
  obtain rfl : p.1 = k := by simpa using List.find?_some hp
  exact List.mem_of_find?_eq_some hp

end Sys2Proof

namespace Sys2Proof.Machine

/-! ### Power modes -/

/-- What a state reads whose PWR_MODE is another's with a mode written. -/
theorem pwrMode_of_written {s t : State} {m : Nat} (hm : m < 4) (h : regVal t .pwrMode = regVal (setF s .pwrMode F.pwrMode_mode m) .pwrMode) :
    getF t .pwrMode F.pwrMode_mode = m ∧ getF t .pwrMode F.pwrMode_current = getF s .pwrMode F.pwrMode_current ∧
      getF t .pwrMode F.pwrMode_changing = getF s .pwrMode F.pwrMode_changing := by
  refine ⟨(getF_congr h _).trans ?_, (getF_congr h _).trans ?_, (getF_congr h _).trans ?_⟩
  · exact getF_setF_self s _ _ _ (by decide) hm
  · exact getF_setF_apart s _ _ _ _ (by decide) rfl
  · exact getF_setF_apart s _ _ _ _ (by decide) rfl

/-- What it reads once its change has begun or ended. -/
theorem pwrMode_changing_written (s : State) {b : Nat} (hb : b < 2) : getF (setF s .pwrMode F.pwrMode_changing b) .pwrMode F.pwrMode_changing = b ∧
    getF (setF s .pwrMode F.pwrMode_changing b) .pwrMode F.pwrMode_mode = getF s .pwrMode F.pwrMode_mode ∧
    getF (setF s .pwrMode F.pwrMode_changing b) .pwrMode F.pwrMode_current = getF s .pwrMode F.pwrMode_current :=
  ⟨getF_setF_self s _ _ _ (by decide) hb, getF_setF_apart s _ _ _ _ (by decide) rfl, getF_setF_apart s _ _ _ _ (by decide) rfl⟩

theorem modeChange_reserved {val : BitVec 32} (s : State) (h : val.toNat % 4 = 3) : modeChange val s = raise { code := 0x0C06, cont := contX } s := if_pos h

/-- A mode that the module is in, or one asked for during a change, is written and no more; another begins a change. -/
theorem modeChange_mode {val : BitVec 32} (s : State) (h : val.toNat % 4 ≠ 3) : modeChange val s =
    if getF s .pwrMode F.pwrMode_changing = 1 ∨ getF s .pwrMode F.pwrMode_current = val.toNat % 4 then setF s .pwrMode F.pwrMode_mode (val.toNat % 4)
    else setF (modPower (fun p => { p with nextMode := some (val.toNat % 4) }) (setF s .pwrMode F.pwrMode_mode (val.toNat % 4))) .pwrMode F.pwrMode_changing 1 := by
  obtain ⟨-, hcur, hchg⟩ := pwrMode_of_written (s := s) (t := setF s .pwrMode F.pwrMode_mode (val.toNat % 4)) (Nat.mod_lt _ (by decide)) rfl
  simp only [modeChange, if_neg h, flag, hcur, hchg, Bool.or_eq_true, decide_eq_true_eq, beq_iff_eq]

/-- The state in which a change of mode has reached its mode. -/
def modeReached (n : Nat) (s : State) : State := capIslands (setF (modPower (fun p => { p with nextMode := none }) s) .pwrMode F.pwrMode_current n)

/-- What PWR_MODE reads there. -/
theorem pwrMode_modeReached {n : Nat} (s : State) (h : n < 4) : getF (modeReached n s) .pwrMode F.pwrMode_current = n ∧
    getF (modeReached n s) .pwrMode F.pwrMode_mode = getF s .pwrMode F.pwrMode_mode ∧
    getF (modeReached n s) .pwrMode F.pwrMode_changing = getF s .pwrMode F.pwrMode_changing := by
  have hw : regVal (modeReached n s) .pwrMode = regVal (setF s .pwrMode F.pwrMode_current n) .pwrMode := rfl
  refine ⟨(getF_congr hw _).trans ?_, (getF_congr hw _).trans ?_, (getF_congr hw _).trans ?_⟩
  · exact getF_setF_self s _ _ _ (by decide) h
  · exact getF_setF_apart s _ _ _ _ (by decide) rfl
  · exact getF_setF_apart s _ _ _ _ (by decide) rfl

theorem modeComplete_none {s : State} (h : s.power.nextMode = none) : modeComplete s = s := by
  simp only [modeComplete, h]

/-- The change is over where the mode reached is the one last written; otherwise the next begins at once. -/
theorem modeComplete_some {s : State} {n : Nat} (hn : n < 4) (h : s.power.nextMode = some n) : modeComplete s =
    if getF s .pwrMode F.pwrMode_mode = n then setF (modeReached n s) .pwrMode F.pwrMode_changing 0
    else modPower (fun p => { p with nextMode := some (getF s .pwrMode F.pwrMode_mode) }) (modeReached n s) := by
  obtain ⟨-, hmode, -⟩ := pwrMode_modeReached s hn
  rw [← hmode]
  simp only [modeComplete, h]
  rfl

theorem exec_modeChange {s : State} (val : BitVec 32) (ha : dieAnswers s 16) : exec (.modeChange val) s = .next (modeChange val s) :=
  congrArg Host.Outcome.next (regWrite_answers (r := .pwrMode) ha.1 ha.2)

/-- A write of PWR_MODE with another mode than 3 (R31). -/
theorem modeChange_spec {val : BitVec 32} {s : State} (h : val.toNat % 4 ≠ 3) :
    let t := modeChange val s
    getF t .pwrMode F.pwrMode_mode = val.toNat % 4 ∧ getF t .pwrMode F.pwrMode_current = getF s .pwrMode F.pwrMode_current ∧ t.blotter = s.blotter ∧
      t.mem = s.mem ∧ t.runners = s.runners ∧
      (getF s .pwrMode F.pwrMode_changing = 1 ∨ getF s .pwrMode F.pwrMode_current = val.toNat % 4 →
        getF t .pwrMode F.pwrMode_changing = getF s .pwrMode F.pwrMode_changing ∧ t.power = s.power) ∧
      (getF s .pwrMode F.pwrMode_changing = 0 → getF s .pwrMode F.pwrMode_current ≠ val.toNat % 4 →
        getF t .pwrMode F.pwrMode_changing = 1 ∧ t.power.nextMode = some (val.toNat % 4)) := by
  have hm4 : val.toNat % 4 < 4 := Nat.mod_lt _ (by decide)
  rw [modeChange_mode s h]
  split
  case isTrue hb =>
    obtain ⟨hmode, hcur, hchg⟩ := pwrMode_of_written (s := s) (t := setF s .pwrMode F.pwrMode_mode (val.toNat % 4)) hm4 rfl
    exact ⟨hmode, hcur, rfl, rfl, rfl, fun _ => ⟨hchg, rfl⟩, fun h0 hne => by omega⟩
  case isFalse hb =>
    obtain ⟨hmode, hcur, -⟩ := pwrMode_of_written (s := s)
      (t := modPower (fun p => { p with nextMode := some (val.toNat % 4) }) (setF s .pwrMode F.pwrMode_mode (val.toNat % 4))) hm4 rfl
    obtain ⟨hc1, hm, hc⟩ := pwrMode_changing_written
      (modPower (fun p => { p with nextMode := some (val.toNat % 4) }) (setF s .pwrMode F.pwrMode_mode (val.toNat % 4))) (b := 1) (by decide)
    exact ⟨hm.trans hmode, hc.trans hcur, rfl, rfl, rfl, fun h => absurd h hb, fun _ _ => ⟨hc1, rfl⟩⟩

/-- The completion of a change of mode (R31): the mode is reached, and the next change begins where another mode was written last. -/
theorem modeComplete_spec {s : State} {n : Nat} (hn : n < 4) (h : s.power.nextMode = some n) :
    let t := modeComplete s
    getF t .pwrMode F.pwrMode_current = n ∧ getF t .pwrMode F.pwrMode_mode = getF s .pwrMode F.pwrMode_mode ∧ t.runners = s.runners ∧
      t.accesses = s.accesses ∧ t.relays = s.relays ∧ t.lap = s.lap ∧ t.mem = s.mem ∧ t.power.islands = (modeReached n s).power.islands ∧
      (getF s .pwrMode F.pwrMode_mode = n → getF t .pwrMode F.pwrMode_changing = 0 ∧ t.power.nextMode = none) ∧
      (getF s .pwrMode F.pwrMode_mode ≠ n →
        getF t .pwrMode F.pwrMode_changing = getF s .pwrMode F.pwrMode_changing ∧ t.power.nextMode = some (getF s .pwrMode F.pwrMode_mode)) := by
  obtain ⟨hcur, hmode, hchg⟩ := pwrMode_modeReached s hn
  rw [modeComplete_some hn h]
  split
  case isTrue hlast =>
    obtain ⟨hc0, hm, hc⟩ := pwrMode_changing_written (modeReached n s) (b := 0) (by decide)
    exact ⟨hc.trans hcur, hm.trans hmode, rfl, rfl, rfl, rfl, rfl, rfl, fun _ => ⟨hc0, rfl⟩, fun hne => absurd hlast hne⟩
  case isFalse hlast => exact ⟨hcur, hmode, rfl, rfl, rfl, rfl, rfl, rfl, fun he => absurd he hlast, fun _ => ⟨hchg, rfl⟩⟩

/-! ### Island clocks -/

/-- The greatest of a list is the member that none exceeds. -/
theorem foldl_max_le_iff {l : List Nat} {b r : Nat} : l.foldl Nat.max b ≤ r ↔ b ≤ r ∧ ∀ x ∈ l, x ≤ r := by
  induction l generalizing b with
  | nil => simp
  | cons x l ih =>
    have hmax : Nat.max b x ≤ r ↔ b ≤ r ∧ x ≤ r := Nat.max_le
    rw [List.foldl_cons, ih, hmax, List.forall_mem_cons, and_assoc]

theorem maxOf_eq {l : List Nat} {r : Nat} (hr : r ∈ l) (h : ∀ x ∈ l, x ≤ r) : maxOf l = r :=
  Nat.le_antisymm (foldl_max_le_iff.mpr ⟨Nat.zero_le r, h⟩) ((foldl_max_le_iff.mp (Nat.le_refl (maxOf l))).2 r hr)

theorem ratedClock_core {i : Nat} (s : State) (h : i < 1024) :
    ratedClock s i = some (modeClock (getF s .pwrMode F.pwrMode_current) * (8 - rungOf s (i / 64)) / 8) := if_pos h

theorem ratedClock_mesh {i : Nat} (s : State) (h : 1152 ≤ i ∧ i < 1168) : ratedClock s i = some 2000000 := by
  rw [ratedClock, if_neg (by omega), if_pos h]

theorem ratedClock_other {i : Nat} (s : State) (hc : 1024 ≤ i) (hm : ¬(1152 ≤ i ∧ i < 1168)) : ratedClock s i = none := by
  rw [ratedClock, if_neg (by omega), if_neg hm]

/-- A rung only lowers a core's rated clock. -/
theorem ratedClock_core_le (s : State) (i : Nat) :
    modeClock (getF s .pwrMode F.pwrMode_current) * (8 - rungOf s (i / 64)) / 8 ≤ modeClock (getF s .pwrMode F.pwrMode_current) :=
  Nat.div_le_of_le_mul (by rw [Nat.mul_comm 8]; exact Nat.mul_le_mul_left _ (Nat.sub_le 8 _))

/-- After capping, a core's island runs no faster than the mode's clock (R29). -/
theorem islands_capIslands_le {s : State} {i k : Nat} (hi : i < 1024) (h : (capIslands s).power.islands.get? i = some k) :
    k ≤ modeClock (getF s .pwrMode F.pwrMode_current) := by
  obtain ⟨q, -, hq⟩ := List.mem_map.mp (Tab.mem_of_get? h)
  obtain ⟨rfl, rfl⟩ := Prod.mk.inj hq
  rw [ratedClock_core s hi]
  exact Nat.le_trans (Nat.min_le_right _ _) (ratedClock_core_le s q.1)

/-- Once a mode is reached no core's island runs faster than its clock (R29). -/
theorem islands_modeReached_le {s : State} {n i k : Nat} (hn : n < 4) (hi : i < 1024) (h : (modeReached n s).power.islands.get? i = some k) :
    k ≤ [1800000, 1500000, 1100000, 1100000].getD n 0 := by
  have hk := islands_capIslands_le hi h
  have hcur : getF (setF (modPower (fun p => { p with nextMode := none }) s) .pwrMode F.pwrMode_current n) .pwrMode F.pwrMode_current = n :=
    getF_setF_self _ _ _ _ (by decide) hn
  rwa [hcur, modeClock_eq hn] at hk

theorem adjustClock_rated {i khz c : Nat} {s : State} (hi : i < 1320) (h : ratedClock s i = some c) :
    adjustClock i khz s = { s with power := { s.power with islands := s.power.islands.set i (min khz c) } } := by
  simp only [adjustClock, if_pos hi, h]
  rfl

theorem adjustClock_unrated {i khz : Nat} {s : State} (hi : i < 1320) (h : ratedClock s i = none) :
    adjustClock i khz s = { s with power := { s.power with islands := s.power.islands.set i khz } } := by
  simp only [adjustClock, if_pos hi, h]
  rfl

/-! ### What PWR_DIE_THROTTLE shows -/

theorem viewReg_pwrDieThrottle (s : State) (d : Nat) : viewReg s (.pwrDieThrottle d) =
    F.pwrDieThrottle_tripped.into (F.pwrDieThrottle_cause.into (F.pwrDieThrottle_rung.into (regVal s (.pwrDieThrottle d)) (if d < 16 then rungOf s d else 0))
      (rungCauses s d)) (s.power.tripped.contains d).toNat := rfl

theorem testBit_maskOf (l : List Nat) (i : Nat) : (maskOf l).testBit i = decide (i ∈ l) := by
  have key : ∀ m, (l.foldl (fun m n => m ||| 2 ^ n) m).testBit i = (m.testBit i || decide (i ∈ l)) := by
    induction l with
    | nil => simp
    | cons n l ih =>
      intro m
      rw [List.foldl_cons, ih, Nat.testBit_or, Nat.testBit_two_pow]
      simp [Bool.or_assoc, eq_comm]
  simp [maskOf, key]

/-- A cause shows where it demands a rung. -/
theorem testBit_rungCauses (s : State) (d c : Nat) : (rungCauses s d).testBit c = (decide (c < 4) && s.power.rungs.get (d * 4 + c) 0 != 0) := by
  rw [rungCauses, testBit_maskOf, Bool.eq_iff_iff]
  simp

theorem rungCauses_lt (s : State) (d : Nat) : rungCauses s d < 2 ^ 4 :=
  Nat.lt_pow_two_of_testBit _ (fun i hi => by rw [testBit_rungCauses, decide_eq_false (by omega), Bool.false_and])

theorem viewReg_tripped (s : State) (d : Nat) : F.pwrDieThrottle_tripped.of (viewReg s (.pwrDieThrottle d)) = (s.power.tripped.contains d).toNat := by
  rw [viewReg_pwrDieThrottle, Fld.of_into_self _ _ _ (by decide) (Bool.toNat_lt _)]

theorem viewReg_cause (s : State) (d : Nat) : F.pwrDieThrottle_cause.of (viewReg s (.pwrDieThrottle d)) = rungCauses s d := by
  rw [viewReg_pwrDieThrottle, Fld.of_into_apart _ _ _ _ (by decide) rfl, Fld.of_into_self _ _ _ (by decide) (rungCauses_lt s d)]

theorem viewReg_rung {s : State} {d r : Nat} (h : (if d < 16 then rungOf s d else 0) = r) (hr : r < 8) :
    F.pwrDieThrottle_rung.of (viewReg s (.pwrDieThrottle d)) = r := by
  rw [viewReg_pwrDieThrottle, Fld.of_into_apart _ _ _ _ (by decide) rfl, Fld.of_into_apart _ _ _ _ (by decide) rfl, h,
    Fld.of_into_self _ _ _ (by decide) hr]

/-! ### References, trips and what holds a die -/

theorem oscALoss_known {s : State} {d : Nat} (h : s.power.onB.contains d = true) : oscALoss d s = s := if_pos (.inr h)

theorem oscALoss_new {s : State} {d : Nat} (hd : d < 20) (h : s.power.onB.contains d = false) :
    oscALoss d s = raise { code := 0x0B01, cont := contL, die := d } (modPower (fun p => { p with onB := d :: p.onB }) s) :=
  if_neg (by rw [h]; simp; omega)

theorem mustStay_iff (s : State) (d : Nat) : mustStay s d = true ↔ s.power.tripped.contains d = true ∨ s.power.noRef.contains d = true ∨
    s.memp.trained.get? d = some false ∨ (getF s .secBootStatus F.secBootStatus_die_fail).testBit d = true ∨
    (getF s .secBootStatus F.secBootStatus_stage = 7 ∧ d ≠ 16) := by
  simp only [mustStay, Bool.or_eq_true, Bool.and_eq_true, beq_iff_eq, bne_iff_ne, or_assoc]

theorem releaseDie_some {s : State} {d : Nat} {r : DieReset} (h : s.power.resets.get? d = some r) :
    releaseDie d s = { s with power := { s.power with resets := s.power.resets.set d { r with held := r.held && mustStay s d } } } := by
  simp only [releaseDie, h]

theorem refBack_unlost {s : State} {d : Nat} (h : s.power.noRef.contains d = false) : refBack d s = s := if_neg (by rw [h]; exact Bool.false_ne_true)

theorem refBack_lost {s : State} {d : Nat} (h : s.power.noRef.contains d = true) :
    refBack d s = releaseDie d { s with power := { s.power with noRef := s.power.noRef.filter (· != d) } } := if_pos h

/-- The state in which a die has tripped: THERMTRIP_N goes low with the first. -/
def tripping (d : Nat) (s : State) : State := { s with
  out := if s.power.tripped = [] then .pin .thermtripN false :: s.out else s.out
  power := { s.power with tripped := d :: s.power.tripped } }

/-- The state in which a die has cooled. -/
def cooled (d : Nat) (temp : Int) (s : State) : State :=
  setTemp d temp { s with power := { s.power with tripped := s.power.tripped.filter (· != d) } }

theorem readTemp_tripping (d : Nat) (r : Reading) (s : State) : modPower (fun p => { p with tripped := d :: p.tripped })
    (readTemp d r (if s.power.tripped.isEmpty then emit (.pin .thermtripN false) s else s)) = readTemp d r (tripping d s) := by
  simp only [List.isEmpty_iff, readTemp, tripping]
  split <;> split <;> rfl

theorem thermtrip_trips {s : State} {d : Nat} {r : Reading} (hd : d < if r.package then 16 else 20) (ht : tripAt r ≤ r.temp)
    (h : s.power.tripped.contains d = false) : thermtrip d r s = readTemp d r (dieWarmReset d 5 true
      (raise { code := 0x0C04, cont := if d = 16 then contM else contD, die := d } (readTemp d r (tripping d s)))) := by
  rw [← readTemp_tripping]
  simp only [thermtrip, hd, ht, h, Bool.not_false, and_self, if_true]

/-- Nothing trips below the limit, on a die that is tripped, or by a package that the die does not have. -/
theorem thermtrip_away {s : State} {d : Nat} {r : Reading}
    (h : r.temp < tripAt r ∨ s.power.tripped.contains d = true ∨ ¬d < if r.package then 16 else 20) : thermtrip d r s = s := by
  unfold thermtrip
  rw [if_neg]
  rintro ⟨hd, ht, hn⟩
  rcases h with h | h | h
  · omega
  · rw [h] at hn
    cases hn
  · exact h hd

theorem thermtripResume_away {s : State} {d : Nat} {temp : Int}
    (h : s.power.tripped.contains d = false ∨ getF s .pwrThermCfg F.pwrThermCfg_resume < temp) : thermtripResume d temp s = s := by
  unfold thermtripResume
  rw [if_neg]
  rw [Bool.and_eq_true, decide_eq_true_eq]
  rintro ⟨hc, ht⟩
  rcases h with h | h
  · rw [h] at hc
    cases hc
  · omega

/-- A die that has cooled may leave reset unless something else holds it, and THERMTRIP_N goes high with the last. -/
theorem thermtripResume_cools {s : State} {d : Nat} {temp : Int} {r : DieReset} (hc : s.power.tripped.contains d = true)
    (ht : temp ≤ getF s .pwrThermCfg F.pwrThermCfg_resume) (hr : s.power.resets.get? d = some r) :
    thermtripResume d temp s = { cooled d temp s with
      out := if s.power.tripped.filter (· != d) = [] then .pin .thermtripN true :: s.out else s.out
      power := { (cooled d temp s).power with resets := s.power.resets.set d { r with held := r.held && mustStay (cooled d temp s) d } } } := by
  have hgo : (s.power.tripped.contains d && decide (temp ≤ getF s .pwrThermCfg F.pwrThermCfg_resume)) = true := by
    rw [hc, decide_eq_true ht, Bool.true_and]
  have hrel : releaseDie d (modPower (fun p => { p with tripped := p.tripped.filter (· != d) }) (setTemp d temp s)) = { cooled d temp s with
      power := { (cooled d temp s).power with resets := s.power.resets.set d { r with held := r.held && mustStay (cooled d temp s) d } } } :=
    releaseDie_some (s := cooled d temp s) hr
  simp only [thermtripResume, if_pos hgo, hrel, List.isEmpty_iff]
  show (if s.power.tripped.filter (· != d) = [] then _ else _) = _
  split <;> rfl

/-! ### The supplies -/

/-- A note of ED0 after a change of the power state is recorded, and changes neither the power state nor memory. -/
theorem note_recorded {s u : State} {code : Nat} (hs : unwatched s) (hg : u.regs = s.regs) :
    recorded s (note code u) code ∧ (note code u).power = u.power ∧ (note code u).mem = u.mem := by
  obtain ⟨hrec, g, b, e⟩ := raise_recorded { code := code, cont := contL } hs hg rfl
  exact ⟨hrec, by rw [note, e], by rw [note, e]⟩

/-- The state at the loss of the 50 V input: PWRGD goes low where it was high. -/
def inputLost (volts : Nat) (s : State) : State := { s with
  out := if s.power.pwrgd = true then .pin .pwrgd false :: s.out else s.out
  power := { s.power with volts := volts, pwrgd := false } }

theorem pwrgdLow_inputLost (volts : Nat) (s : State) : pwrgdLow (modPower (fun p => { p with volts := volts }) s) = inputLost volts s := by
  obtain hp | hp := Bool.eq_false_or_eq_true s.power.pwrgd
  · simp [pwrgdLow, inputLost, modPower, emit, hp]
  · simp [pwrgdLow, inputLost, modPower, hp]

theorem deepParked_iff (s : State) : deepParked s = true ↔ getF s .pwrState F.pwrState_state = 3 := beq_iff_eq

/-- The loss of the 50 V input, in deep park and outside it (R477). -/
def afterLoss (volts : Nat) (s : State) : State :=
  if getF s .pwrState F.pwrState_state = 3 then inputLost volts s else coldReset (inputLost volts s)

theorem afterLoss_eq (volts : Nat) (s : State) : (if deepParked (inputLost volts s) then inputLost volts s else coldReset (inputLost volts s)) = afterLoss volts s := by
  simp only [deepParked_iff]
  rfl

theorem supplyLoss_lost {volts : Nat} (s : State) (h : volts < 4000) : supplyLoss volts s = afterLoss volts s := by
  simp only [supplyLoss, if_pos h, pwrgdLow_inputLost, afterLoss_eq]

theorem switchOpens_open {volts : Nat} (s : State) (h : 6000 < volts) : switchOpens volts s =
    modPower (fun p => { p with switchOpen := true, ovAtBoot := decide (1100 ≤ p.auxVolts) }) (afterLoss volts s) := by
  simp only [switchOpens, if_pos h, pwrgdLow_inputLost, afterLoss_eq]

/-- An overvoltage is due a record where none was made in the last hour. -/
theorem overvoltage_eq (volts : Nat) (s : State) : overvoltage volts s =
    if 5800 < volts ∧ s.power.ovAt.any (fun u => decide (s.clock.ns < u + 3600 * 10 ^ 9)) = false
    then note 0x0C0A { s with power := { s.power with volts := volts, ovAt := some s.clock.ns } } else { s with power := { s.power with volts := volts } } := by
  have hcond : (volts ≤ 5800 ∨ s.power.ovAt.any (fun u => decide (s.clock.ns < u + 3600 * 10 ^ 9)) = true) ↔
      ¬(5800 < volts ∧ s.power.ovAt.any (fun u => decide (s.clock.ns < u + 3600 * 10 ^ 9)) = false) := by
    rw [Decidable.not_and_iff_not_or_not, Nat.not_lt, Bool.not_eq_false]
  have he : overvoltage volts s = if (volts ≤ 5800 ∨ s.power.ovAt.any (fun u => decide (s.clock.ns < u + 3600 * 10 ^ 9)) = true)
      then { s with power := { s.power with volts := volts } } else note 0x0C0A { s with power := { s.power with volts := volts, ovAt := some s.clock.ns } } := rfl
  rw [he]
  simp only [hcond, ite_not]

theorem switchCloses_eq (volts : Nat) (s : State) : switchCloses volts s =
    if s.power.switchOpen = true ∧ 4400 ≤ volts ∧ volts ≤ 5800 then { s with power := { s.power with switchOpen := false, volts := volts } } else s := by
  simp only [switchCloses, Bool.and_eq_true, decide_eq_true_eq]
  rfl

/-- The state at the loss of the auxiliary input. -/
def auxGone (volts : Nat) (s : State) : State :=
  { s with power := { s.power with auxVolts := volts, ovAtBoot := s.power.ovAtBoot && !s.power.switchOpen } }

theorem auxLost_eq {volts : Nat} (s : State) (h : volts < 1100) : auxLost volts s =
    if getF s .pwrState F.pwrState_state = 3 then coldReset (auxGone volts s)
    else if 4000 ≤ s.power.volts ∧ s.power.switchOpen = false ∧ s.power.auxNoted = false
      then note 0x0C0B { s with power := { (auxGone volts s).power with auxNoted := true } } else auxGone volts s := by
  have he : auxLost volts s = if deepParked s then coldReset (auxGone volts s)
      else if 4000 ≤ s.power.volts ∧ !s.power.switchOpen ∧ !s.power.auxNoted
        then note 0x0C0B { s with power := { (auxGone volts s).power with auxNoted := true } } else auxGone volts s := if_pos h
  rw [he]
  simp only [deepParked_iff, Bool.not_eq_true']

/-- POWER_UP where the input switch is closed and PWRGD low. -/
def powered (s : State) : State :=
  { s with out := .pin .pwrgd true :: s.out, power := { s.power with pwrgd := true, volts := max 4400 s.power.volts } }

theorem powerUp_away {s : State} (h : s.power.switchOpen = true ∨ s.power.pwrgd = true) : powerUp s = s :=
  if_pos ((Bool.or_eq_true _ _).mpr h)

theorem powerUp_rises {s : State} (ho : s.power.switchOpen = false) (hp : s.power.pwrgd = false) : powerUp s =
    if getF s .pwrState F.pwrState_state = 3 ∧ getF s .pwrState F.pwrState_status = 1 then activeAsk (powered s) else powered s :=
  if_neg (by rw [ho, hp]; decide)

end Sys2Proof.Machine
end

section
/-! PROOFS. Power modes, island clocks, the throttle ladder and the supplies. -/

open Sys2Proof Sys2Proof.Machine Sys2Proof.Claims

namespace Sys2Proof.Proofs

/-- Settles O57: a step of the ladder is a reading, an engagement that touches one cause of one die, and a record that leaves both; the other clauses are the forms of their
commands, taken one by one. -/
theorem modesThrottleAndSupplies : Obligations.ModesThrottleAndSupplies := by
  unfold Obligations.ModesThrottleAndSupplies
  refine ⟨?modes, ?clocks, ?shown, ?oscA, ?die, ?inputs, ?edge, ?trips, mustStay_iff, ?supplies⟩
  case modes =>
    refine fun s val hs ha => ⟨fun h3 => ?_, fun h3 => ⟨_, exec_modeChange val ha, modeChange_spec h3⟩,
      fun hn => congrArg Host.Outcome.next (modeComplete_none hn), fun n hn hnext => ?_⟩
    · obtain ⟨hrec, g, b, e⟩ := raise_recorded { code := 0x0C06, cont := contX } hs rfl rfl
      have hmode := regVal_record (r := .pwrMode) { code := 0x0C06, cont := contX } s (by simp) (by simp)
      rw [← raise_unwatched _ hs] at hmode
      exact ⟨_, (exec_modeChange val ha).trans (congrArg _ (modeChange_reserved s h3)), hrec, hmode, by rw [e], by rw [e]⟩
    · obtain ⟨hcur, hmode, hrun, hacc, hrel, hlap, hmem, hisl, hlast, hnext⟩ := modeComplete_spec hn hnext
      exact ⟨_, rfl, hcur, hmode, hrun, hacc, hrel, hlap, hmem, fun i hi k hk => islands_modeReached_le hn hi (hisl ▸ hk), hlast, hnext⟩
  case clocks =>
    refine fun s i khz => ⟨fun hi r hr hmax => ?_, fun hlo hhi => ?_, fun hi => ?_, fun hi => congrArg Host.Outcome.next (if_neg (by omega))⟩
    · have hrung : rungOf s (i / 64) = r := maxOf_eq hr hmax
      rw [← modeClock_eq (pwrMode_current_lt s), ← hrung]
      exact congrArg Host.Outcome.next (adjustClock_rated (by omega) (ratedClock_core s hi))
    · exact congrArg Host.Outcome.next (adjustClock_rated (by omega) (ratedClock_mesh s ⟨hlo, hhi⟩))
    · exact congrArg Host.Outcome.next (adjustClock_unrated (by omega) (ratedClock_other s (by omega) (by omega)))
  case shown =>
    refine fun s d hd => ⟨fun r hr h8 hmax => viewReg_rung ((if_pos hd).trans (maxOf_eq hr hmax)) h8, fun c hc => ?_, viewReg_tripped s d⟩
    rw [viewReg_cause, testBit_rungCauses, decide_eq_true hc, Bool.true_and]
    simp [hc]
  case oscA =>
    refine fun s d hd hs => ⟨fun hb => congrArg Host.Outcome.next (oscALoss_known hb), fun hb => ?_⟩
    obtain ⟨hrec, g, b, e⟩ := raise_recorded (u := modPower (fun p => { p with onB := d :: p.onB }) s) { code := 0x0B01, cont := contL, die := d } hs rfl rfl
    exact ⟨_, congrArg Host.Outcome.next (oscALoss_new hd hb), hrec, by rw [e]; rfl, by rw [e]; rfl, by rw [e]; rfl⟩
  case die =>
    intro s d temp pk hd hs
    have hpk : d < if pk = true then 16 else 20 := by split <;> omega
    refine ⟨fun hr => ?_, fun hr => ?_, fun hr hhot => ?_, fun hr hcool => ?_, fun c hc => ⟨_, rfl, throttleRelease_rungs s (by omega) hc⟩⟩
    · exact ⟨congrArg Host.Outcome.next (rateThrottle_inReset temp hr), congrArg Host.Outcome.next (hotThrottle_away (.inl hr))⟩
    · have hst : Steady s (engage d 0 4 (readTemp d ⟨temp, false⟩ s)) := (steady_readTemp d _ s).trans (steady_engage _ _ _ _)
      have hu := hst.unwatched hs
      refine ⟨_, congrArg Host.Outcome.next (rateThrottle_running temp hd hr), ?_, ?_, throttleNote_notedOnce d 0 _ hs hst⟩
      · exact (getF_throttleNote_temp d 0 _ hu).trans ((getF_engage_temp _ _ _ _).trans (getF_readTemp_temp d ⟨temp, false⟩ s))
      · exact (engaged_engage_readTemp d 0 4 ⟨temp, false⟩ s).throttleNote _ hu
    · exact ⟨_, rfl, hotThrottle_engages hs hpk hr hhot⟩
    · exact ⟨_, congrArg Host.Outcome.next (hotThrottle_cool (r := ⟨temp, pk⟩) hpk hr hcool), getF_readTemp_temp d _ s, readTemp_power d _ s,
        (steady_readTemp d _ s).blotter⟩
  case inputs =>
    refine fun s watts volts hs => ⟨?_, ?_⟩
    · obtain ⟨hin, hmem, hrun⟩ := ceilingThrottle_keeps watts hs
      refine ⟨_, rfl, (getF_congr hin _).trans (getF_inputPower_power watts s), (getF_congr hin _).trans (getF_inputPower_peak watts s), hmem, hrun,
        fun h => ?_, fun h => ?_⟩
      · obtain ⟨hrung, hfirst, hagain⟩ := ceilingThrottle_raises hs h
        exact ⟨hrung, hfirst, fun ⟨d, hd, hne⟩ => hagain ⟨d, hd, hne⟩⟩
      · rw [ceilingThrottle_within h]
        exact ⟨rfl, rfl⟩
    · obtain ⟨hvolts, hmem, hrun, hlow⟩ := supplyLow_spec volts hs
      exact ⟨_, rfl, hvolts, hmem, hrun, hlow, fun h => by rw [supplyLow_enough s h]; exact ⟨rfl, rfl⟩⟩
  case edge =>
    refine fun s d temp hlo hd hs => ⟨fun hr hhot => ?_, fun hr => congrArg Host.Outcome.next (hotThrottle_away (.inl hr)),
      congrArg Host.Outcome.next (hotThrottle_away (.inr (by simpa using hlo))), congrArg Host.Outcome.next (thermtrip_away (.inr (.inr (by simpa using hlo)))),
      fun c hc => ⟨_, rfl, throttleRelease_rungs s hd hc⟩⟩
    obtain ⟨-, ⟨hrung, -, -, hmem, hrun⟩, -, -⟩ := hotThrottle_engages (r := ⟨temp, false⟩) hs hd hr hhot
    refine ⟨_, rfl, ?_, viewReg_rung (if_neg (by omega)) (by decide), hmem, hrun⟩
    rw [viewReg_cause, testBit_rungCauses, hrung]
    simp
  case trips =>
    refine fun s d temp pk hd => ⟨fun ht hn => ?_, fun h => ?_, fun h => congrArg Host.Outcome.next (thermtripResume_away h), fun hc ht r hr => ?_, ?_,
      fun h => congrArg Host.Outcome.next (refBack_unlost h), fun h r hr => ?_⟩
    · exact congrArg Host.Outcome.next (thermtrip_trips (r := ⟨temp, pk⟩) hd ht hn)
    · exact congrArg Host.Outcome.next (thermtrip_away (h.imp id .inl))
    · exact ⟨_, congrArg Host.Outcome.next (thermtripResume_cools hc ht hr), rfl, Tab.get?_set_self _ _ _, rfl, rfl, rfl⟩
    · exact congrArg Host.Outcome.next (if_neg (by split at hd <;> omega))
    · exact ⟨_, congrArg Host.Outcome.next ((refBack_lost h).trans (releaseDie_some hr)), rfl, rfl, rfl, Tab.get?_set_self _ _ _⟩
  case supplies =>
    intro s volts hs
    refine ⟨fun h => congrArg Host.Outcome.next (if_neg (by omega)), fun h => congrArg Host.Outcome.next (supplyLoss_lost s h), fun hdue => ?_,
      fun hdue => congrArg Host.Outcome.next ((overvoltage_eq volts s).trans (if_neg hdue)), fun h => congrArg Host.Outcome.next (if_neg (by omega)),
      fun h => congrArg Host.Outcome.next (switchOpens_open s h), congrArg Host.Outcome.next (switchCloses_eq volts s),
      ⟨fun h => congrArg Host.Outcome.next (if_neg (by omega)), fun h hdeep => ?_, fun h hdeep hdue => ?_, fun h hdeep hdue => ?_⟩, rfl,
      fun h => congrArg Host.Outcome.next (powerUp_away h), fun ho hp => ?_⟩
    · have hov : overvoltage volts s = note 0x0C0A { s with power := { s.power with volts := volts, ovAt := some s.clock.ns } } :=
        (overvoltage_eq volts s).trans (if_pos hdue)
      exact ⟨_, congrArg Host.Outcome.next hov, note_recorded hs rfl⟩
    · exact congrArg Host.Outcome.next ((auxLost_eq s h).trans (if_pos hdeep))
    · exact congrArg Host.Outcome.next ((auxLost_eq s h).trans ((if_neg hdeep).trans (if_neg hdue)))
    · exact ⟨_, congrArg Host.Outcome.next ((auxLost_eq s h).trans ((if_neg hdeep).trans (if_pos hdue))), note_recorded hs rfl⟩
    · exact (congrArg Host.Outcome.next (powerUp_rises ho hp)).trans (apply_ite Host.Outcome.next _ _ _)

end Sys2Proof.Proofs
end

section
/-! SUPPORT. Rounding of a dyadic magnitude m × 2^e: its floor in any unit, what rounding to nearest adds to it, and the magnitudes that a unit divides (R173). -/

open Sys2Proof Sys2Proof.Machine

namespace Sys2Proof.Machine

/-! ### The floor of a dyadic magnitude -/

theorem dy_eq_rat (m : Nat) (e : Int) : Mag.dy m e = .rat (m * 2 ^ e.toNat) (2 ^ (-e).toNat) := by
  unfold Mag.dy
  split
  next h => rw [Nat.shiftLeft_eq, Int.toNat_of_nonpos (by omega : -e ≤ 0), Nat.pow_zero]
  next h => rw [Int.toNat_of_nonpos (by omega : e ≤ 0), Nat.pow_zero, Nat.mul_one]

theorem ratFloor_eq (n d : Nat) (k : Int) :
    ratFloor n d k = (n * 2 ^ k.toNat / (d * 2 ^ (-k).toNat), n * 2 ^ k.toNat % (d * 2 ^ (-k).toNat) == 0) := by
  unfold ratFloor
  by_cases h : 0 ≤ k
  · rw [if_pos h, Nat.shiftLeft_eq, Int.toNat_of_nonpos (by omega : -k ≤ 0), Nat.pow_zero, Nat.mul_one]
  · rw [if_neg h, Nat.shiftLeft_eq, Int.toNat_of_nonpos (by omega : k ≤ 0), Nat.pow_zero, Nat.mul_one]

/-- In units below its own last place a magnitude is whole. -/
theorem floorAt_dy_whole (m : Nat) {e k : Int} (h : 0 ≤ e + k) : (Mag.dy m e).floorAt k = (m * 2 ^ (e + k).toNat, true) := by
  have hexp : e.toNat + k.toNat = (e + k).toNat + ((-e).toNat + (-k).toNat) := by omega
  rw [dy_eq_rat, Mag.floorAt, ratFloor_eq, Nat.mul_assoc, ← Nat.pow_add, ← Nat.pow_add, hexp, Nat.pow_add 2 (e + k).toNat, ← Nat.mul_assoc,
    Nat.mul_div_cancel _ (Nat.two_pow_pos _), Nat.mul_mod_left, beq_self_eq_true]

/-- In units above its own last place a magnitude loses its low bits. -/
theorem floorAt_dy_cut (m : Nat) {e k : Int} (h : e + k ≤ 0) :
    (Mag.dy m e).floorAt k = (m / 2 ^ (-(e + k)).toNat, m % 2 ^ (-(e + k)).toNat == 0) := by
  have hexp : (-e).toNat + (-k).toNat = (-(e + k)).toNat + (e.toNat + k.toNat) := by omega
  have hpos := Nat.two_pow_pos (e.toNat + k.toNat)
  rw [dy_eq_rat, Mag.floorAt, ratFloor_eq, Nat.mul_assoc, ← Nat.pow_add, ← Nat.pow_add, hexp, Nat.pow_add 2 (-(e + k)).toNat,
    Nat.mul_div_mul_right _ _ hpos, Nat.mul_mod_mul_right]
  exact congrArg _ (Bool.eq_iff_iff.mpr (by rw [beq_iff_eq, beq_iff_eq, Nat.mul_eq_zero, or_iff_left (Nat.ne_of_gt hpos)]))

/-! ### Rounding -/

theorem roundUnits_exact {mode : Rnd} {v : Mag} {u : Int} {q : Nat} (h : v.floorAt (-u) = (q, true)) : roundUnits mode v u = q := by
  simp only [roundUnits, h, if_true]

theorem roundUnits_rne_le (v : Mag) (u : Int) : roundUnits .rne v u ≤ (v.floorAt (-u)).1 + 1 := by
  simp only [roundUnits]
  split
  next => exact Nat.le_succ _
  next =>
    split
    next => exact Nat.le_succ _
    next =>
      split
      next => omega
      next => exact Nat.le_refl _

/-- Two magnitudes are equal: their significands agree in units of the lesser exponent. -/
def sameMag (m : Nat) (e : Int) (n : Nat) (f : Int) : Prop := m * 2 ^ (e - min e f).toNat = n * 2 ^ (f - min e f).toNat

theorem floorAt_sameMag {m n : Nat} {e f : Int} (h : sameMag m e n f) : (Mag.dy m e).floorAt (-f) = (n, true) := by
  unfold sameMag at h
  rcases Int.le_total f e with hle | hle
  · rw [Int.min_eq_right hle, Int.sub_self, Int.toNat_zero, Nat.pow_zero, Nat.mul_one] at h
    rw [floorAt_dy_whole m (by omega), ← Int.sub_eq_add_neg, h]
  · rw [Int.min_eq_left hle, Int.sub_self, Int.toNat_zero, Nat.pow_zero, Nat.mul_one] at h
    rw [floorAt_dy_cut m (by omega), h, show -(e + -f) = f - e by omega, Nat.mul_div_cancel _ (Nat.two_pow_pos _), Nat.mul_mod_left, beq_self_eq_true]

theorem log2_mul_two_pow {n : Nat} (k : Nat) (h : n ≠ 0) : Nat.log2 (n * 2 ^ k) = Nat.log2 n + k := by
  have hpos := Nat.two_pow_pos k
  rw [Nat.log2_eq_iff (Nat.mul_ne_zero h (Nat.ne_of_gt hpos)), Nat.pow_add, Nat.add_right_comm, Nat.pow_add 2 _ k]
  exact ⟨Nat.mul_le_mul_right _ (Nat.log2_self_le h), Nat.mul_lt_mul_of_pos_right Nat.lt_log2_self hpos⟩

theorem finExp_sameMag {m n : Nat} {e f : Int} (hm : m ≠ 0) (hn : n ≠ 0) (h : sameMag m e n f) : finExp m e = finExp n f := by
  have hlog := congrArg Nat.log2 h
  rw [log2_mul_two_pow _ hm, log2_mul_two_pow _ hn] at hlog
  unfold finExp
  omega

/-- A value rounded at `p` bits below its leading one comes to at most 2^(p + 1). -/
theorem roundUnits_leading_le (m p : Nat) (e : Int) : roundUnits .rne (Mag.dy m e) (finExp m e - p) ≤ 2 ^ (p + 1) := by
  refine Nat.le_trans (roundUnits_rne_le _ _) (Nat.succ_le_of_lt ?_)
  have hm : m < 2 ^ (Nat.log2 m + 1) := Nat.lt_log2_self
  have hunit : e + -(finExp m e - p) = (p : Int) - Nat.log2 m := by unfold finExp; omega
  rcases Nat.le_total (Nat.log2 m) p with hle | hle
  · rw [floorAt_dy_whole m (by omega), hunit, show ((p : Int) - Nat.log2 m).toNat = p - Nat.log2 m by omega]
    calc m * 2 ^ (p - Nat.log2 m) < 2 ^ (Nat.log2 m + 1) * 2 ^ (p - Nat.log2 m) := Nat.mul_lt_mul_of_pos_right hm (Nat.two_pow_pos _)
      _ = 2 ^ (p + 1) := by rw [← Nat.pow_add]; congr 1; omega
  · rw [floorAt_dy_cut m (by omega), hunit, show (-((p : Int) - Nat.log2 m)).toNat = Nat.log2 m - p by omega]
    refine Nat.div_lt_of_lt_mul ?_
    rwa [← Nat.pow_add, show Nat.log2 m - p + (p + 1) = Nat.log2 m + 1 by omega]

/-! ### Equal finite values -/

/-- Finite values neither of which is below the other: they have one magnitude, and one sign unless they are zeros. -/
theorem fin_not_lt {a b : Bool} {m n : Nat} {e f : Int} (hab : (Val.fin a m e).lt (.fin b n f) = false) (hba : (Val.fin b n f).lt (.fin a m e) = false) :
    sameMag m e n f ∧ (n ≠ 0 → a = b ∧ m ≠ 0) := by
  have hunits : Val.units a m e (min e f) = Val.units b n f (min e f) := by
    simp only [Val.lt, decide_eq_false_iff_not, Int.min_comm f e] at hab hba
    omega
  have hn : n ≠ 0 → 0 < n * 2 ^ (f - min e f).toNat := fun h => Nat.mul_pos (Nat.pos_of_ne_zero h) (Nat.two_pow_pos _)
  have hm : m = 0 → m * 2 ^ (e - min e f).toNat = 0 := fun h => by rw [h, Nat.zero_mul]
  simp only [Val.units, Nat.shiftLeft_eq] at hunits
  unfold sameMag
  cases a <;> cases b <;> simp only [Bool.false_eq_true, if_false, if_true, reduceCtorEq, false_and, true_and] at hunits ⊢ <;> omega

end Sys2Proof.Machine
end

section
/-! PROOFS. The FP20 add. -/

open Sys2Proof Sys2Proof.Machine

namespace Sys2Proof.Machine

/-! ### The codes of FP20 (R115) -/

/-- A partial of `q` units of 2^(ex - 11), infinite or +0 where its exponent leaves the format (R116). -/
def fp20Code (neg : Bool) (q : Nat) (ex : Int) : BitVec 20 :=
  if ex ≥ 128 then (if neg then 0xFF800 else 0x7F800)
  else if ex < -126 then 0
  else BitVec.ofNat 20 ((if neg then 2 ^ 19 else 0) + (ex + 127).toNat * 2 ^ 11 + (q - 2 ^ 11))

/-- The exponent field of a partial. -/
def fp20Exp (p : BitVec 20) : Nat := p.toNat / 2 ^ 11 % 256

theorem fp20Exp_fp20Code {neg : Bool} {q : Nat} {ex : Int} (hq : q < 2 ^ 12) (h : fp20Exp (fp20Code neg q ex) = 0) : fp20Code neg q ex = 0 := by
  unfold fp20Code at h ⊢
  by_cases hhi : ex ≥ 128
  · rw [if_pos hhi] at h
    cases neg <;> exact absurd h (by decide)
  · by_cases hlo : ex < -126
    · rw [if_neg hhi, if_pos hlo]
    · rw [if_neg hhi, if_neg hlo, fp20Exp, BitVec.toNat_ofNat] at h
      cases neg <;> simp only [Bool.false_eq_true, if_false, if_true] at h <;> omega

/-- The value of a partial with a normal exponent. -/
theorem fp20Val_normal {q : BitVec 20} (h1 : 1 ≤ fp20Exp q) (h2 : fp20Exp q ≤ 254) :
    fp20Val q = .fin (decide (2 ^ 19 ≤ q.toNat)) (2 ^ 11 + q.toNat % 2 ^ 11) ((fp20Exp q : Int) - 138) := by
  have hexp : q.toNat % 2 ^ 19 / 2 ^ 11 = fp20Exp q := by unfold fp20Exp; omega
  simp only [fp20Val, hexp]
  rw [if_neg (by omega), if_neg (by omega)]

/-- A normal partial is the code of its sign, its significand and its exponent. -/
theorem fp20Code_normal {q : BitVec 20} (h1 : 1 ≤ fp20Exp q) (h2 : fp20Exp q ≤ 254) :
    fp20Code (decide (2 ^ 19 ≤ q.toNat)) (2 ^ 11 + q.toNat % 2 ^ 11) ((fp20Exp q : Int) - 127) = q := by
  have hlt := q.isLt
  unfold fp20Code
  rw [if_neg (by omega), if_neg (by omega), show ((fp20Exp q : Int) - 127 + 127).toNat = fp20Exp q by omega, Nat.add_sub_cancel_left]
  refine BitVec.eq_of_toNat_eq ?_
  unfold fp20Exp
  rw [BitVec.toNat_ofNat]
  by_cases hneg : 2 ^ 19 ≤ q.toNat <;> simp only [hneg, decide_true, decide_false, Bool.false_eq_true, if_false, if_true] <;> omega

/-! ### The cases of the add (R116) -/

theorem fp20Add_nan {p : BitVec 20} {x : Val} (h : (fp20Val p).add x = .nan) : fp20Add p x = 0x7FC00 := by
  simp only [fp20Add, h]

theorem fp20Add_inf {p : BitVec 20} {x : Val} {a : Bool} (h : (fp20Val p).add x = .inf a) : fp20Add p x = if a then 0xFF800 else 0x7F800 := by
  simp only [fp20Add, h]

theorem fp20Add_zero {p : BitVec 20} {x : Val} (h : ((fp20Val p).add x).isZero = true) : fp20Add p x = 0 := by
  cases hsum : (fp20Val p).add x with
  | nan =>
    rw [hsum] at h
    cases h
  | inf a =>
    rw [hsum] at h
    cases h
  | fin neg m e =>
    rw [hsum] at h
    simp only [fp20Add, hsum, if_pos (beq_iff_eq.mp h)]

/-- A sum that is not 0 is rounded at 11 bits below its leading one, with a carry into the exponent. -/
theorem fp20Add_fin {p : BitVec 20} {x : Val} {neg : Bool} {m : Nat} {e : Int} (h : (fp20Val p).add x = .fin neg m e) (hm : m ≠ 0) :
    fp20Add p x = if roundUnits .rne (Mag.dy m e) (finExp m e - 11) = 2 ^ 12 then fp20Code neg (2 ^ 11) (finExp m e + 1)
      else fp20Code neg (roundUnits .rne (Mag.dy m e) (finExp m e - 11)) (finExp m e) := by
  simp only [fp20Add, h, if_neg hm]
  split <;> rfl

/-- A sum that a normal partial holds exactly gives that partial. -/
theorem fp20Add_exact {p q : BitVec 20} {x : Val} {a : Bool} {m : Nat} {e : Int} (h1 : 1 ≤ fp20Exp q) (h2 : fp20Exp q ≤ 254)
    (h : (fp20Val p).add x = .fin a m e) (hlt : (Val.fin a m e).lt (fp20Val q) = false) (hgt : (fp20Val q).lt (.fin a m e) = false) : fp20Add p x = q := by
  rw [fp20Val_normal h1 h2] at hlt hgt
  obtain ⟨hmag, hsign⟩ := fin_not_lt hlt hgt
  obtain ⟨rfl, hm⟩ := hsign (by omega)
  have hlead : Nat.log2 (2 ^ 11 + q.toNat % 2 ^ 11) = 11 := (Nat.log2_eq_iff (by omega)).mpr (by omega)
  have hexp : finExp m e = (fp20Exp q : Int) - 127 := by
    rw [finExp_sameMag hm (by omega) hmag, finExp, hlead]
    omega
  have hround : roundUnits .rne (Mag.dy m e) (finExp m e - 11) = 2 ^ 11 + q.toNat % 2 ^ 11 := by
    rw [hexp, show (fp20Exp q : Int) - 127 - 11 = fp20Exp q - 138 by omega]
    exact roundUnits_exact (floorAt_sameMag hmag)
  rw [fp20Add_fin h hm, hround, if_neg (by omega), hexp, fp20Code_normal h1 h2]

/-- No result has exponent field 0 but +0: neither −0 nor a subnormal is formed. -/
theorem fp20Add_exp_zero {p : BitVec 20} {x : Val} (h : fp20Exp (fp20Add p x) = 0) : fp20Add p x = 0 := by
  cases hsum : (fp20Val p).add x with
  | nan =>
    rw [fp20Add_nan hsum] at h
    exact absurd h (by decide)
  | inf a =>
    rw [fp20Add_inf hsum] at h
    cases a <;> exact absurd h (by decide)
  | fin neg m e =>
    by_cases hm : m = 0
    · exact fp20Add_zero (by rw [hsum, Val.isZero, hm, beq_self_eq_true])
    · have hle := roundUnits_leading_le m 11 e
      rw [fp20Add_fin hsum hm] at h ⊢
      by_cases hcarry : roundUnits .rne (Mag.dy m e) (finExp m e - 11) = 2 ^ 12
      · rw [if_pos hcarry] at h ⊢
        exact fp20Exp_fp20Code (by decide) h
      · rw [if_neg hcarry] at h ⊢
        exact fp20Exp_fp20Code (Nat.lt_of_le_of_ne hle hcarry) h

/-! ### Sums that are not finite -/

theorem add_nan {v x : Val} (h : v.isNan = true ∨ x.isNan = true) : v.add x = .nan := by
  cases h with
  | inl hv =>
    cases v with
    | nan => rfl
    | inf => cases hv
    | fin => cases hv
  | inr hx =>
    cases x with
    | nan => cases v <;> rfl
    | inf => cases hx
    | fin => cases hx

theorem inf_add {a : Bool} {x : Val} (hn : x.isNan = false) (h : x ≠ .inf (!a)) : (Val.inf a).add x = .inf a := by
  cases x with
  | nan => cases hn
  | inf b =>
    have hab : a = b := by
      cases a <;> cases b
      · rfl
      · exact absurd rfl h
      · exact absurd rfl h
      · rfl
    exact if_pos hab
  | fin => rfl

theorem inf_add_opposite (a : Bool) : (Val.inf a).add (.inf !a) = .nan := by
  cases a <;> rfl

theorem fin_add_inf {v : Val} (a : Bool) (h : v.isFin = true) : v.add (.inf a) = .inf a := by
  cases v with
  | nan => cases h
  | inf => cases h
  | fin => rfl

theorem fin_add_fin {v x : Val} (hv : v.isFin = true) (hx : x.isFin = true) : ∃ a m e, v.add x = .fin a m e := by
  cases v with
  | nan => cases hv
  | inf => cases hv
  | fin =>
    cases x with
    | nan => cases hx
    | inf => cases hx
    | fin => exact ⟨_, _, _, rfl⟩

end Sys2Proof.Machine

namespace Sys2Proof.Proofs

/-- Settles O35: the sum is NaN, infinite, 0 or rounded at 11 bits below its leading one. A sum that a normal partial holds has that partial's exponent and is whole in its units, so
that rounding keeps it; and no rounding leaves the normal codes but for the infinities and +0. -/
theorem fpTwentyAdd : Obligations.FpTwentyAdd := by
  unfold Obligations.FpTwentyAdd
  intro p q x
  refine ⟨fun h => fp20Add_nan (add_nan h), fun a hv => ⟨fun hx => ?_, fun hn hx => ?_⟩, fun a hx hv => ?_, fun h1 h2 hv hx hlt hgt => ?_,
    fun _ _ h => fp20Add_zero h, fp20Add_exp_zero⟩
  · exact fp20Add_nan (by rw [hv, hx, inf_add_opposite])
  · exact fp20Add_inf (by rw [hv, inf_add hn hx])
  · exact fp20Add_inf (by rw [hx, fin_add_inf a hv])
  · obtain ⟨a, m, e, hsum⟩ := fin_add_fin hv hx
    rw [hsum] at hlt hgt
    exact fp20Add_exact h1 h2 hsum hlt hgt

end Sys2Proof.Proofs
end

section
/-! PROOFS. K-steps, drains and out-of-band drains. -/

open Sys2Proof Sys2Proof.Machine

namespace Sys2Proof.Machine

/-- An operation of the queue waits for the out-of-band drain of its core (R133). -/
theorem arrBlocked_of_odrain {s : State} {k : Nat} (o : ArrOp) (h : (coreAt s k).odrain.isSome = true) : arrBlocked s k o = true := by
  rw [arrBlocked, h, Bool.true_or]

theorem drainExecute_blocked {s : State} {k : Nat} {o : ArrOp} {l : List ArrOp} (ha : (coreAt s k).array = o :: l) (hb : arrBlocked s k o = true) :
    drainExecute k s = s := by
  simp only [drainExecute, ha]
  cases o.kind with
  | drain => exact if_pos hb
  | mmac => rfl
  | setp => rfl
  | scale => rfl
  | zero => rfl

end Sys2Proof.Machine

namespace Sys2Proof.Proofs

/-- A drain of tile 0 of core 0 as E4M3 into the first well, issued by runner 0. -/
def queuedDrain : ArrOp := ⟨8, 0, 0, .drain 0x1000_0000_0000 none 3 0 0 [] none, 0, [], .unseen⟩

/-- A state after reset with `queuedDrain` at the head of core 0's queue while an out-of-band drain of tile 1, asked for before, still runs: a runner that is launched on
the halted core is not held by that drain and may issue the other. -/
def drainHeld : State :=
  { State.reset with
    cores := [(0, { Core.cold with array := [queuedDrain], odrain := some ⟨7, 0, 0, .drain 0x1100_0001_0000 (some 0x3F800000) 0 0 1 [] none, 0, [], .unseen⟩ })] }

/-- The drain at the head of the queue does not come to be performed. -/
theorem drainExecute_drainHeld : drainExecute 0 drainHeld = drainHeld :=
  drainExecute_blocked (o := queuedDrain) (l := []) rfl (arrBlocked_of_odrain _ rfl)

/-- Refutes O34: no clause has the premise that no out-of-band drain of the core runs. While one runs, the array's operations wait for it (`arrBlocked`), so that the drain at the
head of the queue stays there. -/
theorem not_kStepsAndDrains : ¬ Obligations.KStepsAndDrains := by
  unfold Obligations.KStepsAndDrains
  intro h
  obtain ⟨_, hdrain, _⟩ := h
  obtain ⟨t, ht, harray, _⟩ := hdrain drainHeld 0 0 3 0x1000_0000_0000 none queuedDrain (by decide) (by decide) rfl rfl rfl rfl rfl rfl rfl rfl rfl
    (by decide +kernel) (by decide +kernel) (by decide +kernel) (by decide +kernel) (by decide +kernel) (by decide) (.inl (by decide))
  obtain rfl : drainExecute 0 drainHeld = t := Host.Outcome.next.inj ht
  rw [drainExecute_drainHeld] at harray
  exact absurd harray (by decide)

end Sys2Proof.Proofs
end
